-- ==== Sys2Proof/Word.lean ====
section
/-! DEFINITION. The word types of the model: bytes, 64-bit words and the index types of the module (00_scope.md, R8, R15, R22). -/

namespace Sys2Proof

/-- One byte (R8: registers and images are little-endian strings of these). -/
abbrev Byte := BitVec 8

/-- One 64-bit register, instruction word or scalar register (R8, R179). -/
abbrev Word := BitVec 64

/-- A 32-bit word: FP32 values, turn-table entries, CHO_ID. -/
abbrev Half := BitVec 32

/-- A tile index Y × 112 + X (R22), as the 14-bit fields of the registers carry it. -/
abbrev TileIx := BitVec 14

/-- The number of router positions of the wafer, 112 × 112 (R22). -/
def positions : Nat := 12544

end Sys2Proof
end

