-- ==== Sys2Proof/Syntax.lean ====
section
/-! DEFINITION. The commands of the module: one constructor of `Instr` for each row of spec/opcode_table.json, in the table's order, with the operands each row needs. A command is an instruction a tile executes, an access on a path, a message, or an event of the hardware or of the world outside it. -/

namespace Sys2Proof

/-- The tile that executes an instruction, and whether the datapath check of this execution fails:
the mod-3 residue on a vector tile (R123), the lockstep compare on a scalar tile (R126). On a CIM tile
the flag has no meaning. -/
structure At where
  tile  : TileIx
  fault : Bool
  deriving DecidableEq, Repr

/-- The fields of MVM and TMVM (R192). -/
structure ProdOps where
  lslot     : BitVec 12
  arr       : BitVec 4
  nch       : BitVec 4
  gsel      : BitVec 3
  gain      : BitVec 3
  autoSplit : Bool
  ofmt      : BitVec 2
  inP       : BitVec 4
  outP      : BitVec 4
  deriving DecidableEq, Repr

/-- The fields of VEC (R195) beside FUNC. -/
structure VecOps where
  fmt   : BitVec 3
  dst   : BitVec 4
  srcA  : BitVec 4
  srcB  : BitVec 4
  srcC  : BitVec 4
  lslot : BitVec 12
  dfmt  : BitVec 3
  elems : BitVec 10
  deriving DecidableEq, Repr

/-- The fields of DOT (R196). -/
structure DotOps where
  ofmt  : BitVec 2
  wfmt  : BitVec 2
  clr   : Bool
  srcA  : BitVec 4
  srcB  : BitVec 4
  dst   : BitVec 4
  lslot : BitVec 12
  kc    : BitVec 11
  deriving DecidableEq, Repr

/-- The fields of SAMPLE (R197). -/
structure SampleOps where
  logP  : BitVec 4
  maskP : BitVec 4
  parP  : BitVec 4
  resP  : BitVec 4
  lfmt  : Bool
  mmode : BitVec 2
  v     : BitVec 18
  lslot : BitVec 12
  deriving DecidableEq, Repr

/-- The fields of SIDE.FETCH (R193). -/
structure FetchOps where
  arr   : BitVec 4
  listP : BitVec 4
  ca    : BitVec 7
  nblk  : BitVec 4
  queue : BitVec 16
  deriving DecidableEq, Repr

/-- The fields of SIDE.ENC (R193). -/
structure EncOps where
  srcP  : BitVec 4
  outP  : BitVec 4
  listP : BitVec 4
  sfmt  : Bool
  nblk  : BitVec 4
  ca    : BitVec 7
  ta    : BitVec 16
  lslot : BitVec 12
  deriving DecidableEq, Repr

/-- The fields of SIDE.WADD (R193). -/
structure WaddOps where
  yP    : BitVec 4
  wP    : BitVec 4
  inP   : BitVec 4
  actP  : BitVec 4
  cw    : BitVec 11
  ca    : BitVec 7
  nch   : BitVec 4
  lslot : BitVec 12
  deriving DecidableEq, Repr

/-- The fields of SIDE.AADD (R193). -/
structure AaddOps where
  yP    : BitVec 4
  actP  : BitVec 4
  wP    : BitVec 4
  ca    : BitVec 7
  nblk  : BitVec 4
  queue : BitVec 16
  lslot : BitVec 12
  deriving DecidableEq, Repr

/-- Kinds of converter of an array (R44). -/
inductive ConvKind where
  | column | row | mirror
  deriving DecidableEq, Repr

/-- A converter that a self-test finds out of limit (R69, R70). -/
structure Conv where
  kind   : ConvKind
  number : Nat
  deriving DecidableEq, Repr

/-- What faulty converters of an array deliver in one pass (R44, R53): the listed column converters (row converters in a
transpose pass), 0 to 63 and the spares 64 and 65, and the listed mirror converters deliver the listed code whatever the
charge; the range comparators of the listed columns (rows) report the listed clip bit. An empty record is a healthy array. -/
structure Stuck where
  convs   : List (Nat × Int)
  mirrors : List (Nat × Int)
  comps   : List (Nat × Bool)
  deriving DecidableEq, Repr

/-- What the hardware finds in one patrol of an array (R71): the converters out of limit and the faults of its passes. -/
structure PatrolRun where
  bad : List Conv
  st  : Stuck
  deriving DecidableEq, Repr

/-- A flit as one plane of the sync mesh delivers it (R29): 32 bits, and the parity bit of each of its 4 bytes. -/
structure SyncFlit where
  word : BitVec 32
  par  : BitVec 4
  deriving DecidableEq, Repr

/-- One sync flit as the receiver sees it on plane A and on plane B (R30). -/
structure SyncRx where
  a : SyncFlit
  b : SyncFlit
  deriving DecidableEq, Repr

/-- The path an access comes by (R328, R329). The firmware of the control clusters also reaches the
management space (17_register_index.md). -/
inductive Path where
  | host | sideband | firmware
  deriving DecidableEq, Repr

/-- A ring outside the field sync blocks (R127). -/
inductive RingId where
  | request  (q : BitVec 8)
  | response (q : BitVec 8)
  | load
  | loadResponse
  | rackMsg  (m : BitVec 4)
  deriving DecidableEq, Repr

/-- An asynchronous signal or entry for a choreography (R159). -/
inductive AsyncItem where
  | signal (flag : BitVec 18) (amount : BitVec 8)
  | entry  (queue : BitVec 16) (flit : List Byte)
  deriving DecidableEq, Repr

/-- The outcome of a stack read in the stack's own ECC (R210). -/
inductive Ecc where
  | clean | corrected | uncorrectable
  deriving DecidableEq, Repr

/-- Where a load job comes from: the load ring (R218) or the repertoire manifest (R238). -/
inductive JobSrc where
  | ring
  | manifest (index : Nat)
  deriving DecidableEq, Repr

/-- How the reads of a job's lists and image from host memory end (R317): with their data, or the first that does not. -/
inductive ListRead where
  | data | poison | ur | ca | timeout
  deriving DecidableEq, Repr

/-- What the load engines read for a job from host memory (R219, R221, R224, R228): the shard records, the placement
entries of each shard, the stage table and the choreography image, each as the words or bytes read, and how the reads
ended (R317). A list or image in HDM staging is read from the stacks in their place. -/
structure JobEnv where
  read       : ListRead
  shards     : List (List Word)
  placements : List (List Word)
  stages     : List (List Word)
  image      : List Byte
  deriving DecidableEq, Repr

/-- The end of a host read (R317). -/
inductive HostCpl where
  | poison | ur | ca | data
  deriving DecidableEq, Repr

/-- The data of a shard as it arrives at its engine (R222, R223, R225, R234): the bytes at SRC in host memory (a shard in
HDM staging is read from the stacks in their place), whether every byte passed parity on ingest, and, for a compressed
shard, the content of its frame, none when its blocks do not decode. -/
structure ShardData where
  parity : Bool
  bytes  : List Byte
  frame  : Option (List Byte)
  deriving DecidableEq, Repr

/-- Where an RDMA operation of a client goes: its virtual address and the R_Key it carries (R321). -/
structure RdmaAddr where
  va   : Nat
  rkey : Half
  deriving DecidableEq, Repr

/-- The header flit of a remote operation (R288). -/
structure Header where
  op      : BitVec 4
  dest    : BitVec 10
  src     : BitVec 10
  tenant  : BitVec 8
  window  : BitVec 12
  edge    : BitVec 2
  len     : BitVec 12
  offset  : BitVec 40
  tag     : BitVec 17
  srcTile : TileIx
  status  : BitVec 8
  value   : BitVec 8
  flag    : BitVec 12
  deriving DecidableEq, Repr

/-- The domain fields of BAR_ARRIVE, BAR_RELEASE and HOLD (R283). -/
structure BarMsg where
  src     : BitVec 10
  dest    : BitVec 10
  choId   : Half
  locDom  : BitVec 6
  mark    : BitVec 2
  attempt : BitVec 2
  step    : BitVec 16
  deriving DecidableEq, Repr

/-- The window fields of FREEZE, WIN_CLOSE and WIN_CLOSE_ACK (R283). -/
structure WinMsg where
  src     : BitVec 10
  dest    : BitVec 10
  tile    : TileIx
  tenant  : BitVec 8
  window  : BitVec 12
  edge    : BitVec 2
  reason  : BitVec 3
  closeId : Half
  deriving DecidableEq, Repr

/-- A control message of a frame (R283). -/
inductive CtrlMsg where
  | barArrive  (m : BarMsg)
  | barRelease (m : BarMsg)
  | hold       (m : BarMsg) (begins : Bool)
  | freeze     (m : WinMsg)
  | winClose   (m : WinMsg)
  | winCloseAck (m : WinMsg)
  | sync       (src dest : BitVec 10) (response : Bool) (t2 : Word)
  | syncRes    (src dest : BitVec 10) (residence : Half)
  | lane       (src dest : BitVec 10) (wavelength action : BitVec 4) (switchSeq : BitVec 12)
  | heartbeat  (src dest : BitVec 10) (term : Half) (role : BitVec 8)
  | join       (src dest : BitVec 10) (count : Half) (slot : BitVec 8)
  deriving DecidableEq, Repr

/-- A data slot of a frame (R276, R281): a flit of 128 bytes, and which of their parity bits are bad. -/
structure DataFlit where
  bytes : Vector Byte 128
  bad   : BitVec 128 := 0
  deriving DecidableEq, Repr

/-- A frame (R276 to R278): the link word, seven control messages, none for a TYPE of 0, 63 data slots and the trailer; and
how many codewords FEC corrected as it arrived (R280). -/
structure Frame where
  fecCorr : Nat
  valid   : BitVec 63
  credit  : BitVec 16
  lanes   : BitVec 9
  msgs    : Vector (Option CtrlMsg) 7
  slots   : Vector DataFlit 63
  seq     : BitVec 12
  ack     : BitVec 12
  nak     : Bool
  crc     : BitVec 32
  deriving DecidableEq, Repr

/-- What the keeper finds of the flash device after pulsing NVM_RST_N (R332): whether it answers, its size in MiB, and
whether its SFDP tables report 8D-8D-8D read, page program and sector erase. -/
structure FlashDev where
  answers   : Bool
  mib       : Nat
  read8d    : Bool
  program8d : Bool
  erase8d   : Bool
  deriving DecidableEq, Repr

/-- What the checks of an image answer (R332, R337, R338): the flash device, the two signatures verify, the firmware signature
verifies. -/
structure Verify where
  flash   : FlashDev
  edOk    : Bool
  mlOk    : Bool
  fwOk    : Bool
  deriving DecidableEq, Repr

/-- What the hardware finds while one order of the start sequence runs (R345, R346): the crypto
outcome, whether a re-read section differs (R339), the fields, stacks and pairs that fail self-test or
training, the domains that fail to ramp, whether the calibration check holds (R414), which fields'
delay reference fails it, which optical ports train, whether the rack accepts the module, and the ledger
slots whose record fails its MAC or its MAGIC (R382). -/
structure StartEnv where
  verify       : Verify
  changed      : Bool
  failFields   : List Nat
  failSupply   : List Nat
  failStacks   : List Nat
  pairsFail    : Bool
  refsOk       : Bool
  joined       : Bool
  badRecords   : List Nat := []
  deriving DecidableEq, Repr

/-- The commands, one constructor for each row of spec/opcode_table.json in its order. -/
inductive Instr where
  -- step program control (R181, R185 to R190)
  | nop (w : At)
  | bar (w : At) (jump : Bool) (next : BitVec 13)
  | loopBegin (w : At) (count : BitVec 16) (body : BitVec 13) (adv : BitVec 16)
  | loopPset (w : At) (pn : BitVec 4) (addr stride : BitVec 22)
  | loopPadd (w : At) (pn : BitVec 4) (inc : BitVec 22)
  | flagWait (w : At) (flag : BitVec 18) (value : BitVec 16)
  | flagSignal (w : At) (flag : BitVec 18) (value : BitVec 16)
  | flagSignalArrive (tile : TileIx) (flag : BitVec 18)
  | flagWaitAnswer (tile : TileIx) (flag : BitVec 18)
  | queueTake (w : At) (pn : BitVec 4) (n : BitVec 12) (queue : BitVec 16)
  | queuePeek (w : At) (pn : BitVec 4) (n : BitVec 12) (queue : BitVec 16)
  | queueRelease (w : At) (n : BitVec 12) (queue : BitVec 16)
  | moveSend (w : At) (pn : BitVec 4) (n : BitVec 12)
  | moveRecv (w : At) (pn : BitVec 4) (n : BitVec 12)
  | movePut (w : At) (pn : BitVec 4) (n : BitVec 12) (queue : BitVec 16)
  | moveSrd (w : At) (pn px : BitVec 4) (n : BitVec 12)
  | moveSwr (w : At) (pn px : BitVec 4) (n : BitVec 12)
  | moveRrd (w : At) (pn px : BitVec 4) (n : BitVec 12)
  | moveRwr (w : At) (pn px : BitVec 4) (n : BitVec 12)
  | moveRflag (w : At) (px : BitVec 4)
  -- products and the sidestep path (R192, R193)
  | mvm (w : At) (o : ProdOps)
  | tmvm (w : At) (o : ProdOps)
  | sideFetch (w : At) (o : FetchOps)
  | sideEnc (w : At) (o : EncOps)
  | sideWadd (w : At) (o : WaddOps)
  | sideAadd (w : At) (o : AaddOps)
  -- vector tile (R195 to R197)
  | vecCopy (w : At) (o : VecOps)
  | vecAdd (w : At) (o : VecOps)
  | vecSub (w : At) (o : VecOps)
  | vecMul (w : At) (o : VecOps)
  | vecFma (w : At) (o : VecOps)
  | vecMax (w : At) (o : VecOps)
  | vecMin (w : At) (o : VecOps)
  | vecAbs (w : At) (o : VecOps)
  | vecScale (w : At) (o : VecOps)
  | vecExp2 (w : At) (o : VecOps)
  | vecLog2 (w : At) (o : VecOps)
  | vecRcp (w : At) (o : VecOps)
  | vecRsqrt (w : At) (o : VecOps)
  | vecSumred (w : At) (o : VecOps)
  | vecMaxred (w : At) (o : VecOps)
  | vecSqsumred (w : At) (o : VecOps)
  | vecCvt (w : At) (o : VecOps)
  | vecEnc (w : At) (o : VecOps)
  | vecDec (w : At) (o : VecOps)
  | dot (w : At) (o : DotOps)
  | sample (w : At) (o : SampleOps)
  -- scalar pair (R198)
  | sclAdd (w : At) (dst src1 src2 : BitVec 5)
  | sclSub (w : At) (dst src1 src2 : BitVec 5)
  | sclAnd (w : At) (dst src1 src2 : BitVec 5)
  | sclOr (w : At) (dst src1 src2 : BitVec 5)
  | sclXor (w : At) (dst src1 src2 : BitVec 5)
  | sclSll (w : At) (dst src1 src2 : BitVec 5)
  | sclSrl (w : At) (dst src1 src2 : BitVec 5)
  | sclSra (w : At) (dst src1 src2 : BitVec 5)
  | sclSlt (w : At) (dst src1 src2 : BitVec 5)
  | sclSltu (w : At) (dst src1 src2 : BitVec 5)
  | sclMul (w : At) (dst src1 src2 : BitVec 5)
  | sclMulhu (w : At) (dst src1 src2 : BitVec 5)
  | sclDivu (w : At) (dst src1 src2 : BitVec 5)
  | sclRemu (w : At) (dst src1 src2 : BitVec 5)
  | sclAddi (w : At) (dst src1 : BitVec 5) (imm : Half)
  | sclAndi (w : At) (dst src1 : BitVec 5) (imm : Half)
  | sclOri (w : At) (dst src1 : BitVec 5) (imm : Half)
  | sclLi (w : At) (dst : BitVec 5) (imm : Half)
  | sclLih (w : At) (dst : BitVec 5) (imm : Half)
  | sclLd (w : At) (dst src1 : BitVec 5) (imm : Half)
  | sclLw (w : At) (dst src1 : BitVec 5) (imm : Half)
  | sclLb (w : At) (dst src1 : BitVec 5) (imm : Half)
  | sclSd (w : At) (src1 src2 : BitVec 5) (imm : Half)
  | sclSw (w : At) (src1 src2 : BitVec 5) (imm : Half)
  | sclSb (w : At) (src1 src2 : BitVec 5) (imm : Half)
  | sclBeq (w : At) (src1 src2 : BitVec 5) (imm : Half)
  | sclBne (w : At) (src1 src2 : BitVec 5) (imm : Half)
  | sclBlt (w : At) (src1 src2 : BitVec 5) (imm : Half)
  | sclBge (w : At) (src1 src2 : BitVec 5) (imm : Half)
  | sclBltu (w : At) (src1 src2 : BitVec 5) (imm : Half)
  | sclJmp (w : At) (imm : Half)
  | sclTop (w : At) (dst src1 src2 : BitVec 5)
  | sclFromp (w : At) (dst src1 : BitVec 5)
  -- arrays (02_compute_in_memory_arrays.md)
  | arrayPassComplete (tile : TileIx) (st : Stuck)
  | transposePassComplete (tile : TileIx) (st : Stuck)
  | converterSelfTest (tile : TileIx) (p : BitVec 5) (bad : List Conv)
  | arrayProgramDone (tile : TileIx) (p : BitVec 5) (ok : Bool)
  | arrayProgramRequest (inst : BitVec 10) (k : Nat) (ecc : Ecc := .clean)
  | arrayEraseDone (tile : TileIx) (p : BitVec 5)
  | patrol (tile : TileIx) (p : BitVec 5) (first again : PatrolRun)
  | refresh (tile : TileIx) (p : BitVec 5) (touched : Nat) (cellFailed : Bool)
  -- meshes (01_wafer_fields_and_mesh.md, R149)
  | dataFlitReceive (pos : TileIx) (input : BitVec 3) (badLanes : List Nat)
  | laneSwap (pos : TileIx) (input : BitVec 3)
  | syncFlitReceive (pos : TileIx) (input : BitVec 3) (rx : SyncRx)
  | routerOutputTurn (pos : TileIx) (output : BitVec 3)
  -- domains (05_choreography_contract.md)
  | barrierReleaseArrive (dom : BitVec 10) (pos : TileIx)
  | barrierDecide (dom : BitVec 10)
  | repairHoldEnd (dom : BitVec 10) (tile : TileIx) (pass : Bool)
  | asyncSignalArrive (a : AsyncItem)
  | stallTimeout (dom : BitVec 10)
  | domainFirstStep (choId : Half)
  | stageStepStart (inst : BitVec 10) (stage : BitVec 6)
  | domCtrlRestart (path : Path) (dom : BitVec 10)
  | domCtrlStop (path : Path) (dom : BitVec 10)
  | domCtrlUnload (path : Path) (dom : BitVec 10)
  -- rings (R129 to R136)
  | ringAppendWrite (path : Path) (addr : Nat) (data : List Byte)
  | ringHoldAccept (ring : RingId) (window : BitVec 3)
  | ringConsumeRead (path : Path) (ring : RingId) (offset len : Nat)
  | ringSafePoint (ring : RingId)
  -- stacks (R209, R210)
  | stackRequestAccept (stack : BitVec 5)
  | stackReadReturn (stack : BitVec 5) (ecc : Ecc)
  -- loading (07_memory_loading_and_promenade.md)
  | loadModel (src : JobSrc) (env : JobEnv)
  | replace (env : JobEnv)
  | repair (env : JobEnv)
  | abortProm
  | unload
  | purge
  | adapter (env : JobEnv)
  | grammar (env : JobEnv)
  | grammarJobWrite (g : BitVec 6) (inst : BitVec 10)
  | shardFetchComplete (inst : BitVec 10) (shard : Nat) (data : ShardData)
  | shardDeadlineExpire (inst : BitVec 10) (shard : Nat)
  | promenadeAdmissionStop (inst : BitVec 10)
  | stageProgrammed (inst : BitVec 10) (stage : BitVec 6)
  | unloadDrained (inst : BitVec 10)
  -- serving (08_serving_and_tuning.md)
  | new (q : BitVec 8)
  | cont (q : BitVec 8)
  | cancel (q : BitVec 8)
  | release (q : BitVec 8)
  | tune (q : BitVec 8)
  | admission (cluster : BitVec 3)
  | admitTimeout (seq : BitVec 16)
  | slotRecordsIssue (inst : BitVec 10)
  | resultRecordsRead (inst : BitVec 10)
  | responseWrite (seq : BitVec 16)
  | noticeWrite (slot : BitVec 12)
  | handleLapse (index : BitVec 20)
  -- tensor fabric (09_tensor_fabric_and_racks.md)
  | frameReceive (port : BitVec 7) (f : Frame)
  | portRetrainDone (port : BitVec 7) (ok : Bool)
  | portTrainingDone (port : BitVec 7) (peer : BitVec 10) (peerPort : BitVec 7)
  | wavelengthFault (port : BitVec 7) (wavelength : BitVec 4)
  | laneRestripe (port : BitVec 7)
  | spareWavelengthReady (port : BitVec 7)
  | barArrive (m : BarMsg)
  | barRelease (m : BarMsg)
  | hold (m : BarMsg) (begins : Bool)
  | freeze (m : WinMsg)
  | winClose (m : WinMsg)
  | winCloseAck (m : WinMsg)
  | winCloseAckSend (owner : BitVec 10) (edge : BitVec 2) (window : BitVec 12)
  | sync (port : BitVec 7) (src : BitVec 10) (response : Bool) (t2 : Word)
  | syncRes (port : BitVec 7) (residence : Half)
  | lane (port : BitVec 7) (wavelength action : BitVec 4) (switchSeq : BitVec 12)
  | heartbeat (src : BitVec 10) (term : Half) (role : BitVec 8)
  | join (src : BitVec 10) (count : Half) (slot : BitVec 8)
  | rwr (port : BitVec 7) (h : Header) (data : List (List Byte))
  | rrd (port : BitVec 7) (h : Header)
  | rflag (port : BitVec 7) (h : Header)
  | rdata (port : BitVec 7) (h : Header) (data : List (List Byte))
  | compl (port : BitVec 7) (h : Header)
  | msg (port : BitVec 7) (h : Header) (data : List (List Byte))
  | rcompTimeout (edge : BitVec 2) (entry : BitVec 15)
  | winCloseTimeout (edge : BitVec 2) (window : BitVec 12)
  | winCmdOpen (path : Path) (edge : BitVec 2) (window : BitVec 12)
  | winCmdClose (path : Path) (edge : BitVec 2) (window : BitVec 12)
  | heartbeatSend
  | managerLoss
  | standbyTakeover
  | syncExchange (port : BitVec 7)
  | holdoverEnter
  | rackEpochEdge (epoch : Option Word := none)
  | rackRefAbsent
  | rackRefRestored
  -- host port (R308 to R318)
  | perstNAssert
  | hostLinkDown
  | hostLinkTrained (width rate : BitVec 2) (l1 : Bool := false) (ide : BitVec 2 := 0)
  | cxlMemAccess (write : Bool) (offset : Nat) (data : List Byte) (poison : Bool := false) (ecc : Ecc := .clean)
  | hostReadCompletion (inst : BitVec 10) (shard : Nat) (c : HostCpl)
  | hostCplTimeout (inst : BitVec 10) (shard : Nat)
  | ideFailure (memStream : Bool)
  -- service ports (R319 to R324)
  | cmConnectRequest (port : BitVec 1) (profile : BitVec 8) (source : BitVec 128) (rqpn : BitVec 24)
  | rdmaWrite (port : BitVec 1) (qp : BitVec 12) (addr : RdmaAddr) (data : List Byte)
  | rdmaRead (port : BitVec 1) (qp : BitVec 12) (addr : RdmaAddr) (len : Nat)
  | send (port : BitVec 1) (qp : BitVec 12) (data : List Byte)
  | responseSend (port : BitVec 1) (qp : BitVec 12)
  | responseSendAck (port : BitVec 1) (qp : BitVec 12)
  | qpError (port : BitVec 1) (qp : BitVec 12)
  | svcLinkDown (port : BitVec 1)
  | qpCmdReset (path : Path) (port : BitVec 1) (qp : BitVec 12)
  -- sideband (R325 to R327)
  | regRead (addr : Nat)
  | regWrite (addr : Nat) (value : Word)
  | state
  | imageBegin (length : Nat)
  | imageData (offset : Nat) (data : List Byte)
  | imageEnd (v : Verify)
  | recoveryHost
  | entdaa (address : BitVec 7)
  | setdasa
  | setEndpointId (eid : Byte)
  | getVersion
  | getCapabilities
  | negotiateAlgorithms
  | getDigests
  | getCertificate (offset : BitVec 16 := 0) (length : BitVec 16 := 0xFFFF)
  | challenge (nonce : BitVec 256)
  | getMeasurements (index : BitVec 8)
  -- image sessions and trust (R342 to R358)
  | nvmBegin (path : Path) (length : BitVec 32)
  | nvmEnd (path : Path) (v : Verify)
  | nvmAbort (path : Path)
  | nvmWindowWrite (path : Path) (offset : Nat) (data : List Byte)
  | enterRecovery (path : Path)
  | arm
  | go (path : Path)
  | commit (path : Path) (gen : BitVec 16)
  | discard (path : Path)
  | stagedApply (addr : Nat)
  | tenantReset (path : Path) (tag : BitVec 8)
  | unfreeze (path : Path) (cls : BitVec 3) (id : BitVec 16)
  -- register accesses with effects of their own
  | registerWrite (path : Path) (addr : Nat) (data : List Byte)
  | numLflagClear (path : Path) (slot : BitVec 12) (bits : Word)
  | scratchApertureAccess (path : Path) (tile : TileIx) (write : Bool) (offset : Nat) (data : List Byte)
  | hkcDataRead (path : Path)
  | flogAckWrite (path : Path) (value : Half)
  | calSet (path : Path) (value : Word)
  | calendarBroadcast (received : Option Word)
  | loopCmdWrite (path : Path) (value : Word)
  | pwrCapWrite (path : Path) (value : Word)
  | traceClear (path : Path) (value : Word)
  | calStart (path : Path) (fields : BitVec 49)
  | calAbort (path : Path)
  | calPartDone (bad : List (TileIx × BitVec 5 × Conv))
  -- life ledger (R381)
  | ledgerSummaryFlush (flashOk : Bool)
  | ledgerJournalFlush (flashOk : Bool)
  | ledgerCheckpoint (flashOk : Bool)
  -- start-up (R345, R346)
  | modResetNRelease
  | startSequenceAdvance (env : StartEnv)
  | ready
  | domainRampDone (dom : BitVec 6) (ok : Bool)
  | strapDebugRelease
  -- housekeeping, thermal, power (12, 13, 14)
  | hkcConversion (chan : BitVec 9) (code : Int) (saturated : Bool)
  | coolantWarningClear (chan : BitVec 9)
  | throttleStep (dom : BitVec 6)
  | powerCapStep (watts : BitVec 16)
  | pumpDemandUpdate
  | flowMeasure (pulses : Nat)
  | flowStop
  | pwrGoodDeassert
  | mainInputLow
  | stopReqNAssert
  | modResetNAssert
  | keep12vLoss
  | holdupOkDeassert
  | stopStageEnd (inTime : Bool)
  | phaseFail (dom : BitVec 6) (phase : BitVec 4)
  | supplyFault (dom : BitVec 6)
  | keeperHeartbeatLoss
  | pairLockstepMismatch (cluster : BitVec 3) (pair : BitVec 2)
  -- beat mode (R424 to R428)
  | horizonAdvance
  | beatReport (tile : TileIx)
  -- rows added at the table's end
  | frameSend (port : BitVec 7)
  | temperatureBandCount
  | stackInterfaceLost (stack : BitVec 5)
  | ioAgentRead (addr len : Nat)
  | keep12vPresent
  | pwrGoodAssert
  | holdupOkAssert
  | perstNRelease
  | fieldSelfTestDone (field : BitVec 6) (pass : Bool)
  deriving DecidableEq, Repr

end Sys2Proof
end

