-- ==== Sys2Proof/WellFormed.lean ====
section
/-! DEFINITION. Which commands are well formed: the field ranges of the tile instructions (R180, R184 to R198) and the ranges of the numbers that the other commands name. -/

namespace Sys2Proof

/-! ### Tile instructions -/

/-- A flag or queue handle names one of the 49 fields (R184): `lo` is the lowest bit of its field number. -/
def handleOk (lo h : Nat) : Bool := decide (h / 2 ^ lo < 49)

/-- MVM and TMVM (R192). -/
def prodOk (o : ProdOps) : Bool := decide (o.arr.toNat + o.nch.toNat ≤ 15) && decide (o.gsel.toNat ≤ 4)

/-- SIDE.FETCH (R193). The chain of its blocks stays within the 16 logical arrays. -/
def fetchOk (o : FetchOps) : Bool :=
  decide (o.arr.toNat + o.nblk.toNat ≤ 15) && decide (o.ca.toNat ≤ 64) && handleOk 10 o.queue.toNat

/-- SIDE.ENC (R193): T_a from 1.0 to 31.0 in FP16. -/
def encOk (o : EncOps) : Bool :=
  decide (o.ca.toNat ≤ 64) && decide (0x3C00 ≤ o.ta.toNat) && decide (o.ta.toNat ≤ 0x4FC0)

/-- SIDE.WADD (R193). -/
def waddOk (o : WaddOps) : Bool := decide (o.cw.toNat ≤ 1024) && decide (o.ca.toNat ≤ 64)

/-- SIDE.AADD (R193). -/
def aaddOk (o : AaddOps) : Bool := decide (o.ca.toNat ≤ 64) && handleOk 10 o.queue.toNat

/-- The largest element count of a VEC format (R195); none is reserved. -/
def vecLimit (fmt : Nat) : Nat :=
  match fmt with
  | 0 => 128
  | 1 => 256
  | 2 => 512
  | 3 => 512
  | 4 => 256
  | _ => 0

/-- The element count of VEC (R195). -/
def vecCountOk (o : VecOps) : Bool :=
  let n := o.elems.toNat + 1
  let f := o.fmt.toNat
  let d := o.dfmt.toNat
  decide (n ≤ vecLimit f) && decide (n ≤ vecLimit d) &&
    (decide (f < 3) && decide (d < 3) || n % 32 == 0)

/-- VEC with one format in and out: `fmts` are the formats the function accepts. -/
def vecSameOk (fmts : List Nat) (o : VecOps) : Bool :=
  fmts.contains o.fmt.toNat && o.dfmt == o.fmt && vecCountOk o

/-- CVT, ENC and DEC. -/
def vecConvOk (src dst : List Nat) (o : VecOps) : Bool :=
  src.contains o.fmt.toNat && dst.contains o.dfmt.toNat && vecCountOk o

/-- DOT (R196). -/
def dotOk (o : DotOps) : Bool := decide (o.ofmt.toNat < 3) && (o.wfmt != 3 || o.ofmt == 0)

/-- SAMPLE (R197). -/
def sampleOk (o : SampleOps) : Bool := decide (o.mmode.toNat < 3)

/-! ### Every command -/

/-- Whether a path that the tables number from 0 names one that exists. -/
def belowOk (n limit : Nat) : Bool := decide (n < limit)

/-- A router input or output is one of five. -/
def portOk (i : BitVec 3) : Bool := decide (i.toNat < 5)

/-- A tile position exists. -/
def posOk (t : TileIx) : Bool := decide (t.toNat < positions)

/-- A physical array exists. -/
def arrOk (p : BitVec 5) : Bool := decide (p.toNat < 17)

/-- Whether a command is well formed: its numbers name what exists, and the fields of a tile instruction are in the
ranges that the load check admits. -/
def wellFormed : Instr → Bool
  | .nop w | .bar w _ _ => posOk w.tile
  | .loopBegin w _ body _ => posOk w.tile && decide (1 ≤ body.toNat) && decide (body.toNat ≤ 8190)
  | .loopPset w .. | .loopPadd w .. => posOk w.tile
  | .flagWait w h v => posOk w.tile && handleOk 12 h.toNat && decide (1 ≤ v.toNat)
  | .flagSignal w h v => posOk w.tile && handleOk 12 h.toNat && decide (1 ≤ v.toNat) && decide (v.toNat ≤ 255)
  | .flagSignalArrive t h | .flagWaitAnswer t h => posOk t && handleOk 12 h.toNat
  | .queueTake w _ _ q | .queuePeek w _ _ q | .queueRelease w _ q | .movePut w _ _ q => posOk w.tile && handleOk 10 q.toNat
  | .moveSend w .. | .moveRecv w .. | .moveSrd w .. | .moveSwr w .. | .moveRrd w .. | .moveRwr w .. | .moveRflag w _ =>
    posOk w.tile
  | .mvm w o | .tmvm w o => posOk w.tile && prodOk o
  | .sideFetch w o => posOk w.tile && fetchOk o
  | .sideEnc w o => posOk w.tile && encOk o
  | .sideWadd w o => posOk w.tile && waddOk o
  | .sideAadd w o => posOk w.tile && aaddOk o
  | .vecCopy w o => posOk w.tile && vecSameOk [0, 1, 2, 3, 4] o
  | .vecAdd w o | .vecSub w o | .vecMul w o | .vecFma w o | .vecMax w o | .vecMin w o | .vecAbs w o | .vecScale w o
  | .vecSumred w o | .vecMaxred w o | .vecSqsumred w o => posOk w.tile && vecSameOk [0, 1, 2] o
  | .vecExp2 w o | .vecLog2 w o | .vecRcp w o | .vecRsqrt w o => posOk w.tile && vecSameOk [0] o
  | .vecCvt w o => posOk w.tile && vecConvOk [0, 1, 2] [0, 1, 2] o
  | .vecEnc w o => posOk w.tile && vecConvOk [0, 1] [3, 4] o
  | .vecDec w o => posOk w.tile && vecConvOk [3, 4] [0, 1] o
  | .dot w o => posOk w.tile && dotOk o
  | .sample w o => posOk w.tile && sampleOk o
  | .sclAdd w .. | .sclSub w .. | .sclAnd w .. | .sclOr w .. | .sclXor w .. | .sclSll w .. | .sclSrl w .. | .sclSra w ..
  | .sclSlt w .. | .sclSltu w .. | .sclMul w .. | .sclMulhu w .. | .sclDivu w .. | .sclRemu w .. | .sclAddi w ..
  | .sclAndi w .. | .sclOri w .. | .sclLi w .. | .sclLih w .. | .sclLd w .. | .sclLw w .. | .sclLb w .. | .sclSd w ..
  | .sclSw w .. | .sclSb w .. | .sclBeq w .. | .sclBne w .. | .sclBlt w .. | .sclBge w .. | .sclBltu w .. | .sclJmp w _
  | .sclTop w .. | .sclFromp w .. => posOk w.tile
  | .arrayPassComplete t _ | .transposePassComplete t _ => posOk t
  | .converterSelfTest t p _ | .arrayProgramDone t p _ | .arrayEraseDone t p | .patrol t p _ _ | .refresh t p _ _ =>
    posOk t && arrOk p
  | .arrayProgramRequest .. => true
  | .dataFlitReceive t i _ | .laneSwap t i | .syncFlitReceive t i _ | .routerOutputTurn t i => posOk t && portOk i
  | .barrierReleaseArrive _ t | .repairHoldEnd _ t _ => posOk t
  | .barrierDecide _ | .asyncSignalArrive _ | .stallTimeout _ | .domainFirstStep _ | .stageStepStart .. => true
  | .domCtrlRestart .. | .domCtrlStop .. | .domCtrlUnload .. => true
  | .ringAppendWrite .. | .ringHoldAccept .. | .ringConsumeRead .. | .ringSafePoint _ => true
  | .stackRequestAccept k | .stackReadReturn k _ | .stackInterfaceLost k => belowOk k.toNat 28
  | .loadModel .. | .replace _ | .repair _ | .abortProm | .unload | .purge | .adapter _ | .grammar _ => true
  | .grammarJobWrite .. | .shardFetchComplete .. | .shardDeadlineExpire .. | .promenadeAdmissionStop _
  | .stageProgrammed .. | .unloadDrained _ => true
  | .new _ | .cont _ | .cancel _ | .release _ | .tune _ => true
  | .admission c => belowOk c.toNat 7
  | .admitTimeout _ | .slotRecordsIssue _ | .resultRecordsRead _ | .responseWrite _ | .noticeWrite _ | .handleLapse _ => true
  | .frameReceive p _ | .portRetrainDone p _ | .portTrainingDone p _ _ | .laneRestripe p | .spareWavelengthReady p
  | .frameSend p | .sync p _ _ _ | .syncRes p _ | .rwr p _ _ | .rrd p _ | .rflag p _ | .rdata p _ _ | .compl p _
  | .msg p _ _ | .syncExchange p => belowOk p.toNat 96
  | .wavelengthFault p n | .lane p n _ _ => belowOk p.toNat 96 && belowOk n.toNat 9
  | .barArrive _ | .barRelease _ | .hold .. | .freeze _ | .winClose _ | .winCloseAck _ | .winCloseAckSend .. => true
  | .heartbeat .. | .join .. => true
  | .rcompTimeout .. | .winCloseTimeout .. | .winCmdOpen .. | .winCmdClose .. => true
  | .heartbeatSend | .managerLoss | .standbyTakeover | .holdoverEnter | .rackEpochEdge _ | .rackRefAbsent
  | .rackRefRestored => true
  | .perstNAssert | .hostLinkDown | .hostLinkTrained .. | .cxlMemAccess .. | .hostReadCompletion .. | .hostCplTimeout ..
  | .ideFailure _ => true
  | .cmConnectRequest .. | .rdmaWrite .. | .rdmaRead .. | .send .. | .responseSend .. | .responseSendAck .. | .qpError ..
  | .svcLinkDown _ | .qpCmdReset .. => true
  | .regRead _ | .regWrite .. | .state | .imageBegin _ | .imageData .. | .imageEnd _ | .recoveryHost | .entdaa _ | .setdasa
  | .setEndpointId _ | .getVersion | .getCapabilities | .negotiateAlgorithms | .getDigests | .getCertificate .. | .challenge _
  | .getMeasurements _ => true
  | .nvmBegin .. | .nvmEnd .. | .nvmAbort _ | .nvmWindowWrite .. | .enterRecovery _ | .arm | .go _ | .commit ..
  | .discard _ | .stagedApply _ | .tenantReset .. | .unfreeze .. => true
  | .registerWrite .. | .numLflagClear .. => true
  | .scratchApertureAccess _ t _ _ _ => posOk t
  | .hkcDataRead _ | .flogAckWrite .. | .calSet .. | .calendarBroadcast _ | .loopCmdWrite .. | .pwrCapWrite ..
  | .traceClear .. | .calStart .. | .calAbort _ => true
  | .calPartDone bad => bad.all (fun b => posOk b.1 && arrOk b.2.1)
  | .ledgerSummaryFlush _ | .ledgerJournalFlush _ | .ledgerCheckpoint _ => true
  | .modResetNRelease | .startSequenceAdvance _ | .ready | .strapDebugRelease => true
  | .domainRampDone .. => true
  | .hkcConversion .. | .coolantWarningClear _ | .throttleStep _ | .powerCapStep _ | .pumpDemandUpdate | .flowMeasure _
  | .flowStop | .pwrGoodDeassert | .mainInputLow | .stopReqNAssert | .modResetNAssert | .keep12vLoss | .holdupOkDeassert
  | .stopStageEnd _ | .supplyFault _ | .keeperHeartbeatLoss => true
  | .phaseFail .. => true
  | .pairLockstepMismatch c _ => belowOk c.toNat 7
  | .horizonAdvance => true
  | .beatReport t => posOk t
  | .temperatureBandCount | .ioAgentRead .. | .keep12vPresent | .pwrGoodAssert | .holdupOkAssert | .perstNRelease => true
  | .fieldSelfTestDone f _ => belowOk f.toNat 49

end Sys2Proof
end

