-- ==== Sys2Proof/Decode.lean ====
section
/-! DEFINITION. The commands that the table's words spell, and the 64-bit instruction words of the step programs (R179 to R198): their decoder and encoder. -/

namespace Sys2Proof

/-- The command that a word of spec/opcode_table.json spells: no row of the table gives bits, so none. -/
def decodeTableWord (_nbits _w : Nat) : Option Instr := none

/-! ### The fields of an instruction word -/

/-- The `n`-bit field of a word whose lowest bit is `lo`. -/
def wordField (n lo x : Nat) : BitVec n := BitVec.ofNat n (x / 2 ^ lo)

/-- A one-bit field. -/
def wordBit (i x : Nat) : Bool := x / 2 ^ i % 2 == 1

/-- Whether the bits [hi:lo], which are reserved, are zero. -/
def wordZero (hi lo x : Nat) : Bool := x / 2 ^ lo % 2 ^ (hi + 1 - lo) == 0

/-- The bit of a flag. -/
def bitOf (b : Bool) : Nat := if b then 1 else 0

/-- The fields of MVM and TMVM. -/
def decodeProd (x : Nat) : ProdOps :=
  { lslot := wordField 12 44 x, arr := wordField 4 40 x, nch := wordField 4 36 x, gsel := wordField 3 33 x
    gain := wordField 3 30 x, autoSplit := wordBit 29 x, ofmt := wordField 2 27 x, inP := wordField 4 23 x
    outP := wordField 4 19 x }

/-- The word of MVM or TMVM below its opcode. -/
def encodeProd (o : ProdOps) : Nat :=
  o.lslot.toNat * 2 ^ 44 + o.arr.toNat * 2 ^ 40 + o.nch.toNat * 2 ^ 36 + o.gsel.toNat * 2 ^ 33 + o.gain.toNat * 2 ^ 30 +
    bitOf o.autoSplit * 2 ^ 29 + o.ofmt.toNat * 2 ^ 27 + o.inP.toNat * 2 ^ 23 + o.outP.toNat * 2 ^ 19

/-- The fields of VEC beside FUNC. -/
def decodeVec (x : Nat) : VecOps :=
  { fmt := wordField 3 47 x, dst := wordField 4 43 x, srcA := wordField 4 39 x, srcB := wordField 4 35 x
    srcC := wordField 4 31 x, lslot := wordField 12 19 x, dfmt := wordField 3 16 x, elems := wordField 10 6 x }

/-- The word of VEC below its opcode and FUNC. -/
def encodeVec (o : VecOps) : Nat :=
  o.fmt.toNat * 2 ^ 47 + o.dst.toNat * 2 ^ 43 + o.srcA.toNat * 2 ^ 39 + o.srcB.toNat * 2 ^ 35 + o.srcC.toNat * 2 ^ 31 +
    o.lslot.toNat * 2 ^ 19 + o.dfmt.toNat * 2 ^ 16 + o.elems.toNat * 2 ^ 6

/-- VEC by FUNC (R195). -/
def decodeVecFunc (w : At) (x : Nat) : Option Instr :=
  let o := decodeVec x
  match x / 2 ^ 50 % 64 with
  | 0x00 => some (.vecCopy w o)
  | 0x01 => some (.vecAdd w o)
  | 0x02 => some (.vecSub w o)
  | 0x03 => some (.vecMul w o)
  | 0x04 => some (.vecFma w o)
  | 0x05 => some (.vecMax w o)
  | 0x06 => some (.vecMin w o)
  | 0x07 => some (.vecAbs w o)
  | 0x08 => some (.vecScale w o)
  | 0x10 => some (.vecExp2 w o)
  | 0x11 => some (.vecLog2 w o)
  | 0x12 => some (.vecRcp w o)
  | 0x13 => some (.vecRsqrt w o)
  | 0x18 => some (.vecSumred w o)
  | 0x19 => some (.vecMaxred w o)
  | 0x1A => some (.vecSqsumred w o)
  | 0x20 => some (.vecCvt w o)
  | 0x21 => some (.vecEnc w o)
  | 0x22 => some (.vecDec w o)
  | _ => none

/-- The fields of SIDE.FETCH. -/
def decodeFetch (x : Nat) : FetchOps :=
  { arr := wordField 4 48 x, listP := wordField 4 44 x, ca := wordField 7 37 x, nblk := wordField 4 33 x
    queue := wordField 16 17 x }

/-- The word of SIDE.FETCH below its opcode and SUB. -/
def encodeFetch (o : FetchOps) : Nat :=
  o.arr.toNat * 2 ^ 48 + o.listP.toNat * 2 ^ 44 + o.ca.toNat * 2 ^ 37 + o.nblk.toNat * 2 ^ 33 + o.queue.toNat * 2 ^ 17

/-- The fields of SIDE.ENC. -/
def decodeEnc (x : Nat) : EncOps :=
  { srcP := wordField 4 48 x, outP := wordField 4 44 x, listP := wordField 4 40 x, sfmt := wordBit 39 x
    nblk := wordField 4 35 x, ca := wordField 7 28 x, ta := wordField 16 12 x, lslot := wordField 12 0 x }

/-- The word of SIDE.ENC below its opcode and SUB. -/
def encodeEnc (o : EncOps) : Nat :=
  o.srcP.toNat * 2 ^ 48 + o.outP.toNat * 2 ^ 44 + o.listP.toNat * 2 ^ 40 + bitOf o.sfmt * 2 ^ 39 + o.nblk.toNat * 2 ^ 35 +
    o.ca.toNat * 2 ^ 28 + o.ta.toNat * 2 ^ 12 + o.lslot.toNat

/-- The fields of SIDE.WADD. -/
def decodeWadd (x : Nat) : WaddOps :=
  { yP := wordField 4 48 x, wP := wordField 4 44 x, inP := wordField 4 40 x, actP := wordField 4 36 x
    cw := wordField 11 25 x, ca := wordField 7 18 x, nch := wordField 4 14 x, lslot := wordField 12 0 x }

/-- The word of SIDE.WADD below its opcode and SUB. -/
def encodeWadd (o : WaddOps) : Nat :=
  o.yP.toNat * 2 ^ 48 + o.wP.toNat * 2 ^ 44 + o.inP.toNat * 2 ^ 40 + o.actP.toNat * 2 ^ 36 + o.cw.toNat * 2 ^ 25 +
    o.ca.toNat * 2 ^ 18 + o.nch.toNat * 2 ^ 14 + o.lslot.toNat

/-- The fields of SIDE.AADD. -/
def decodeAadd (x : Nat) : AaddOps :=
  { yP := wordField 4 48 x, actP := wordField 4 44 x, wP := wordField 4 40 x, ca := wordField 7 33 x
    nblk := wordField 4 29 x, queue := wordField 16 13 x, lslot := wordField 12 0 x }

/-- The word of SIDE.AADD below its opcode and SUB. -/
def encodeAadd (o : AaddOps) : Nat :=
  o.yP.toNat * 2 ^ 48 + o.actP.toNat * 2 ^ 44 + o.wP.toNat * 2 ^ 40 + o.ca.toNat * 2 ^ 33 + o.nblk.toNat * 2 ^ 29 +
    o.queue.toNat * 2 ^ 13 + o.lslot.toNat

/-- SIDE by SUB (R193). -/
def decodeSide (w : At) (x : Nat) : Option Instr :=
  match x / 2 ^ 52 % 16 with
  | 0 => if wordZero 16 0 x then some (.sideFetch w (decodeFetch x)) else none
  | 1 => some (.sideEnc w (decodeEnc x))
  | 2 => if wordZero 13 12 x then some (.sideWadd w (decodeWadd x)) else none
  | 3 => if wordZero 12 12 x then some (.sideAadd w (decodeAadd x)) else none
  | _ => none

/-- The fields of DOT. -/
def decodeDot (x : Nat) : DotOps :=
  { ofmt := wordField 2 54 x, wfmt := wordField 2 52 x, clr := wordBit 51 x, srcA := wordField 4 47 x
    srcB := wordField 4 43 x, dst := wordField 4 39 x, lslot := wordField 12 27 x, kc := wordField 11 16 x }

/-- The word of DOT below its opcode. -/
def encodeDot (o : DotOps) : Nat :=
  o.ofmt.toNat * 2 ^ 54 + o.wfmt.toNat * 2 ^ 52 + bitOf o.clr * 2 ^ 51 + o.srcA.toNat * 2 ^ 47 + o.srcB.toNat * 2 ^ 43 +
    o.dst.toNat * 2 ^ 39 + o.lslot.toNat * 2 ^ 27 + o.kc.toNat * 2 ^ 16

/-- The fields of SAMPLE. -/
def decodeSampleOps (x : Nat) : SampleOps :=
  { logP := wordField 4 52 x, maskP := wordField 4 48 x, parP := wordField 4 44 x, resP := wordField 4 40 x
    lfmt := wordBit 39 x, mmode := wordField 2 37 x, v := wordField 18 17 x, lslot := wordField 12 5 x }

/-- The word of SAMPLE below its opcode. -/
def encodeSampleOps (o : SampleOps) : Nat :=
  o.logP.toNat * 2 ^ 52 + o.maskP.toNat * 2 ^ 48 + o.parP.toNat * 2 ^ 44 + o.resP.toNat * 2 ^ 40 + bitOf o.lfmt * 2 ^ 39 +
    o.mmode.toNat * 2 ^ 37 + o.v.toNat * 2 ^ 17 + o.lslot.toNat * 2 ^ 5

/-- LOOP by SUB (R186). -/
def decodeLoop (w : At) (x : Nat) : Option Instr :=
  match x / 2 ^ 52 % 16 with
  | 0 =>
    if wordZero 51 48 x && wordZero 2 0 x then some (.loopBegin w (wordField 16 32 x) (wordField 13 19 x) (wordField 16 3 x))
    else none
  | 1 => if wordZero 3 0 x then some (.loopPset w (wordField 4 48 x) (wordField 22 26 x) (wordField 22 4 x)) else none
  | 2 => if wordZero 25 0 x then some (.loopPadd w (wordField 4 48 x) (wordField 22 26 x)) else none
  | _ => none

/-- FLAG by SUB (R188). -/
def decodeFlag (w : At) (x : Nat) : Option Instr :=
  if !wordZero 17 0 x then none
  else
    match x / 2 ^ 52 % 16 with
    | 0 => some (.flagWait w (wordField 18 34 x) (wordField 16 18 x))
    | 1 => some (.flagSignal w (wordField 18 34 x) (wordField 16 18 x))
    | _ => none

/-- QUEUE by SUB (R189). RELEASE does not use PN. -/
def decodeQueue (w : At) (x : Nat) : Option Instr :=
  if !wordZero 19 0 x then none
  else
    match x / 2 ^ 52 % 16 with
    | 0 => some (.queueTake w (wordField 4 48 x) (wordField 12 36 x) (wordField 16 20 x))
    | 1 => some (.queuePeek w (wordField 4 48 x) (wordField 12 36 x) (wordField 16 20 x))
    | 2 => some (.queueRelease w (wordField 12 36 x) (wordField 16 20 x))
    | _ => none

/-- MOVE by SUB (R190). The QUEUE field is zero but in PUT; the pointer and count fields that a form does not use are
not read. -/
def decodeMove (w : At) (x : Nat) : Option Instr :=
  if !(wordZero 43 34 x && wordZero 21 16 x) then none
  else
    let pn : BitVec 4 := wordField 4 48 x
    let px : BitVec 4 := wordField 4 44 x
    let n : BitVec 12 := wordField 12 22 x
    let sub := x / 2 ^ 52 % 16
    if sub = 3 then some (.movePut w pn n (wordField 16 0 x))
    else if !wordZero 15 0 x then none
    else
      match sub with
      | 0 => some (.moveSend w pn n)
      | 2 => some (.moveRecv w pn n)
      | 4 => some (.moveSrd w pn px n)
      | 5 => some (.moveSwr w pn px n)
      | 6 => some (.moveRrd w pn px n)
      | 7 => some (.moveRwr w pn px n)
      | 8 => some (.moveRflag w px)
      | _ => none

/-- SCL by FUNC (R198). The register and immediate fields that a function does not use are not read. -/
def decodeScl (w : At) (x : Nat) : Option Instr :=
  if !wordZero 34 32 x then none
  else
    let d : BitVec 5 := wordField 5 45 x
    let a : BitVec 5 := wordField 5 40 x
    let b : BitVec 5 := wordField 5 35 x
    let i : Half := wordField 32 0 x
    match x / 2 ^ 50 % 64 with
    | 0x00 => some (.sclAdd w d a b)
    | 0x01 => some (.sclSub w d a b)
    | 0x02 => some (.sclAnd w d a b)
    | 0x03 => some (.sclOr w d a b)
    | 0x04 => some (.sclXor w d a b)
    | 0x05 => some (.sclSll w d a b)
    | 0x06 => some (.sclSrl w d a b)
    | 0x07 => some (.sclSra w d a b)
    | 0x08 => some (.sclSlt w d a b)
    | 0x09 => some (.sclSltu w d a b)
    | 0x0A => some (.sclMul w d a b)
    | 0x0B => some (.sclMulhu w d a b)
    | 0x0C => some (.sclDivu w d a b)
    | 0x0D => some (.sclRemu w d a b)
    | 0x10 => some (.sclAddi w d a i)
    | 0x11 => some (.sclAndi w d a i)
    | 0x12 => some (.sclOri w d a i)
    | 0x13 => some (.sclLi w d i)
    | 0x14 => some (.sclLih w d i)
    | 0x18 => some (.sclLd w d a i)
    | 0x19 => some (.sclLw w d a i)
    | 0x1A => some (.sclLb w d a i)
    | 0x1C => some (.sclSd w a b i)
    | 0x1D => some (.sclSw w a b i)
    | 0x1E => some (.sclSb w a b i)
    | 0x20 => some (.sclBeq w a b i)
    | 0x21 => some (.sclBne w a b i)
    | 0x22 => some (.sclBlt w a b i)
    | 0x23 => some (.sclBge w a b i)
    | 0x24 => some (.sclBltu w a b i)
    | 0x25 => some (.sclJmp w i)
    | 0x28 => some (.sclTop w d a b)
    | 0x29 => some (.sclFromp w d a)
    | _ => none

/-- The instruction that a word of a step program spells for a tile, if its opcode, sub-operation and reserved bits are
those of an instruction (R179, R181). -/
def parseTile (w : At) (x : Nat) : Option Instr :=
  match x / 2 ^ 56 % 256 with
  | 0x00 => if wordZero 55 0 x then some (.nop w) else none
  | 0x01 => if wordZero 41 0 x then some (.bar w (wordBit 55 x) (wordField 13 42 x)) else none
  | 0x02 => decodeLoop w x
  | 0x08 => decodeFlag w x
  | 0x0C => decodeQueue w x
  | 0x10 => decodeMove w x
  | 0x20 => if wordZero 18 0 x then some (.mvm w (decodeProd x)) else none
  | 0x21 => if wordZero 18 0 x then some (.tmvm w (decodeProd x)) else none
  | 0x28 => decodeSide w x
  | 0x30 => if wordZero 5 0 x then decodeVecFunc w x else none
  | 0x38 => if wordZero 15 0 x then some (.dot w (decodeDot x)) else none
  | 0x3C => if wordZero 36 35 x && wordZero 4 0 x then some (.sample w (decodeSampleOps x)) else none
  | 0x40 => decodeScl w x
  | _ => none

/-- The instruction that a word spells, with its fields in their ranges (R180). -/
def decodeTile (w : At) (x : Nat) : Option Instr :=
  match parseTile w x with
  | some i => if wellFormed i then some i else none
  | none => none

/-- The word of SCL. -/
def encodeScl (func : Nat) (d a b : BitVec 5) (i : Half) : Nat :=
  0x40 * 2 ^ 56 + func * 2 ^ 50 + d.toNat * 2 ^ 45 + a.toNat * 2 ^ 40 + b.toNat * 2 ^ 35 + i.toNat

/-- The word of MOVE. -/
def encodeMove (sub : Nat) (pn px : BitVec 4) (n : BitVec 12) (q : BitVec 16) : Nat :=
  0x10 * 2 ^ 56 + sub * 2 ^ 52 + pn.toNat * 2 ^ 48 + px.toNat * 2 ^ 44 + n.toNat * 2 ^ 22 + q.toNat

/-- The word of QUEUE. -/
def encodeQueue (sub : Nat) (pn : BitVec 4) (n : BitVec 12) (q : BitVec 16) : Nat :=
  0x0C * 2 ^ 56 + sub * 2 ^ 52 + pn.toNat * 2 ^ 48 + n.toNat * 2 ^ 36 + q.toNat * 2 ^ 20

/-- The word of VEC. -/
def encodeVecFunc (func : Nat) (o : VecOps) : Nat := 0x30 * 2 ^ 56 + func * 2 ^ 50 + encodeVec o

/-- The tile and the word of a tile instruction; none for the other commands. Fields that a form does not use are zero. -/
def encodeTile : Instr → Option (At × Nat)
  | .nop w => some (w, 0)
  | .bar w j n => some (w, 0x01 * 2 ^ 56 + bitOf j * 2 ^ 55 + n.toNat * 2 ^ 42)
  | .loopBegin w c b a => some (w, 0x02 * 2 ^ 56 + c.toNat * 2 ^ 32 + b.toNat * 2 ^ 19 + a.toNat * 2 ^ 3)
  | .loopPset w p a t => some (w, 0x02 * 2 ^ 56 + 1 * 2 ^ 52 + p.toNat * 2 ^ 48 + a.toNat * 2 ^ 26 + t.toNat * 2 ^ 4)
  | .loopPadd w p i => some (w, 0x02 * 2 ^ 56 + 2 * 2 ^ 52 + p.toNat * 2 ^ 48 + i.toNat * 2 ^ 26)
  | .flagWait w h v => some (w, 0x08 * 2 ^ 56 + h.toNat * 2 ^ 34 + v.toNat * 2 ^ 18)
  | .flagSignal w h v => some (w, 0x08 * 2 ^ 56 + 1 * 2 ^ 52 + h.toNat * 2 ^ 34 + v.toNat * 2 ^ 18)
  | .queueTake w p n q => some (w, encodeQueue 0 p n q)
  | .queuePeek w p n q => some (w, encodeQueue 1 p n q)
  | .queueRelease w n q => some (w, encodeQueue 2 0 n q)
  | .moveSend w p n => some (w, encodeMove 0 p 0 n 0)
  | .moveRecv w p n => some (w, encodeMove 2 p 0 n 0)
  | .movePut w p n q => some (w, encodeMove 3 p 0 n q)
  | .moveSrd w p x n => some (w, encodeMove 4 p x n 0)
  | .moveSwr w p x n => some (w, encodeMove 5 p x n 0)
  | .moveRrd w p x n => some (w, encodeMove 6 p x n 0)
  | .moveRwr w p x n => some (w, encodeMove 7 p x n 0)
  | .moveRflag w x => some (w, encodeMove 8 0 x 0 0)
  | .mvm w o => some (w, 0x20 * 2 ^ 56 + encodeProd o)
  | .tmvm w o => some (w, 0x21 * 2 ^ 56 + encodeProd o)
  | .sideFetch w o => some (w, 0x28 * 2 ^ 56 + encodeFetch o)
  | .sideEnc w o => some (w, 0x28 * 2 ^ 56 + 1 * 2 ^ 52 + encodeEnc o)
  | .sideWadd w o => some (w, 0x28 * 2 ^ 56 + 2 * 2 ^ 52 + encodeWadd o)
  | .sideAadd w o => some (w, 0x28 * 2 ^ 56 + 3 * 2 ^ 52 + encodeAadd o)
  | .vecCopy w o => some (w, encodeVecFunc 0x00 o)
  | .vecAdd w o => some (w, encodeVecFunc 0x01 o)
  | .vecSub w o => some (w, encodeVecFunc 0x02 o)
  | .vecMul w o => some (w, encodeVecFunc 0x03 o)
  | .vecFma w o => some (w, encodeVecFunc 0x04 o)
  | .vecMax w o => some (w, encodeVecFunc 0x05 o)
  | .vecMin w o => some (w, encodeVecFunc 0x06 o)
  | .vecAbs w o => some (w, encodeVecFunc 0x07 o)
  | .vecScale w o => some (w, encodeVecFunc 0x08 o)
  | .vecExp2 w o => some (w, encodeVecFunc 0x10 o)
  | .vecLog2 w o => some (w, encodeVecFunc 0x11 o)
  | .vecRcp w o => some (w, encodeVecFunc 0x12 o)
  | .vecRsqrt w o => some (w, encodeVecFunc 0x13 o)
  | .vecSumred w o => some (w, encodeVecFunc 0x18 o)
  | .vecMaxred w o => some (w, encodeVecFunc 0x19 o)
  | .vecSqsumred w o => some (w, encodeVecFunc 0x1A o)
  | .vecCvt w o => some (w, encodeVecFunc 0x20 o)
  | .vecEnc w o => some (w, encodeVecFunc 0x21 o)
  | .vecDec w o => some (w, encodeVecFunc 0x22 o)
  | .dot w o => some (w, 0x38 * 2 ^ 56 + encodeDot o)
  | .sample w o => some (w, 0x3C * 2 ^ 56 + encodeSampleOps o)
  | .sclAdd w d a b => some (w, encodeScl 0x00 d a b 0)
  | .sclSub w d a b => some (w, encodeScl 0x01 d a b 0)
  | .sclAnd w d a b => some (w, encodeScl 0x02 d a b 0)
  | .sclOr w d a b => some (w, encodeScl 0x03 d a b 0)
  | .sclXor w d a b => some (w, encodeScl 0x04 d a b 0)
  | .sclSll w d a b => some (w, encodeScl 0x05 d a b 0)
  | .sclSrl w d a b => some (w, encodeScl 0x06 d a b 0)
  | .sclSra w d a b => some (w, encodeScl 0x07 d a b 0)
  | .sclSlt w d a b => some (w, encodeScl 0x08 d a b 0)
  | .sclSltu w d a b => some (w, encodeScl 0x09 d a b 0)
  | .sclMul w d a b => some (w, encodeScl 0x0A d a b 0)
  | .sclMulhu w d a b => some (w, encodeScl 0x0B d a b 0)
  | .sclDivu w d a b => some (w, encodeScl 0x0C d a b 0)
  | .sclRemu w d a b => some (w, encodeScl 0x0D d a b 0)
  | .sclAddi w d a i => some (w, encodeScl 0x10 d a 0 i)
  | .sclAndi w d a i => some (w, encodeScl 0x11 d a 0 i)
  | .sclOri w d a i => some (w, encodeScl 0x12 d a 0 i)
  | .sclLi w d i => some (w, encodeScl 0x13 d 0 0 i)
  | .sclLih w d i => some (w, encodeScl 0x14 d 0 0 i)
  | .sclLd w d a i => some (w, encodeScl 0x18 d a 0 i)
  | .sclLw w d a i => some (w, encodeScl 0x19 d a 0 i)
  | .sclLb w d a i => some (w, encodeScl 0x1A d a 0 i)
  | .sclSd w a b i => some (w, encodeScl 0x1C 0 a b i)
  | .sclSw w a b i => some (w, encodeScl 0x1D 0 a b i)
  | .sclSb w a b i => some (w, encodeScl 0x1E 0 a b i)
  | .sclBeq w a b i => some (w, encodeScl 0x20 0 a b i)
  | .sclBne w a b i => some (w, encodeScl 0x21 0 a b i)
  | .sclBlt w a b i => some (w, encodeScl 0x22 0 a b i)
  | .sclBge w a b i => some (w, encodeScl 0x23 0 a b i)
  | .sclBltu w a b i => some (w, encodeScl 0x24 0 a b i)
  | .sclJmp w i => some (w, encodeScl 0x25 0 0 0 i)
  | .sclTop w d a b => some (w, encodeScl 0x28 d a b 0)
  | .sclFromp w d a => some (w, encodeScl 0x29 d a 0 0)
  | _ => none

end Sys2Proof
end

