-- ==== Sys2Proof/Config.lean ====
section
/-! DEFINITION. What an implementation fixes and the spec leaves open: free values with no body, so that no proof can rest on a value of them, and the choices of the model that are constants (notes/assumptions). -/

namespace Sys2Proof.Config

/-- Free value: the conversion error of a converter in a pass, by the value counter and the converter's
number. R53 and R67 bound it by 2 codes either way; Machine/Arrays.lean applies the bound. -/
opaque convError : Nat → Nat → Nat

/-- Free value: attention accumulator `k` after a DOT with a residue mismatch (R124), by the value counter. -/
opaque dotAcc : Nat → Nat → Half

/-- Free value: whether a conversion whose charge lies beyond 127 and below 129.5 LSB clips (R53, R55). -/
opaque clipBand : Nat → Nat → Bool

/-- Free value: the NaN that a SIMD operation returns where IEEE 754 leaves the payload open (R118). -/
opaque nanPayload : Nat → BitVec 32 → BitVec 32 → BitVec 32

/-- Free value: the digest of a byte string by the hash the spec names without giving it (R336, R338). -/
opaque digest : List Byte → BitVec 512

/-- Free value: KMAC256 with 256 bits of output, by key, customisation string and message, which the spec names without giving
it (R343, R374). -/
opaque kmac256 : BitVec 256 → String → List Byte → BitVec 256

/-- Free value: the Ed25519 signature of a byte string under the identity key of a seed (R343, R344). -/
opaque signedEd : BitVec 256 → List Byte → BitVec 512

/-- Free value: a byte, by offset, of the ML-DSA-65 signature of a byte string under the identity key of a seed (R343, R344). -/
opaque signedMl : BitVec 256 → List Byte → Nat → Byte

/-- Free value: a byte of the ML-DSA-65 device certificate window by offset (R357). -/
opaque certificate : Nat → Byte

/-- Free value: the Ed25519 certificate chain of SPDM slot 0 (R343). -/
opaque edChain : List Byte

/-- Free value: bytes in an erase sector of the flash, less one (R332, R348). -/
opaque eraseSector : Nat

/-- Free value: the digest of the keeper's own program, which the spec does not give (R344). -/
opaque keeperDigest : BitVec 512

/-- Free value: a fresh 64-bit value, by the value counter; used where the spec says a value results and
does not say which. -/
opaque fresh : Nat → Word

/-- Free value: the position of a FAULT entry whose fault has none of its own (R379, R380), by the count of FAULT entries. -/
opaque faultPos : Nat → BitVec 14

/-- Free value: the module domain number of a FAULT entry whose fault concerns no domain (R379, R380), by the count of FAULT
entries. -/
opaque faultDom : Nat → BitVec 10

/-- The bytes of a data slot that holds no flit (R276), by a counter and the byte's place. -/
opaque idleByte : Nat → Nat → Byte

/-- Which fibre lost the wavelength that a WAVELENGTH record of the journal names (R379), by the record's payload: true for the
transmit fibre. -/
opaque laneTx : Nat → Bool

/-- The payload bytes of the rack message in which a manager's firmware sends a calendar (R300, R373). -/
opaque calendarMsg : Word → Nat → Byte

/-- Free value: a byte of the stack's poison pattern (R210), by its address. -/
opaque poisonByte : Nat → Byte

/-- Free value: the base schedule that a configuration image holds (R37), as (output, its phases as (repeats, entries)); R334
gives it no section, and no rule says where the image has it (notes/assumptions/27.md). -/
opaque baseSchedule : List Byte → List (Nat × List (Nat × List (BitVec 32)))

/-- Free value: the row of a stack that an address lies in (R370). -/
opaque stackRow : Nat → Nat

/-- Free value: whether a stack has a repair resource left for a row, given the repairs in use (R370). -/
opaque stackSpare : Nat → Nat → Nat → Bool

/-- Free value: the ideality of a wafer diode in units of 2^−14, which factory calibration sets (R408, R412). -/
opaque diodeEta : Nat → Nat

/-- The grade of the module (R1): false IVP-7412-LC, true IVP-7412-LX, is a fuse (`Fuses.grade`); the
fabric's edge groups in the order of FAB.WIN and CTAB_USED (R307): N, E, S, W. -/
def edgeGroups : Nat := 4

end Sys2Proof.Config
end

