-- ==== Sys2Proof/Machine/State.lean ====
section
/-! DEFINITION. The state of the module as plain data: every register, memory, table, queue and pin the spec gives it, the queue of waiting commands, and the model's own counters. A field's default value is its value at reset. Sparse tables are association lists with strictly rising keys and no entry equal to what an unlisted key reads as (Machine/Ops.lean: `kvGet`, `kvPut`). -/

namespace Sys2Proof.Machine

/-- A sparse table by number. -/
abbrev KV (α : Type) := List (Nat × α)

/-- A memory: the listed bytes; what an unlisted address reads as is said beside each memory. -/
abbrev Memory := List Host.Cell

/-- Reasons the machine stops for good. The spec gives this module no such stop: every error it describes
is recorded, counted and contained, so no meaning raises a fault (safe: nothing rests on it). -/
inductive Fault where
  /-- Raised by no meaning; kept so that the type is inhabited (safe). -/
  | none
  deriving DecidableEq, Repr

/-- Reasons a command is turned away by the model. -/
inductive Refusal where
  /-- A command that has no meaning yet, by its mnemonic (safe: the model stops). -/
  | notModelled (mnemonic : String)
  deriving DecidableEq, Repr

/-! ### Flits, tiles and sequencers -/

/-- What a flit is part of, as the port logic tells them apart (R287, R455): `remote` data of a remote operation. -/
inductive FlitKind where
  | plain | remote
  /-- The header flit of a remote operation that a tile sends. -/
  | header
  deriving DecidableEq, Repr

/-- A 128-byte flit on the data mesh (R24): its bytes, the byte positions with bad parity, the mark bits,
the tile it came from and what it is part of. -/
structure Flit where
  bytes : List Byte
  bad   : List Nat := []
  marks : List Nat := []
  src   : Nat := 0
  kind  : FlitKind := .plain
  /-- The beat in which it was sent, in beat mode (R428). -/
  beat  : Nat := 0
  deriving DecidableEq, Repr

/-- A pointer register (R182). -/
structure Ptr where
  addr   : BitVec 22 := 0
  stride : BitVec 22 := 0
  deriving DecidableEq, Repr

/-- A level of the loop stack (R182, R187): iterations left after this one, first and last body index,
advance mask. -/
structure LoopLevel where
  remain : BitVec 16
  start  : Nat
  last   : Nat
  adv    : BitVec 16
  deriving DecidableEq, Repr

/-- The architectural state of a tile's sequencer, saved at commit and restored at replay (R116, R182,
R290). `loops` is innermost first. `acc` holds the attention accumulators by 64 × i + j. -/
structure Seq where
  idx       : BitVec 13 := 0
  ptrs      : Vector Ptr 16 := Vector.replicate 16 {}
  loops     : List LoopLevel := []
  gp        : Vector Word 32 := Vector.replicate 32 0
  acc       : KV Half := []
  remoteOut : Nat := 0
  deriving DecidableEq, Repr

/-- What a tile's sequencer waits for before it takes another instruction. -/
inductive Wait where
  | no
  /-- FLAG WAIT with the flag handle and the value (R456). -/
  | flag (handle : BitVec 18) (value : BitVec 16)
  /-- SEND, PUT and remote operations until the last flit is taken (R191). -/
  | sending
  /-- A product until its last pass is complete (R64). -/
  | product
  /-- RECV until its last flit is delivered: next scratch address and flits left (R190). -/
  | recv (addr left : Nat)
  /-- At the barrier, after BAR (R161, R185). -/
  | barrier
  deriving DecidableEq, Repr

/-- A read whose data returns in read-return turns (R191): the next scratch address and flits left. -/
structure ReadBuf where
  addr : Nat
  left : Nat
  deriving DecidableEq, Repr

/-- A product or transpose product in progress (R46, R64, R72): aligned codes, largest exponent, the 512
accumulators in half product units, and the groups still to run as (chain position, first row, size). -/
structure Product where
  ops       : ProdOps
  transpose : Bool
  eMax      : Nat
  codes     : List Int
  acc       : List Int
  groups    : List (Nat × Nat × Nat)
  deriving DecidableEq, Repr

/-- A tile: sequencer, saved sequencer, program and tenant, scratch tags, the attempt's error mark,
local mesh traffic and repair history. -/
structure Tile where
  /-- Loaded choreography that owns the tile, by its number in `State.chos` (R146). -/
  cho       : Option Nat := none
  dom       : Option (BitVec 10) := none
  tenant    : BitVec 8 := 0
  ninstr    : Nat := 0
  inq       : List (BitVec 16) := []
  seq       : Seq := {}
  saved     : Seq := {}
  wait      : Wait := .no
  /-- The attempt's error mark, which travels with the arrival (R164). -/
  mark      : Bool := false
  steps     : BitVec 32 := 0
  /-- Flits offered to the router's local input (R191). -/
  outbox    : List Flit := []
  /-- Outstanding SRD and RRD, oldest first (R191). -/
  reads     : List ReadBuf := []
  /-- The tile has been counted as waiting for a completion entry (R290). -/
  ctabWait  : Bool := false
  product   : Option Product := none
  /-- TILEW.APER_BASE.SEG (R142). -/
  aper      : BitVec 8 := 0
  segTags   : KV (BitVec 8) := []
  /-- Segments that wait to be cleared (R138). -/
  clearing  : List Nat := []
  repairPending : Bool := false
  /-- What asked for the repair, as TILE_RETIRE codes it: 1 parity, 2 residue, 3 lockstep (R379). -/
  repairCause : Nat := 0
  /-- Clock at each repair mark (R364: third within 24 h). -/
  repairTimes : List Nat := []
  /-- Clock of the last counted parity error of each segment (R115). -/
  segErr    : KV Nat := []
  residueAt : Option Nat := none
  lockAt    : Option Nat := none
  /-- An array retired with the spare array gone: the tile retires at the boundary (R69). -/
  exhausted : Bool := false
  deriving DecidableEq, Repr

/-! ### Arrays -/

/-- A physical array (R44, R83, R378). `state` is CIMW.ARRAY_STATE.STATE with a suspect array reading 0;
`suspect` counts the passes since the first mismatch (R69); `bound` says that a logical array is bound to it. `colSwaps` and
`rowSwaps` hold, for the spare converters 64 and 65 in use, the converter whose eight columns (rows) each serves (R44).
The weights are in `State.cells`, the column scales and sums in `State.scales` and `State.ksums`. -/
structure ArrayRec where
  state     : BitVec 3 := 0
  autoSplit : Bool := false
  gain      : BitVec 3 := 0
  colSwaps  : List Nat := []
  rowSwaps  : List Nat := []
  tol       : BitVec 8 := 48
  logical   : BitVec 4 := 0
  bound     : Bool := true
  tenant    : BitVec 8 := 0
  verify    : BitVec 32 := 0
  cycles    : BitVec 40 := 0
  inst      : BitVec 10 := 0
  gen       : BitVec 16 := 0
  lslot     : BitVec 12 := 0
  suspect   : Option Nat := none
  lastUse   : Nat := 0
  /-- A spare that has been programmed to take the place of this retired array at the next step boundary (R45). -/
  standIn   : Option Nat := none
  /-- The repertoire load has restored its shadow record and has it refreshed whatever its age (R82). -/
  recheck   : Bool := false
  deriving DecidableEq, Repr

/-- Why an array is being programmed or erased (R69, R75, R215, R237). -/
inductive ProgWhy where
  | load | spare (failed : Nat) | rollback | erase
  deriving DecidableEq, Repr

/-- A request to program an array from a shadow record into a target-buffer slot, or to erase it (R76). -/
structure ProgReq where
  tile   : Nat
  p      : Nat
  record : Nat
  inst   : BitVec 10
  why    : ProgWhy
  /-- The bytes of the record in their slot of the tile's target buffer, from the loop's start to its end (R215). -/
  slot   : List Byte := []
  deriving DecidableEq, Repr

/-! ### Mesh -/

/-- The link into one router input (R24 to R30, R143). `wire` holds flits sent and not yet received. -/
structure Link where
  buf     : List Flit := []
  wire    : List Flit := []
  tally   : KV (BitVec 16) := []
  errAt   : KV Nat := []
  /-- Data lanes replaced by spare lanes, in order (R28). -/
  swapped : List Nat := []
  /-- Lanes whose replacement waits for a step boundary (R28). -/
  swaps   : List Nat := []
  retired : Bool := false
  aFailed : Bool := false
  bFailed : Bool := false
  aErrAt  : Option Nat := none
  bErrAt  : Option Nat := none
  syncRetired : Bool := false
  deriving DecidableEq, Repr

/-- A phase of a turn table (R152, R199). -/
structure Phase where
  repeats : Nat
  entries : List (BitVec 32)
  deriving DecidableEq, Repr

/-- The turn table of a router output and where it stands (R149 to R152). `cho` is none while the base
schedule owns the output, whose table is in `Wafer.base`. `moved` counts the flits of the current entry. -/
structure Output where
  cho    : Option Nat := none
  dom    : BitVec 10 := 0
  table  : List Phase := []
  phase  : Nat := 0
  rep    : Nat := 0
  entry  : Nat := 0
  moved  : Nat := 0
  deriving DecidableEq, Repr

/-! ### The choreography image (R204, R205) -/

structure TileRec where
  tile   : Nat
  tenant : BitVec 8
  dom    : Nat
  inq    : List (BitVec 16)
  code   : List Word
  deriving DecidableEq, Repr

structure RouterRec where
  pos    : Nat
  output : Nat
  dom    : Nat
  table  : List Phase
  deriving DecidableEq, Repr

structure DomainRec where
  dom    : Nat
  spans  : Bool
  root   : Nat
  parts  : Nat
  x0 : Nat
  x1 : Nat
  y0 : Nat
  y1 : Nat
  deriving DecidableEq, Repr

structure FlagRec where
  handle : BitVec 18
  desc   : Word
  deriving DecidableEq, Repr

structure QueueRec where
  handle : BitVec 16
  desc0  : Word
  desc1  : Word
  deriving DecidableEq, Repr

structure ListRec where
  field : Nat
  first : Nat
  tiles : List Nat
  deriving DecidableEq, Repr

structure SlotRec where
  slot    : BitVec 12
  cluster : Nat
  lthr    : Word
  deriving DecidableEq, Repr

structure McastRec where
  src  : Nat
  rect : BitVec 32
  deriving DecidableEq, Repr

/-- Recipe, allocation, flow and scale-constant records, which only Loupe reads (R175). -/
structure RecipeRec where
  slot      : BitVec 12
  gain      : Nat
  gsel      : Nat
  autoSplit : Nat
  bound     : BitVec 16
  ta        : BitVec 16
  ca        : Nat
  cw        : Nat
  deriving DecidableEq, Repr

structure AllocRec where
  tile  : Nat
  start : Nat
  len   : Nat
  first : Nat
  last  : Nat
  deriving DecidableEq, Repr

structure FlowRec where
  src   : Nat
  dst   : Nat
  queue : BitVec 16
  flits : Nat
  deriving DecidableEq, Repr

structure ScaleRec where
  tile  : Nat
  slot  : BitVec 12
  off   : Nat
  value : BitVec 32
  bf16  : Bool
  deriving DecidableEq, Repr

/-- A parsed choreography image. -/
structure ChoImage where
  choId   : Half
  beat    : Bool
  tiles   : List TileRec := []
  routers : List RouterRec := []
  domains : List DomainRec := []
  flags   : List FlagRec := []
  queues  : List QueueRec := []
  lists   : List ListRec := []
  slots   : List SlotRec := []
  mcasts  : List McastRec := []
  recipes : List RecipeRec := []
  allocs  : List AllocRec := []
  flows   : List FlowRec := []
  scales  : List ScaleRec := []
  deriving DecidableEq, Repr

/-- A loaded choreography: its image, the module domain number of each local domain, the instance bound
to it, and whether its domains have been released to their first step (R147). -/
structure Cho where
  image    : ChoImage
  doms     : List (Nat × BitVec 10)
  inst     : Option (BitVec 10)
  released : Bool
  started  : Bool
  deriving DecidableEq, Repr

/-! ### Domains, flags and queues -/

/-- A numeric event of the current attempt, added to NUM at commit (R104): slot, kind 0 to 5, amount. -/
structure NumEvent where
  slot   : BitVec 12
  kind   : Nat
  amount : Nat
  beat   : Nat := 0
  deriving DecidableEq, Repr

/-- A replay domain (R160 to R167, R178). `arrived` lists the participants that have arrived, `await`
those the release has not reached. -/
structure Domain where
  state      : BitVec 4 := 0
  attempt    : BitVec 2 := 0
  loupe      : Bool := false
  retiredRef : Bool := false
  root       : TileIx := 0
  steps      : BitVec 32 := 0
  cho        : Nat := 0
  locDom     : Nat := 0
  spans      : Bool := false
  members    : List Nat := []
  routers    : List Nat := []
  rect       : Nat × Nat × Nat × Nat := (0, 0, 0, 0)
  arrived    : List Nat := []
  await      : List Nat := []
  /-- The release on its way restores (replay) instead of saving (commit). -/
  replaying  : Bool := false
  mark       : Bool := false
  violated   : Bool := false
  stopReq    : Bool := false
  /-- Tiles and arrays whose repair the domain holds for (R69, R364). -/
  repairTiles  : List Nat := []
  repairArrays : List (Nat × Nat) := []
  /-- Arrays whose converter self-test the boundary waits for (R69). -/
  tests      : List (Nat × Nat) := []
  /-- The step waits at its barrier for a serving or promenade condition (R229, R230, R253). -/
  waiting    : Bool := false
  /-- No step has begun since the last commit, or since the load (R159). -/
  between    : Bool := true
  /-- Held after a given step count by a promenade or an unload (R229, R237). -/
  holdAfter  : Option Nat := none
  events     : List NumEvent := []
  /-- A spanning domain that has sent BAR_ARRIVE and waits for BAR_RELEASE (R301). -/
  awaitRelease : Bool := false
  remoteHold : Bool := false
  /-- STALL_LIMIT in µs as the domain took it at its last barrier (R167, R171). -/
  limit      : Nat := 2000
  deriving DecidableEq, Repr

/-- A flag of a field's sync block (R155, R202). `start` is its step-start value (R162). -/
structure Flag where
  cho        : Option Nat := none
  dom        : BitVec 10 := 0
  count      : BitVec 16 := 0
  start      : BitVec 16 := 0
  waiter     : Nat := 0
  signallers : List Nat := []
  /-- The value a waiting request asks for (R456). -/
  request    : Option (BitVec 16) := none
  deriving DecidableEq, Repr

/-- A queue of a field's sync block (R157, R158, R203). Head and tail count flits modulo 2 × depth, so that
the index and the wrap bit of R203 are their remainder and quotient by depth. `pub` is the tail the
consumer sees and `free` the head the producers see; both differ from tail and head only when GATED. -/
structure Queue where
  cho        : Option Nat := none
  depth      : Nat := 1
  gated      : Bool := false
  consumer   : Nat := 0
  store      : Nat := 0
  producers  : List Nat := []
  prodDom    : BitVec 10 := 0
  consDom    : BitVec 10 := 0
  head       : Nat := 0
  tail       : Nat := 0
  pub        : Nat := 0
  free       : Nat := 0
  startHead  : Nat := 0
  startTail  : Nat := 0
  deriving DecidableEq, Repr

/-- A signal flit on its way to the sync block (R456). -/
structure Signal where
  tile   : Nat
  flag   : BitVec 18
  amount : BitVec 16
  beat   : Nat := 0
  deriving DecidableEq, Repr

/-! ### Rings, stacks, loading -/

/-- A ring outside the sync blocks (R128 to R136). Head and tail count entries modulo 2 × COUNT. `part` maps
an append window to the bytes written since its last completion; `host` lists the windows whose part
entry came by the host port; `waiting` lists windows whose completed entry waits for a slot (R132), `outbox`
entries of the module's own producers that wait for one, oldest first. -/
structure Ring where
  head    : Nat := 0
  tail    : Nat := 0
  part    : KV Memory := []
  host    : List Nat := []
  waiting : List Nat := []
  outbox  : List (List Byte) := []
  deriving DecidableEq, Repr

/-- Who asked a stack for data (R191, R209, R225). -/
inductive StackWho where
  | tile (t : Nat) | engine
  deriving DecidableEq, Repr

/-- A stack request of 1 to 4 flits (R209): a read, or a write with the flits that have arrived for it. -/
structure StackReq where
  who   : StackWho
  addr  : Nat
  flits : Nat
  data  : Option (List Flit)
  deriving DecidableEq, Repr

/-- A stack's requests in arrival order, the writes whose flits are still on the mesh, the requests that hold a
tag, and its row error times (R209, R370). -/
structure Stack where
  coming : List StackReq := []
  queue  : List StackReq := []
  /-- Requests of the direct port to the load engine, and the next of the five request slots (R208). -/
  direct : List StackReq := []
  turn   : Nat := 0
  busy   : List StackReq := []
  waited : Bool := false
  rowCorr   : List (Nat × Nat) := []
  rowUncorr : List (Nat × Nat) := []
  deriving DecidableEq, Repr

/-- A stage-table entry (R228). -/
structure Stage where
  lag   : Nat
  outQ  : BitVec 16
  qstep : Nat
  dom   : Nat
  deriving DecidableEq, Repr

/-- Where a job's array goes (R224) and which shadow record it has. -/
structure Placed where
  tile    : Nat
  larr    : Nat
  pos     : Nat
  sideOff : Nat
  k       : Nat
  shard   : Nat
  slot    : BitVec 12
  deriving DecidableEq, Repr

/-- A slot record of a token step (R254): its kind, the sequence and its admission stamp, the prompt tokens or training
targets it holds, and UPDATE. -/
structure IssueSlot where
  kind   : BitVec 2
  seq    : Nat
  order  : Nat
  n      : Nat
  update : Bool
  deriving DecidableEq, Repr

/-- A token step issued: the generation its records expect, and its slots. -/
structure Issue where
  gen   : BitVec 16 := 0
  slots : List IssueSlot := []
  deriving DecidableEq, Repr

/-- A model instance (R216, R228). `held` lists the stages held by a promenade, unload or rollback, `done`
those whose arrays are all programmed, `passed` those the front has passed. -/
structure Inst where
  state   : BitVec 4 := 0
  tenant  : BitVec 8 := 0
  gen     : BitVec 16 := 0
  front   : BitVec 6 := 0
  cho     : Option Nat := none
  stages  : List Stage := []
  placed  : List Placed := []
  shadow  : Nat := 0
  shadowN : Nat := 0
  done    : List Nat := []
  passed  : List Nat := []
  /-- Step N after which stage 0 is held (R229, R237). -/
  lastOld : Nat := 0
  /-- Token steps issued and not yet read, by number (R254). -/
  issued  : KV Issue := []
  issuedN : Nat := 0
  readN   : Nat := 0
  deriving DecidableEq, Repr

/-- Where a load job stands. -/
inductive JobPhase where
  | waiting | fetching | programming | draining | erasing | parked | rollback | grammarWait | writing
  deriving DecidableEq, Repr

/-- A load job of the job list (R218, R219). `tries` counts failed attempts of each shard. -/
structure Job where
  src      : JobSrc
  desc     : List Word
  env      : JobEnv
  phase    : JobPhase
  placed   : List Placed := []
  fetched  : List Nat := []
  tries    : KV Nat := []
  failed   : List Nat := []
  retries  : Nat := 0
  arrays   : Nat := 0
  /-- Placement entries still to be requested, and requested and not yet programmed; of the instance's own placement in a
  rollback. -/
  todo     : List Nat := []
  busy     : List Nat := []
  /-- Excess outlier weights by shard (R103, R225). -/
  ovf      : KV Nat := []
  /-- The data of a GRAMMAR job's shards, which its engine holds until it may write the object (R264). -/
  held     : KV (List Byte) := []
  started  : Nat := 0
  /-- Clock at which each shard's attempt started (R234). -/
  since    : KV Nat := []
  /-- A rollback that ABORT_PROM started (R236). -/
  aborted  : Bool := false
  deriving DecidableEq, Repr

/-! ### Serving -/

/-- A sequence record and the request behind it (R245 to R262, R267, R274). `state` is SRV.SEQ.STATE. -/
structure SeqRec where
  state     : BitVec 3 := 0
  tune      : Bool := false
  inst      : BitVec 10 := 0
  tenant    : BitVec 8 := 0
  respRing  : BitVec 8 := 0
  reqRing   : BitVec 8 := 0
  gen       : BitVec 16 := 0
  reqId     : Word := 0
  tokIdx    : Nat := 0
  adapter   : BitVec 12 := 0
  adapterEn : Bool := false
  gstate    : BitVec 20 := 0
  grammar   : BitVec 6 := 0
  grammarEn : Bool := false
  handle    : Option (BitVec 20) := none
  keep      : Bool := false
  maxTokens : BitVec 32 := 0
  temp      : BitVec 32 := 0
  topP      : BitVec 32 := 0
  topK      : BitVec 9 := 0
  seed      : Word := 0
  stop0     : BitVec 32 := 0
  stop1     : BitVec 32 := 0
  promptLen : Nat := 0
  prompt    : List (BitVec 18) := []
  complete  : Bool := false
  fed       : Nat := 0
  prefixTok : Nat := 0
  pages     : List Nat := []
  listPage  : Nat := 0
  generated : Nat := 0
  /-- A token step of the sequence is in flight (R254). -/
  inFlight  : Bool := false
  /-- Undelivered tokens, oldest first: token, generation, index, starts a new generation (R270). -/
  out       : List (BitVec 18 × BitVec 16 × Nat × Bool) := []
  /-- The old generation, while a promenade's CONTINUE has the first token of the new one to be marked (R231). -/
  genMark   : Option (BitVec 16) := none
  handleOut : Option (BitVec 32) := none
  /-- The end status that FINAL still has to carry (R262). -/
  ending    : Option (BitVec 8) := none
  cancel    : Bool := false
  since     : Nat := 0
  /-- Admission stamp. -/
  order     : Nat := 0
  /-- The handle that KEEP_PREFIX made, whose pages the sequence shares (R257). -/
  made      : Option (BitVec 20) := none
  /-- Tuning (R267, R268): data offset and that of the current training sequence, sequences, epochs, update period,
  export, and where it stands. -/
  data      : Nat := 0
  cur       : Nat := 0
  nseq      : Nat := 0
  epochs    : Nat := 0
  every     : Nat := 0
  expOff    : Nat := 0
  expLen    : Nat := 0
  epoch     : Nat := 0
  seqIdx    : Nat := 0
  updates   : Nat := 0
  loss      : BitVec 32 := 0
  targets   : Nat := 0
  progress  : List (Nat × BitVec 32) := []
  deriving DecidableEq, Repr

/-- A prefix handle (R257, R258, R274). -/
structure Handle where
  state  : BitVec 2 := 0
  check  : BitVec 12 := 0
  tenant : BitVec 8 := 0
  inst   : BitVec 10 := 0
  gen    : BitVec 16 := 0
  refs   : Nat := 0
  client : Bool := false
  tokens : Nat := 0
  pages  : List Nat := []
  used   : Nat := 0
  deriving DecidableEq, Repr

/-- SRV.ADAPTER(a) (R274). -/
structure AdapterRec where
  page    : BitVec 26 := 0
  present : Bool := false
  tuning  : Bool := false
  rank    : BitVec 7 := 0
  tenant  : BitVec 8 := 0
  users   : Nat := 0
  deriving DecidableEq, Repr

/-- SRV.GRAM(g) (R274). -/
structure GramRec where
  page    : BitVec 26 := 0
  present : Bool := false
  users   : Nat := 0
  tenant  : BitVec 8 := 0
  nstate  : Nat := 0
  deriving DecidableEq, Repr

/-! ### Fabric -/

/-- A tensor port (R275 to R284, R306). `sent` is the retry buffer, oldest first. -/
structure Port where
  state    : BitVec 3 := 0
  lanes    : BitVec 9 := 0
  spare    : Bool := false
  peer     : BitVec 10 := 0
  peerPort : BitVec 7 := 0
  rx       : List Flit := []
  freed    : BitVec 16 := 0
  /-- The peer's CREDIT as last received, and the data flits sent since training. -/
  credit   : BitVec 16 := 0
  used     : BitVec 16 := 0
  txSeq    : BitVec 12 := 0
  rxSeq    : BitVec 12 := 0
  nak      : Bool := false
  sent     : List Frame := []
  resend   : List Frame := []
  retried  : Nat := 0
  retrains : Nat := 0
  /-- The wavelengths taken out of the transmit and of the receive fibre (R282). -/
  badTx    : BitVec 9 := 0
  badRx    : BitVec 9 := 0
  /-- The wavelength whose fault is pending (R282). -/
  faultLane : Option (BitVec 4) := none
  /-- The spare has been trained behind the traffic (R282). -/
  spareReady : Bool := false
  switchSeq : BitVec 12 := 0
  class0   : List CtrlMsg := []
  class1   : List CtrlMsg := []
  class2   : List CtrlMsg := []
  /-- Messages at the front of the class-0 queue that TNP.CTRL_WAIT_CNT has counted. -/
  waited   : Nat := 0
  /-- Data flits waiting to leave by the port, and flits of the receive buffer that wait for turns of the mesh. -/
  tx       : List Flit := []
  mesh     : List Flit := []
  deriving DecidableEq, Repr

/-- An entry of a completion table (R290, R291). -/
structure Ctab where
  tile   : Nat
  op     : BitVec 4
  owner  : BitVec 10
  window : BitVec 12
  edge   : BitVec 2
  tenant : BitVec 8
  since  : Nat
  /-- The timeout in ms as it stood when its timer started (R351). -/
  limit  : Nat
  /-- Held for inspection after a timeout or a freeze (R291, R296). -/
  kept   : Bool
  /-- It stands in its tile's count of outstanding operations: a control pair's does not, nor one of an attempt that the tile
  has been restored from (R165, R290). -/
  live   : Bool := true
  deriving DecidableEq, Repr

/-- Control messages whose producer waits (R283): for a named port, or for the first port toward their destination that is up
(R299). -/
structure Held where
  port : Option Nat
  msgs : List CtrlMsg
  deriving DecidableEq, Repr

/-- A closing window at its owner (R294): the CLOSE_ID sent and when, and the timeout in ms as it stood then (R351). -/
structure Closing where
  closeId : Half
  since   : Nat
  limit   : Nat
  deriving DecidableEq, Repr

/-- A window the peer watches (R294). -/
structure Watch where
  owner   : BitVec 10
  edge    : BitVec 2
  window  : BitVec 12
  closeId : Half
  deriving DecidableEq, Repr

/-- An arrival the manager holds for a directory entry (R301). -/
structure Arrival where
  /-- The slot, or for a root entry the rack, and the module that sent the arrival. -/
  slot    : Nat
  src     : Nat
  mark    : BitVec 2
  attempt : BitVec 2
  step    : BitVec 16
  deriving DecidableEq, Repr

/-- Fabric time and management beside their registers (R302 to R305). -/
structure Fabric where
  /-- Ports, completion entries, closing windows, watches, manager arrivals. -/
  ports    : KV Port := []
  ctab     : KV Ctab := []
  closing  : KV Closing := []
  watches  : List Watch := []
  arrivals : KV (List Arrival) := []
  closeSeq : Half := 0
  syncT1   : Word := 0
  syncT2   : Word := 0
  syncT4   : Word := 0
  syncPort : Option Nat := none
  /-- Rate correction in units of 2^−32, two's complement. -/
  rate     : Int := 0
  /-- Fraction of a nanosecond that the rate correction has gathered, in the same units. -/
  frac     : Int := 0
  lastSync : Nat := 0
  lastBeat : Nat := 0
  /-- Control messages whose producer waits: no port is up toward the destination, or its queue is full (R283). -/
  stalled  : List Held := []
  /-- Modules whose JOIN has been taken and that a port still reaches, ascending (R285). -/
  joined   : List Nat := []
  /-- Directory entries whose domain the manager has released and not stopped (R301, R307), ascending. -/
  entryRuns : List Nat := []
  /-- This module has joined a rack (R285, R345 order 15). -/
  inRack   : Bool := false
  deriving DecidableEq, Repr

/-! ### Masters, keeper, thermal -/

/-- A frozen master (R353 to R355): class and ID as CFG.FRZ_CMD codes them, its tag, and whether a tenant
reset of its tag has completed since it froze. -/
structure Frozen where
  cls   : BitVec 3
  id    : BitVec 16
  tag   : BitVec 8
  reset : Bool
  deriving DecidableEq, Repr

/-- The one-time fuses (R341). The repair-map fuse (R19, R21) names the two spare fields, and the tile positions whose state,
0 committed or 1 spare, differs from the map of Machine/FieldMap.lean. DESIGN CHOICE (notes/assumptions/3.md): which map a
wafer's fuses hold at State.reset. -/
structure Fuses where
  spareFields : List Nat := [30, 11]
  tileMap : KV (BitVec 2) := []
  serial  : Word := 0
  grade   : Bool := false
  uds     : BitVec 256 := 0
  ownerEd : BitVec 512 := 0
  ownerMl : BitVec 512 := 0
  owned   : Bool := false
  svnMin  : Nat := 0
  deriving DecidableEq, Repr

/-- The levels at the module's pins (R434, R438) and the outputs that are not views. -/
structure Pins where
  keep12v   : Bool := false
  modResetN : Bool := false
  pwrGood   : Bool := false
  holdupOk  : Bool := false
  stopReqN  : Bool := true
  perstN    : Bool := false
  rackRef   : Bool := false
  role      : Bool := false
  slot      : BitVec 4 := 0
  debug     : Bool := false
  thermTrip : Bool := false
  deriving DecidableEq, Repr

/-- An orderly stop in progress (R401, R402): the deadline in force in ms and the clock of the event it counts from, the stage
running. -/
structure Stop where
  cause    : BitVec 4
  deadline : Nat
  since    : Nat
  stage    : Nat
  /-- The recovery state follows, with this cause (R339, R347). -/
  recovery : Option (BitVec 4)
  /-- MOD_RESET_N was asserted: the keeper is held in reset afterwards (R346). -/
  toReset  : Bool
  deriving DecidableEq, Repr

/-- The thermal manager and power control beside their registers (R386 to R400). -/
structure Thermal where
  /-- Channels that set the junction warning level (R389). -/
  warnSet     : List Nat := []
  /-- Consecutive bad frames of each diode (R409) and time since a channel is held STALE (R388). -/
  badFrames   : KV Nat := []
  staleSince  : KV Nat := []
  /-- Thermistor results as (clock, temperature), newest first (R391). -/
  history     : KV (List (Nat × Int)) := []
  /-- Coolant warnings set, with the clock since which the condition is false (R391). -/
  coolWarn    : KV (Option Nat) := []
  /-- Throttle setpoint of each field domain in mV (R392). -/
  throttleMv  : KV Nat := []
  throttled   : List Nat := []
  /-- Clock since which power is below 97 % of the cap, and of the last rise (R393). -/
  capBelow    : Option Nat := none
  capRise     : Nat := 0
  flowLowFor  : Nat := 0
  flowOkSince : Option Nat := none
  ramping     : List Nat := []
  rampQueue   : List Nat := []
  /-- Thermal cycles: fields (49 is the module) that have been below 40 °C since their last count (R372). -/
  cycleArmed  : KV Bool := []
  /-- Last code of each converter channel (R407). -/
  codes       : KV Int := []
  phasesBad   : KV Nat := []
  failAtStep  : List Nat := []
  deriving DecidableEq, Repr

/-- A journal entry (R379). -/
structure Entry where
  kind    : Nat
  time    : BitVec 32
  payload : Word
  deriving DecidableEq, Repr

/-- A ledger record in its flash slot (R374), as the keeper reads and writes it; its bytes and its MAC are `ledgerBytes`
(Machine/Ledger.lean). -/
structure Record where
  type : Nat
  seq  : Nat
  ckpt : Nat
  time : Word
  body : List Word
  deriving DecidableEq, Repr

/-- The ledger as the keeper holds it, and the records in the flash (R374 to R383). -/
structure Ledger where
  journal  : List Entry := []
  repairs  : List Entry := []
  flog     : KV Entry := []
  records  : KV Record := []
  nextSeq  : Nat := 0
  ckptAt   : Nat := 0
  flushAt  : Nat := 0
  viols    : Nat := 0
  faults   : Nat := 0
  /-- Calendar held still by a small backward set until real time reaches it (R373). -/
  calHold  : Nat := 0
  deriving DecidableEq, Repr

/-- What a beat has done to a flag, a queue pointer or a router output, kept so that a replay can take it back
(R428): an amount added to a flag, slots passed by a head or a tail, and the turn-table position of an output
(position × 5 + output) before a flit of the beat moved. -/
inductive BeatOp where
  | flag (h : Nat) (amount : Int)
  | head (h n : Nat)
  | tail (h n : Nat)
  | out (key phase rep entry moved : Nat)
  deriving DecidableEq, Repr

/-- Beat mode beside its registers (R424 to R428). Beats are numbered from 1. -/
structure Beat where
  cho       : Option Nat := none
  /-- The highest beat a tile may start, and the last beat committed. -/
  horizon   : Nat := 0
  committed : Nat := 0
  /-- Beats each tile has completed, and reports of each tile that have arrived at the root. -/
  done      : KV Nat := []
  reported  : KV Nat := []
  /-- Reports on their way: error mark, frame end; oldest first. -/
  reports   : KV (List (Bool × Bool)) := []
  /-- Tiles that wait to start their next beat; true after a frame end. -/
  hold      : KV Bool := []
  /-- Tiles that reported a frame end, by beat. -/
  ends      : KV (List Nat) := []
  /-- Sequencer of each tile at the start of each beat after the last committed one, oldest first. -/
  snaps     : KV (List Seq) := []
  log       : List (Nat × BeatOp) := []
  /-- The beat that last made a marked attempt, and how many it has made. -/
  markedAt  : Nat := 0
  attempt   : Nat := 0
  /-- H stood still at the last beat period (R427). -/
  stretching : Bool := false
  deriving DecidableEq, Repr

/-- Loupe's shadow tags (R175): scratch bytes written since load, bytes read in the current step before the step
wrote them, and bytes the step has written, as tile × 2^22 + offset. The tag of a queue slot is that of its bytes, the tag of a
flag the landed bytes that its next signals announce. DESIGN CHOICE (notes/assumptions/171.md). -/
structure Loupe where
  written : List Nat := []
  readNow : List Nat := []
  writtenNow : List Nat := []
  /-- Bytes landed from an asynchronous source that no signal or entry has announced yet, and those that an item announces
  which is not yet applied (R159, R175, check 3). -/
  landed  : List Nat := []
  announced : List (AsyncItem × List Nat) := []
  /-- Stack flits that a domain has read in its current step before it wrote them, and those it has written (R168, R169), as
  domain × 2^48 + address / 128. -/
  stackRead : List Nat := []
  stackWritten : List Nat := []
  deriving DecidableEq, Repr

/-- The sideband target (R325, R326). -/
structure Sideband where
  address : Option (BitVec 7) := none
  eid     : Byte := 0
  spdm    : Nat := 0
  /-- The transmission units, of up to 64 bytes, of the response that waits for the bus, which an in-band interrupt signals
  (R325, R326). -/
  packets : List (List Byte) := []
  deriving DecidableEq, Repr

/-- What the module last answered on a path: 0 success, 1 refused or error (R327), 2 data with CXL poison (R314), and the
data bytes; a vendor command's response carries its command byte (R327). -/
structure Resp where
  status : Nat := 0
  data   : List Byte := []
  cmd    : Byte := 0
  deriving DecidableEq, Repr

/-! ### The state -/

/-- The management registers (17_register_index.md): applied values by address where they differ from
Machine/Registers.lean's `regReset`, the counters of R13 among them; staged and committed values of ST
registers where they differ from the applied value (R349). -/
structure Regs where
  vals      : KV Word := []
  staged    : KV Word := []
  committed : KV Word := []
  deriving DecidableEq, Repr

/-- Tiles, scratch and meshes (chapters 01, 04 and 06). -/
structure Wafer where
  /-- Committed, spare or retired by tile index, where it differs from the factory map (R22, R41). -/
  map        : KV (BitVec 2) := []
  tiles      : KV Tile := []
  /-- Scratch by tile × 2^22 + offset; an unlisted byte reads zero. -/
  scratch    : Memory := []
  /-- Scratch bytes with bad parity, ascending (R114). -/
  scratchBad : List Nat := []
  links      : KV Link := []
  outputs    : KV Output := []
  /-- Turn tables of the base schedule by output (R37). The start fills them from the image (Machine/Startup.lean: `baseOf`);
  before that they are empty. DESIGN CHOICE (notes/assumptions/27.md): no rule says where the image holds the schedule. -/
  base       : KV (List Phase) := []
  signals    : List Signal := []
  deriving DecidableEq, Repr

/-- The compute-in-memory arrays (chapter 02). -/
structure Arrays where
  recs    : KV ArrayRec := []
  /-- Weight codes by ((tile × 17 + p) × 512 + row) × 512 + column, two's complement; erased is 0. -/
  cells   : KV (BitVec 4) := []
  scales  : KV (BitVec 16) := []
  ksums   : KV (BitVec 16) := []
  waiting : List ProgReq := []
  running : List ProgReq := []
  deriving DecidableEq, Repr

/-- Loaded choreographies, replay domains, flags, queues and the numerics monitor's own tables
(chapters 03 and 05). -/
structure Contract where
  chos    : KV Cho := []
  doms    : KV Domain := []
  flags   : KV Flag := []
  queues  : KV Queue := []
  held    : List AsyncItem := []
  /-- Base value of each NUM counter since its flag was cleared (R105), by slot × 8 + kind. -/
  numBase : KV Word := []
  /-- Cluster notified by each declared slot (R106), plus one; zero is not declared. -/
  numSlot : KV Nat := []
  notices : KV (BitVec 6) := []
  deriving DecidableEq, Repr

/-- Stacks, cluster SRAM and the rings outside the sync blocks (chapters 04 and 07). -/
structure Mem where
  /-- Stack memory by module stack address; an unlisted byte reads zero. -/
  stack     : Memory := []
  /-- Stack words (address div 32) that hold the poison pattern (R210), ascending. -/
  stackBad  : List Nat := []
  /-- Pages marked for zero-fill (R139), ascending. -/
  zeroFill  : List Nat := []
  /-- Page tags that differ from the region's (R249). -/
  pageTags  : KV (BitVec 8) := []
  stackUnits : KV Stack := []
  /-- Cluster SRAM by cluster × 2^25 + offset; an unlisted byte reads zero. -/
  sram      : Memory := []
  rings     : KV Ring := []
  deriving DecidableEq, Repr

/-- Weight loading (chapter 07). -/
structure Loading where
  jobs  : List Job := []
  insts : KV Inst := []
  /-- Descriptors of the repertoire manifest, and those whose jobs have not written their FINAL (R238, R346). -/
  manifest : List (List Word) := []
  left     : List Nat := []
  /-- CHO_IDs of the image's choreographies that were refused at preload, with the reason (R147, R346). -/
  refused  : KV Nat := []
  deriving DecidableEq, Repr

/-- Serving (chapter 08). -/
structure Serving where
  seqs     : KV SeqRec := []
  /-- Requests waiting for admission at each home cluster, in arrival order (R250). -/
  waits    : KV (List Nat) := []
  handles  : KV Handle := []
  adapters : KV AdapterRec := []
  grams    : KV GramRec := []
  /-- KV pages in use, ascending (R249). -/
  kvUsed   : List Nat := []
  /-- Admissions so far, for the admission order (R254). -/
  admitN   : Nat := 0
  /-- The first profile word of each connected queue pair as it stood at its connection (R331), by port × 4096 + index. -/
  conns    : KV Word := []
  /-- The R_Key that a port returned at each connection (R321), by port × 4096 + index. -/
  rkeys    : KV Half := []
  deriving DecidableEq, Repr

/-- Configuration, trust and the flash (chapter 11). -/
structure Trust where
  frozen  : List Frozen := []
  /-- Tags whose tenant reset still waits for domains to stop (R354). -/
  resets  : List (BitVec 8) := []
  /-- The image region of the flash; an unlisted byte reads as the erased value 0xFF. -/
  flash   : Memory := []
  report  : List Byte := []
  fuses   : Fuses := {}
  /-- LENGTH of the open image session, and the byte ranges written in it as (offset, bytes) (R348). -/
  length  : Nat := 0
  written : List (Nat × Nat) := []
  /-- SHA-512 of the FIRMWARE section as recorded when the image was last read whole (R338 step 3). -/
  fwDigest : BitVec 512 := 0
  deriving DecidableEq, Repr

/-- The keeper beside its registers (chapters 12 to 14 and 16). -/
structure Keeper where
  pins     : Pins := {}
  stop     : Option Stop := none
  thermal  : Thermal := {}
  ledger   : Ledger := {}
  /-- Control-pair mismatch times by 4 × cluster + pair (R368). -/
  pairErr  : KV Nat := []
  sideband : Sideband := {}
  /-- Order of the calibration run (R416), 0 when none runs, and the domains whose RESTART waits for its field (R418). -/
  calOrder : Nat := 0
  calWait  : List Nat := []
  /-- A trip has occurred, and no wafer domain has been powered since (R390). -/
  tripWait : Bool := false
  /-- The clock at which each periodic function last ran (R5), by the number of its timer (Machine/Journal.lean). -/
  lastAt   : KV Nat := []
  deriving DecidableEq, Repr

/-- Loupe and the trace buffer (R175, R452). -/
structure Debug where
  loupe : Loupe := {}
  trace : KV (List Word) := []
  deriving DecidableEq, Repr

/-- The state of the module. -/
structure State where
  /-- Commands waiting, first in, first out. -/
  pending : List Instr := []
  /-- The model's own counter of free values (Config.lean); no rule of the spec. -/
  freeCtr : Nat := 0
  /-- Time by the keeper crystal in µs (R5); it passes when no command waits. -/
  clock   : Nat := 0
  /-- The stall watchdogs: the µs that each domain has run since its last progress (R170). -/
  watch   : KV Nat := []
  /-- The host streams that an IDE integrity failure has stopped until they are re-keyed (R317): bit 0 CXL.io, bit 1 CXL.cache
  and CXL.mem. -/
  ideLost : BitVec 2 := 0
  resp    : Resp := {}
  reg     : Regs := {}
  wafer   : Wafer := {}
  arr     : Arrays := {}
  con     : Contract := {}
  mem     : Mem := {}
  load    : Loading := {}
  srv     : Serving := {}
  fab     : Fabric := {}
  trust   : Trust := {}
  keep    : Keeper := {}
  beat    : Beat := {}
  dbg     : Debug := {}
  deriving DecidableEq, Repr

/-- The module right after reset: every field at its default. -/
def State.reset : State := {}

end Sys2Proof.Machine
end

