-- ==== Sys2Proof/Machine/Ops.lean ====
section
/-! DEFINITION. The named operations over sparse tables, memories and registers that every meaning is written with. -/

namespace Sys2Proof.Machine

/-! ### Sparse tables -/

/-- The entry of a number, if it is listed. -/
def kvFind {α : Type} (k : Nat) : KV α → Option α
  | [] => none
  | (i, v) :: r => if i = k then some v else kvFind k r

/-- The entry of a number; `d` is what an unlisted number reads as. -/
def kvGet {α : Type} (d : α) (k : Nat) (m : KV α) : α := (kvFind k m).getD d

/-- List an entry, in rising order of the numbers. -/
def kvSet {α : Type} (k : Nat) (v : α) : KV α → KV α
  | [] => [(k, v)]
  | (i, w) :: r =>
    if k < i then (k, v) :: (i, w) :: r
    else if k = i then (k, v) :: r
    else (i, w) :: kvSet k v r

/-- Remove an entry. -/
def kvDel {α : Type} (k : Nat) (m : KV α) : KV α := m.filter (fun e => e.1 != k)

/-- Store a value: the canonical form lists no entry equal to the value `d` of an unlisted number. -/
def kvPut {α : Type} [DecidableEq α] (d : α) (k : Nat) (v : α) (m : KV α) : KV α :=
  if v = d then kvDel k m else kvSet k v m

/-- Change one entry. -/
def kvMod {α : Type} [DecidableEq α] (d : α) (k : Nat) (f : α → α) (m : KV α) : KV α :=
  kvPut d k (f (kvGet d k m)) m

/-- Change every listed entry, dropping what becomes `d`. -/
def kvMap {α : Type} [DecidableEq α] (d : α) (f : Nat → α → α) (m : KV α) : KV α :=
  (m.map (fun e => (e.1, f e.1 e.2))).filter (fun e => decide (e.2 ≠ d))

/-- Rising numbers. -/
def kvRising {α : Type} : KV α → Bool
  | [] => true
  | [_] => true
  | (i, _) :: (j, w) :: r => decide (i < j) && kvRising ((j, w) :: r)

/-- The canonical form of a sparse table: rising numbers, no entry equal to `d`. -/
def kvWf {α : Type} [DecidableEq α] (d : α) (m : KV α) : Bool :=
  kvRising m && m.all (fun e => decide (e.2 ≠ d))

/-- Add a number to an ascending list of numbers without repeats. -/
def natAdd (k : Nat) : List Nat → List Nat
  | [] => [k]
  | i :: r => if k < i then k :: i :: r else if k = i then i :: r else i :: natAdd k r

/-- Remove a number. -/
def natDel (k : Nat) (m : List Nat) : List Nat := m.filter (fun i => i != k)

/-! ### Memories -/

/-- A byte of a memory; `d` is what an unlisted byte reads as. -/
def memGet (d : Byte) (a : Nat) (m : Memory) : Byte := kvGet d a m

/-- Store one byte. -/
def memPut (d : Byte) (a : Nat) (b : Byte) (m : Memory) : Memory := kvPut d a b m

/-- `n` bytes from address `a`, lowest address first. -/
def memRead (d : Byte) (a : Nat) : Nat → Memory → List Byte
  | 0, _ => []
  | n + 1, m => memGet d a m :: memRead d (a + 1) n m

/-- Store bytes from address `a` upward. -/
def memWrite (d : Byte) (a : Nat) : List Byte → Memory → Memory
  | [], m => m
  | b :: r, m => memWrite d (a + 1) r (memPut d a b m)

/-- Make `n` bytes from `a` read as an unlisted byte does. -/
def memClear (a n : Nat) (m : Memory) : Memory := m.filter (fun c => !(decide (a ≤ c.1) && decide (c.1 < a + n)))

/-- The canonical form of a memory (Memory.wf of the model): rising addresses, no entry equal to `d`. -/
def Memory.wf (d : Byte) (m : Memory) : Bool := kvWf d m

/-! ### Bytes and fields -/

/-- The number a little-endian byte string holds (R8). -/
def leNat : List Byte → Nat
  | [] => 0
  | b :: r => b.toNat + 256 * leNat r

/-- The `n` little-endian bytes of a number. -/
def natLe : Nat → Nat → List Byte
  | 0, _ => []
  | n + 1, v => BitVec.ofNat 8 v :: natLe n (v / 256)

/-- The bits [hi:lo] of a number. -/
def bits (v hi lo : Nat) : Nat := v / 2 ^ lo % 2 ^ (hi + 1 - lo)

/-- The bit of a number. -/
def bit (v i : Nat) : Bool := v.testBit i

/-- The field [hi:lo] of a word. -/
def fld (w : Word) (hi lo : Nat) : Nat := bits w.toNat hi lo

/-- The word with its field [hi:lo] set to a number. -/
def setFld (w : Word) (hi lo v : Nat) : Word :=
  BitVec.ofNat 64 (w.toNat - bits w.toNat hi lo * 2 ^ lo + v % 2 ^ (hi + 1 - lo) * 2 ^ lo)

/-- A Bool as a bit. -/
def b2n (b : Bool) : Nat := if b then 1 else 0

/-- A word of fields, each given as (lowest bit, value). -/
def pack : List (Nat × Nat) → Nat
  | [] => 0
  | (lo, v) :: r => v * 2 ^ lo + pack r

/-- Two's complement value of an n-bit field. -/
def sext (n v : Nat) : Int := if v < 2 ^ (n - 1) then (v : Int) else (v : Int) - 2 ^ n

/-- The little-endian 64-bit words of a byte string. -/
def wordsOf : List Byte → List Word
  | b0 :: b1 :: b2 :: b3 :: b4 :: b5 :: b6 :: b7 :: r =>
    BitVec.ofNat 64 (leNat [b0, b1, b2, b3, b4, b5, b6, b7]) :: wordsOf r
  | [] => []
  | rest => [BitVec.ofNat 64 (leNat rest)]

/-- The bytes of words, little-endian. -/
def bytesOf : List Word → List Byte
  | [] => []
  | w :: r => natLe 8 w.toNat ++ bytesOf r

/-- Word `i` of a record. -/
def wordAt (ws : List Word) (i : Nat) : Word := ws.getD i 0

/-- The field [hi:lo] of word `i` of a record. -/
def recFld (ws : List Word) (i hi lo : Nat) : Nat := fld (wordAt ws i) hi lo

/-! ### Free values -/

/-- Take one step of the value counter: every free value of a step is applied to the counter before. -/
def State.tickFree (s : State) : State := { s with freeCtr := s.freeCtr + 1 }

end Sys2Proof.Machine
end

