-- ==== Sys2Proof/Machine/FieldMap.lean ====
section
/-! DEFINITION. The geometry of the wafer (01_wafer_fields_and_mesh.md): positions, fields, tile kinds, attachments, power domains, and the factory map. -/

namespace Sys2Proof.Machine

/-! ### Positions (R17, R22) -/

/-- Mesh column of a tile index. -/
def posX (t : Nat) : Nat := t % 112
/-- Mesh row of a tile index. -/
def posY (t : Nat) : Nat := t / 112
/-- Tile index of mesh coordinates. -/
def posOf (x y : Nat) : Nat := y * 112 + x
/-- Field number 7·fy + fx of a tile index. -/
def fieldOf (t : Nat) : Nat := 7 * (posY t / 16) + posX t / 16
/-- Column within the field. -/
def posTx (t : Nat) : Nat := posX t % 16
/-- Row within the field. -/
def posTy (t : Nat) : Nat := posY t % 16
/-- Field column of a field number. -/
def fieldX (f : Nat) : Nat := f % 7
/-- Field row of a field number. -/
def fieldY (f : Nat) : Nat := f / 7
/-- Whether a field is a memory field (R18). -/
def fieldIsMem (f : Nat) : Bool := fieldY f == 3
/-- Position (tx, ty) of a field. -/
def posIn (f tx ty : Nat) : Nat := posOf (16 * fieldX f + tx) (16 * fieldY f + ty)

/-- The kind of tile at a position (R20, R21): 0 CIM, 1 vector, 2 scalar, 3 none (memory field). -/
def tileKind (t : Nat) : Nat :=
  if fieldIsMem (fieldOf t) then 3
  else if posTx t = 15 then 2
  else if posTx t % 5 = 4 then 1
  else 0

/-- The vector tile of the array group of a CIM tile (R20). -/
def groupVector (t : Nat) : Nat := t - posTx t + (posTx t / 5 * 5 + 4)

/-- Segments of 16 KiB in the scratch of a tile kind (R112, R141). -/
def kindSegments (k : Nat) : Nat :=
  match k with
  | 0 => 64
  | 1 => 256
  | 2 => 32
  | _ => 0

/-- Scratch bytes of a tile kind (R112). -/
def kindScratch (k : Nat) : Nat := kindSegments k * 16384

/-! ### Fields and the factory map (R19, R21, R38) -/

/-- The 13 attachment compute fields, by field number. -/
def attachFields : List Nat := [1, 3, 5, 43, 45, 47, 7, 35, 13, 41, 0, 6, 48]

/-- The two spare fields of the factory map: (2, 4) and (4, 1). DESIGN CHOICE (notes/assumptions/3.md). -/
def factorySpareFields : List Nat := [30, 11]

/-- REP.FIELD_STATE.STATE of a field in the factory map (R41). -/
def factoryFieldState (f : Nat) : Nat :=
  if fieldIsMem f then 4 else if factorySpareFields.contains f then 1 else 0

/-- Whether the factory map makes a tile spare: tile row ty = 8 and the vector tile (4, 9) of every compute
field, which is 12 CIM, 4 vector and 1 scalar tiles (R21). DESIGN CHOICE (notes/assumptions/3.md). -/
def factoryTileSpare (t : Nat) : Bool :=
  tileKind t != 3 && (posTy t == 8 || (posTy t == 9 && posTx t == 4))

/-- The factory map's state of a tile position: 0 committed, 1 spare. -/
def factoryTile (t : Nat) : BitVec 2 := if factoryTileSpare t then 1 else 0

/-! ### Attachments (R36) -/

/-- The stack attached at the local port of a position, if any. -/
def stackAt (t : Nat) : Option Nat :=
  if fieldIsMem (fieldOf t) then
    match posTy t with
    | 2 => some (4 * fieldX (fieldOf t))
    | 5 => some (4 * fieldX (fieldOf t) + 1)
    | 10 => some (4 * fieldX (fieldOf t) + 2)
    | 13 => some (4 * fieldX (fieldOf t) + 3)
    | _ => none
  else none

/-- The load engine attached at a position, if any. -/
def engineAt (t : Nat) : Option Nat :=
  if fieldIsMem (fieldOf t) && (posTy t == 7 || posTy t == 8) && decide (posTx t < 8)
  then some (fieldX (fieldOf t)) else none

/-- The control cluster attached at a position, if any. -/
def clusterAt (t : Nat) : Option Nat :=
  if fieldIsMem (fieldOf t) && (posTy t == 7 || posTy t == 8) && decide (8 ≤ posTx t)
  then some (fieldX (fieldOf t)) else none

/-- The tensor port whose optical engine sits at the outward port of a position in a direction
(0 north, 1 east, 2 south, 3 west), if any. -/
def tensorPortAt (t dir : Nat) : Option Nat :=
  let f := fieldOf t
  match dir with
  | 0 => if posY t = 0 ∧ fieldX f % 2 = 1 then some (8 * (fieldX f / 2) + posTx t / 2) else none
  | 1 => if posX t = 111 ∧ fieldY f % 2 = 1 then some (24 + 8 * (fieldY f / 2) + posTy t / 2) else none
  | 2 => if posY t = 111 ∧ fieldX f % 2 = 1 then some (48 + 8 * (fieldX f / 2) + posTx t / 2) else none
  | 3 => if posX t = 0 ∧ fieldY f % 2 = 1 then some (72 + 8 * (fieldY f / 2) + posTy t / 2) else none
  | _ => none

/-- Whether an outward port is a service or host port attachment. -/
def otherPortAt (t dir : Nat) : Bool :=
  (dir == 3 && (t == posOf 0 0 || t == posOf 0 1)) ||
  (dir == 1 && (t == posOf 111 110 || t == posOf 111 111)) ||
  (dir == 1 && posX t == 111 && decide (posY t < 4))

/-- The neighbour position of a direction (0 north, 1 east, 2 south, 3 west), if it is on the mesh. -/
def neighbour (t dir : Nat) : Option Nat :=
  match dir with
  | 0 => if posY t = 0 then none else some (t - 112)
  | 1 => if posX t = 111 then none else some (t + 1)
  | 2 => if posY t = 111 then none else some (t + 112)
  | 3 => if posX t = 0 then none else some (t - 1)
  | _ => none

/-- The direction seen from the other end of a link. -/
def opposite (dir : Nat) : Nat := (dir + 2) % 4

/-- The first of the two positions of a tensor port, and the direction of its outward port (R36). -/
def tensorPortPos (p : Nat) : Nat × Nat :=
  let j := p % 24 / 8
  let k := p % 8
  match p / 24 with
  | 0 => (posOf (16 * (2 * j + 1) + 2 * k) 0, 0)
  | 1 => (posOf 111 (16 * (2 * j + 1) + 2 * k), 1)
  | 2 => (posOf (16 * (2 * j + 1) + 2 * k) 111, 2)
  | _ => (posOf 0 (16 * (2 * j + 1) + 2 * k), 3)

/-- The field whose sync block holds a flag or a queue (R156, R202, R203). -/
def flagField (h : Nat) : Nat := h / 4096
def queueField (h : Nat) : Nat := h / 1024

/-! ### Power domains (R39, R40) -/

/-- The power domain of a field. -/
def fieldDomain (f : Nat) : Nat :=
  if fieldY f = 3 then 43 + fieldX f
  else if fieldY f < 3 then 1 + f
  else 1 + 7 * (fieldY f - 1) + fieldX f

/-- The field of a power domain 1 to 49. -/
def domainField (d : Nat) : Nat :=
  if d < 22 then d - 1
  else if d < 43 then d - 1 + 7
  else 21 + (d - 43)

/-- The domains a domain requires (R40). -/
def domainNeeds (d : Nat) : List Nat :=
  if d = 0 then []
  else if 50 ≤ d ∧ d ≤ 56 then [0, d - 7]
  else match d with
    | 57 => [0, 2, 4, 6]
    | 58 => [0, 14, 49, 35]
    | 59 => [0, 37, 39, 41]
    | 60 => [0, 8, 43, 29]
    | 61 => [0, 1, 42]
    | 62 => [0, 7]
    | _ => [0]

end Sys2Proof.Machine
end

