-- ==== Sys2Proof/Machine/Registers.lean ====
section
/-! DEFINITION. The management register space (17_register_index.md, R449, R450): the address of every register, the access type of every bit (R11), and the value of every register at reset. -/

namespace Sys2Proof.Machine

/-! ### Addresses -/

/-- KEEP.ID (R356). -/
def aKeepId : Nat := 0x0

/-- KEEP.SERIAL (R356). -/
def aKeepSerial : Nat := 0x8

/-- KEEP.STATE (R356). -/
def aKeepState : Nat := 0x10

/-- KEEP.CMD (R356). -/
def aKeepCmd : Nat := 0x18

/-- KEEP.STRAPS (R447). -/
def aKeepStraps : Nat := 0x20

/-- SEC.OWNER_ED (R357). -/
def aSecOwnerEd (i : Nat) : Nat := 0x1000000 + 0x8 * i

/-- SEC.OWNER_ML (R357). -/
def aSecOwnerMl (i : Nat) : Nat := 0x1000040 + 0x8 * i

/-- SEC.IMAGE_DIG (R357). -/
def aSecImageDig (i : Nat) : Nat := 0x1000080 + 0x8 * i

/-- SEC.SVN (R357). -/
def aSecSvn : Nat := 0x10000C0

/-- SEC.PROVISION (R357). -/
def aSecProvision : Nat := 0x10000C8

/-- SEC.NONCE (R357). -/
def aSecNonce (i : Nat) : Nat := 0x1000100 + 0x8 * i

/-- SEC.ATTEST_CTRL (R357). -/
def aSecAttestCtrl : Nat := 0x1000120

/-- PWR.CAP (R405). -/
def aPwrCap : Nat := 0x2000000

/-- PWR.POWER (R405). -/
def aPwrPower : Nat := 0x2000008

/-- PWR.INPUT (R405). -/
def aPwrInput : Nat := 0x2000010

/-- PWR.STOP_INFO (R405). -/
def aPwrStopInfo : Nat := 0x2000018

/-- PWR.DOMAIN (R405). -/
def aPwrDomain (i : Nat) : Nat := 0x2001000 + 8 * i

/-- THM.STATUS (R404). -/
def aThmStatus : Nat := 0x3000000

/-- THM.LOOP_CMD (R404). -/
def aThmLoopCmd : Nat := 0x3000008

/-- THM.JCT_LIMITS (R404). -/
def aThmJctLimits : Nat := 0x3000010

/-- THM.COOL_LIMITS (R404). -/
def aThmCoolLimits : Nat := 0x3000018

/-- THM.AUX_LIMITS (R404). -/
def aThmAuxLimits : Nat := 0x3000020

/-- THM.BRD_LIMITS (R404). -/
def aThmBrdLimits : Nat := 0x3000028

/-- THM.CHAN_EN (R404). -/
def aThmChanEn : Nat := 0x3000030

/-- THM.PUMP_AUTO (R404). -/
def aThmPumpAuto : Nat := 0x3000038

/-- THM.FLOW_CFG (R404). -/
def aThmFlowCfg : Nat := 0x3000040

/-- THM.FLOW (R404). -/
def aThmFlow : Nat := 0x3000048

/-- THM.SENSOR (R404). -/
def aThmSensor (i : Nat) : Nat := 0x3001000 + 0x8 * i

/-- HKC.CFG (R420). -/
def aHkcCfg : Nat := 0x4000000

/-- HKC.DATA (R420). -/
def aHkcData : Nat := 0x4000008

/-- HKC.THERM_CFG (R420). -/
def aHkcThermCfg (i : Nat) : Nat := 0x4000100 + 0x8 * i

/-- HKC.BRD_ETA (R420). -/
def aHkcBrdEta : Nat := 0x4000180

/-- CAL.CMD (R421). -/
def aCalCmd : Nat := 0x5000000

/-- CAL.STATUS (R421). -/
def aCalStatus : Nat := 0x5000008

/-- CAL.COUNT (R421). -/
def aCalCount : Nat := 0x5000010

/-- CAL.LAST_TIME (R421). -/
def aCalLastTime : Nat := 0x5000018

/-- LEDG.CALENDAR (R385). -/
def aLedgCalendar : Nat := 0x6000000

/-- LEDG.CAL_SET (R385). -/
def aLedgCalSet : Nat := 0x6000008

/-- LEDG.STATUS (R385). -/
def aLedgStatus : Nat := 0x6000010

/-- LEDG.POWERED_S (R385). -/
def aLedgPoweredS : Nat := 0x6000018

/-- LEDG.THERM_CYCLES (R385). -/
def aLedgThermCycles : Nat := 0x6000020

/-- LEDG.FLOG_PTR (R385). -/
def aLedgFlogPtr : Nat := 0x6000028

/-- LEDG.FLOG_ACK (R385). -/
def aLedgFlogAck : Nat := 0x6000030

/-- LEDG.CKPT_SEQ (R385). -/
def aLedgCkptSeq : Nat := 0x6000038

/-- LEDG.FIELD_BAND (R385). -/
def aLedgFieldBand (n b : Nat) : Nat := 0x6002000 + 0x40 * n + 8 * b

/-- LEDG.FIELD_CYCLES (R385). -/
def aLedgFieldCycles (i : Nat) : Nat := 0x6003000 + 0x8 * i

/-- NVM.CTRL (R358). -/
def aNvmCtrl : Nat := 0x7000000

/-- NVM.STATUS (R358). -/
def aNvmStatus : Nat := 0x7000008

/-- NVM.WOFF (R358). -/
def aNvmWoff : Nat := 0x7000010

/-- CFG.STATUS (R359). -/
def aCfgStatus : Nat := 0x8000000

/-- CFG.COMMIT (R359). -/
def aCfgCommit : Nat := 0x8000008

/-- CFG.PENDING (R359). -/
def aCfgPending : Nat := 0x8000010

/-- CFG.FRZ_CMD (R359). -/
def aCfgFrzCmd : Nat := 0x8000020

/-- CFG.FRZ_STATE (R359). -/
def aCfgFrzState : Nat := 0x8000028

/-- HOST.LINK_STATE (R330). -/
def aHostLinkState : Nat := 0x10000000

/-- HOST.AGENT (R330). -/
def aHostAgent : Nat := 0x10000008

/-- HOST.ERR_INFO (R330). -/
def aHostErrInfo : Nat := 0x10000010

/-- HOST.ERR_ADDR (R330). -/
def aHostErrAddr : Nat := 0x10000018

/-- SVC.PORT_STATE (R331). -/
def aSvcPortState (i : Nat) : Nat := 0x11000000 + 0x8 * i

/-- SVC.QP_CMD (R331). -/
def aSvcQpCmd : Nat := 0x11000020

/-- SVC.VIOL_INFO (R331). -/
def aSvcViolInfo : Nat := 0x11000028

/-- SVC.PROFILE (R331). -/
def aSvcProfile (i : Nat) : Nat := 0x11001000 + 0x20 * i

/-- SVC.QP (R331). -/
def aSvcQp (p n : Nat) : Nat := 0x11100000 + 0x80000 * p + 0x10 * n

/-- TNP.PORT_STATE (R306). -/
def aTnpPortState (i : Nat) : Nat := 0x12000000 + 0x8 * i

/-- TNP.FEC_CORR_CNT (R306). -/
def aTnpFecCorrCnt (i : Nat) : Nat := 0x12001000 + 0x40 * i

/-- TNP.CRC_ERR_CNT (R306). -/
def aTnpCrcErrCnt (i : Nat) : Nat := 0x12001008 + 0x40 * i

/-- TNP.RETRY_CNT (R306). -/
def aTnpRetryCnt (i : Nat) : Nat := 0x12001010 + 0x40 * i

/-- TNP.LANE_FAULT_CNT (R306). -/
def aTnpLaneFaultCnt (i : Nat) : Nat := 0x12001018 + 0x40 * i

/-- TNP.LINK_DOWN_CNT (R306). -/
def aTnpLinkDownCnt (i : Nat) : Nat := 0x12001020 + 0x40 * i

/-- TNP.CTRL_WAIT_CNT (R306). -/
def aTnpCtrlWaitCnt (i : Nat) : Nat := 0x12001028 + 0x40 * i

/-- FAB.MOD_ID (R307). -/
def aFabModId : Nat := 0x13000000

/-- FAB.TIME_CFG (R307). -/
def aFabTimeCfg : Nat := 0x13000008

/-- FAB.FCOUNT (R307). -/
def aFabFcount : Nat := 0x13000010

/-- FAB.MGR_STATE (R307). -/
def aFabMgrState : Nat := 0x13000018

/-- FAB.RCOMP_TMO (R307). -/
def aFabRcompTmo : Nat := 0x13000020

/-- FAB.WIN_CLOSE_TMO (R307). -/
def aFabWinCloseTmo : Nat := 0x13000028

/-- FAB.WIN_CMD (R307). -/
def aFabWinCmd : Nat := 0x13000030

/-- FAB.WIN_VIOL_INFO (R307). -/
def aFabWinViolInfo : Nat := 0x13000038

/-- FAB.WIN_VIOL_ADDR (R307). -/
def aFabWinViolAddr : Nat := 0x13000040

/-- FAB.FRZ_INFO (R307). -/
def aFabFrzInfo : Nat := 0x13000048

/-- FAB.CTAB_USED (R307). -/
def aFabCtabUsed (i : Nat) : Nat := 0x13000200 + 0x8 * i

/-- FAB.WIN (R307). -/
def aFabWin (g w : Nat) : Nat := 0x13100000 + 0x80000 * g + 0x20 * w

/-- FAB.RDIR (R307). -/
def aFabRdir (i : Nat) : Nat := 0x13400000 + 0x10 * i

/-- MEM.STACK_STATE (R242). -/
def aMemStackState (i : Nat) : Nat := 0x20000100 + 0x8 * i

/-- MEM.REGION (R242). -/
def aMemRegion (i : Nat) : Nat := 0x20001000 + 0x8 * i

/-- LOAD.INST (R243). -/
def aLoadInst (i : Nat) : Nat := 0x21004000 + 0x8 * i

/-- SRV.CTRL (R274). -/
def aSrvCtrl : Nat := 0x22000000

/-- SRV.HSEL (R274). -/
def aSrvHsel : Nat := 0x22000008

/-- SRV.HVIEW0 (R274). -/
def aSrvHview0 : Nat := 0x22000010

/-- SRV.HVIEW1 (R274). -/
def aSrvHview1 : Nat := 0x22000018

/-- SRV.IFACE (R274). -/
def aSrvIface (i : Nat) : Nat := 0x22030000 + 0x20 * i

/-- SRV.ADAPTER (R274). -/
def aSrvAdapter (i : Nat) : Nat := 0x22040000 + 0x8 * i

/-- SRV.GRAM (R274). -/
def aSrvGram (i : Nat) : Nat := 0x22050000 + 0x8 * i

/-- SRV.SEQ (R274). -/
def aSrvSeq (i : Nat) : Nat := 0x22600000 + 0x20 * i

/-- SRV.RQ_BIND (R274). -/
def aSrvRqBind (i : Nat) : Nat := 0x22010020 + 0x40 * i

/-- CHO.STALL_LIMIT (R178). -/
def aChoStallLimit : Nat := 0x30000000

/-- CHO.LAST_REJECT (R178). -/
def aChoLastReject : Nat := 0x30000008

/-- CHO.VIOL_INFO (R178). -/
def aChoViolInfo : Nat := 0x30000010

/-- CHO.VIOL_ADDR (R178). -/
def aChoViolAddr : Nat := 0x30000018

/-- CHO.DOM_STATE (R178). -/
def aChoDomState (i : Nat) : Nat := 0x30001000 + 0x8 * i

/-- CHO.DOM_CTRL (R178). -/
def aChoDomCtrl (i : Nat) : Nat := 0x30003000 + 0x8 * i

/-- NUM.STATUS (R108). -/
def aNumStatus : Nat := 0x31000000

/-- NUM.FLAG_SUMMARY (R108). -/
def aNumFlagSummary (i : Nat) : Nat := 0x31000100 + 0x8 * i

/-- the six counters of a NUM slot, by kind, (R108). -/
def aNumCnt (l k : Nat) : Nat := 0x31010000 + 64 * l + 8 * k

/-- NUM.LTHR (R108). -/
def aNumLthr (i : Nat) : Nat := 0x31010030 + 0x40 * i

/-- NUM.LFLAG (R108). -/
def aNumLflag (i : Nat) : Nat := 0x31010038 + 0x40 * i

/-- REP.MAP_GEN (R41). -/
def aRepMapGen : Nat := 0x32000000

/-- REP.CTRL (R384). -/
def aRepCtrl : Nat := 0x32000008

/-- REP.FIELD_STATE (R41). -/
def aRepFieldState (i : Nat) : Nat := 0x32000100 + 0x8 * i

/-- REP.CLUSTER_STATE (R384). -/
def aRepClusterState (i : Nat) : Nat := 0x32000300 + 0x8 * i

/-- REP.DOMAIN_HEALTH (R384). -/
def aRepDomainHealth (i : Nat) : Nat := 0x32000400 + 0x8 * i

/-- DBG.STATUS (R178). -/
def aDbgStatus : Nat := 0x33000000

/-- DBG.HAZ_INFO (R178). -/
def aDbgHazInfo : Nat := 0x33000008

/-- DBG.HAZ_ADDR (R178). -/
def aDbgHazAddr : Nat := 0x33000010

/-- DBG.TRACE_CTRL (R452). -/
def aDbgTraceCtrl : Nat := 0x33000020

/-- DBG.TRACE_PTR (R452). -/
def aDbgTracePtr : Nat := 0x33000028

/-- DBG.TRACE_SEL (R452). -/
def aDbgTraceSel : Nat := 0x33000030

/-- DBG.TRACE_DROP_CNT (R452). -/
def aDbgTraceDropCnt : Nat := 0x33000108

/-- BEAT.STATUS (R432). -/
def aBeatStatus : Nat := 0x34000000

/-- BEAT.HORIZON (R432). -/
def aBeatHorizon : Nat := 0x34000008

/-- BEAT.PERIOD (R432). -/
def aBeatPeriod : Nat := 0x34000010

/-- REP.LANE_ERR_CNT (R41). -/
def aRepLaneErrCnt : Nat := 0x32000010

/-- REP.LANE_SWAP_CNT (R41). -/
def aRepLaneSwapCnt : Nat := 0x32000018

/-- REP.LINK_RETIRE_CNT (R41). -/
def aRepLinkRetireCnt : Nat := 0x32000020

/-- REP.SYNC_PLANE_ERR_CNT (R41). -/
def aRepSyncPlaneErrCnt : Nat := 0x32000028

/-- REP.SYNC_MISMATCH_CNT (R41). -/
def aRepSyncMismatchCnt : Nat := 0x32000030

/-- REP.ARRAY_SUSPECT_CNT (R84). -/
def aRepArraySuspectCnt : Nat := 0x32000038

/-- REP.ARRAY_RETIRE_CNT (R84). -/
def aRepArrayRetireCnt : Nat := 0x32000040

/-- REP.CONV_SWAP_CNT (R84). -/
def aRepConvSwapCnt : Nat := 0x32000048

/-- REP.MIRROR_MISMATCH_CNT (R84). -/
def aRepMirrorMismatchCnt : Nat := 0x32000050

/-- REP.PATROL_CNT (R84). -/
def aRepPatrolCnt : Nat := 0x32000058

/-- REP.REFRESH_CNT (R84). -/
def aRepRefreshCnt : Nat := 0x32000060

/-- REP.ARRAY_WORN_CNT (R84). -/
def aRepArrayWornCnt : Nat := 0x32000068

/-- REP.REPAIR_HOLD_CNT (R84). -/
def aRepRepairHoldCnt : Nat := 0x32000070

/-- REP.RESIDUE_ERR_CNT (R144). -/
def aRepResidueErrCnt : Nat := 0x32000078

/-- REP.LOCKSTEP_ERR_CNT (R144). -/
def aRepLockstepErrCnt : Nat := 0x32000080

/-- REP.SCR_PARITY_ERR_CNT (R144). -/
def aRepScrParityErrCnt : Nat := 0x32000088

/-- REP.TILE_REPAIR_REQ_CNT (R144). -/
def aRepTileRepairReqCnt : Nat := 0x32000090

/-- CHO.PLACE_REJECT_CNT (R178). -/
def aChoPlaceRejectCnt : Nat := 0x30000100

/-- CHO.LOAD_REJECT_CNT (R178). -/
def aChoLoadRejectCnt : Nat := 0x30000108

/-- CHO.COMMIT_CNT (R178). -/
def aChoCommitCnt : Nat := 0x30000110

/-- CHO.REPLAY_CNT (R178). -/
def aChoReplayCnt : Nat := 0x30000118

/-- CHO.ABORT_CNT (R178). -/
def aChoAbortCnt : Nat := 0x30000120

/-- CHO.STALL_CNT (R178). -/
def aChoStallCnt : Nat := 0x30000128

/-- CHO.VIOL_CNT (R178). -/
def aChoViolCnt : Nat := 0x30000130

/-- DBG.HAZ_CNT (R178). -/
def aDbgHazCnt : Nat := 0x33000100

/-- MEM.ECC_CORR_CNT (R242). -/
def aMemEccCorrCnt : Nat := 0x20000000

/-- MEM.ECC_UNCORR_CNT (R242). -/
def aMemEccUncorrCnt : Nat := 0x20000008

/-- MEM.ZERO_FILL_CNT (R242). -/
def aMemZeroFillCnt : Nat := 0x20000010

/-- MEM.PAR_IN_ERR_CNT (R242). -/
def aMemParInErrCnt : Nat := 0x20000018

/-- MEM.REGION_REJECT_CNT (R242). -/
def aMemRegionRejectCnt : Nat := 0x20000020

/-- MEM.TAG_WAIT_CNT (R242). -/
def aMemTagWaitCnt : Nat := 0x20000028

/-- LOAD.JOB_CNT (R243). -/
def aLoadJobCnt : Nat := 0x21000100

/-- LOAD.REFUSE_CNT (R243). -/
def aLoadRefuseCnt : Nat := 0x21000108

/-- LOAD.SHARD_RETRY_CNT (R243). -/
def aLoadShardRetryCnt : Nat := 0x21000110

/-- LOAD.SHARD_FAIL_CNT (R243). -/
def aLoadShardFailCnt : Nat := 0x21000118

/-- LOAD.PROM_COMMIT_CNT (R243). -/
def aLoadPromCommitCnt : Nat := 0x21000120

/-- LOAD.ROLLBACK_CNT (R243). -/
def aLoadRollbackCnt : Nat := 0x21000128

/-- LOAD.PARK_CNT (R243). -/
def aLoadParkCnt : Nat := 0x21000130

/-- LOAD.INGEST_BYTE_CNT (R243). -/
def aLoadIngestByteCnt : Nat := 0x21000138

/-- SRV.REQ_CNT (R274). -/
def aSrvReqCnt : Nat := 0x22000100

/-- SRV.REFUSE_CNT (R274). -/
def aSrvRefuseCnt : Nat := 0x22000108

/-- SRV.SEQ_END_CNT (R274). -/
def aSrvSeqEndCnt : Nat := 0x22000110

/-- SRV.TOKEN_CNT (R274). -/
def aSrvTokenCnt : Nat := 0x22000118

/-- SRV.ADMIT_WAIT_CNT (R274). -/
def aSrvAdmitWaitCnt : Nat := 0x22000120

/-- SRV.KV_FULL_CNT (R274). -/
def aSrvKvFullCnt : Nat := 0x22000128

/-- SRV.BACKPRESSURE_CNT (R274). -/
def aSrvBackpressureCnt : Nat := 0x22000130

/-- SRV.PREFIX_HIT_CNT (R274). -/
def aSrvPrefixHitCnt : Nat := 0x22000138

/-- SRV.PREFIX_STALE_CNT (R274). -/
def aSrvPrefixStaleCnt : Nat := 0x22000140

/-- SRV.MASK_EMPTY_CNT (R274). -/
def aSrvMaskEmptyCnt : Nat := 0x22000148

/-- SRV.NOTICE_CNT (R274). -/
def aSrvNoticeCnt : Nat := 0x22000150

/-- FAB.WIN_VIOL_CNT (R307). -/
def aFabWinViolCnt : Nat := 0x13000100

/-- FAB.FRZ_NOTICE_CNT (R307). -/
def aFabFrzNoticeCnt : Nat := 0x13000108

/-- FAB.WIN_CLOSE_CNT (R307). -/
def aFabWinCloseCnt : Nat := 0x13000110

/-- FAB.WIN_CLOSE_TMO_CNT (R307). -/
def aFabWinCloseTmoCnt : Nat := 0x13000118

/-- FAB.CTAB_WAIT_CNT (R307). -/
def aFabCtabWaitCnt : Nat := 0x13000120

/-- FAB.RCOMP_TMO_CNT (R307). -/
def aFabRcompTmoCnt : Nat := 0x13000128

/-- FAB.MISROUTE_CNT (R307). -/
def aFabMisrouteCnt : Nat := 0x13000130

/-- FAB.MISWIRE_CNT (R307). -/
def aFabMiswireCnt : Nat := 0x13000138

/-- FAB.JOIN_REJECT_CNT (R307). -/
def aFabJoinRejectCnt : Nat := 0x13000140

/-- FAB.MGR_TAKEOVER_CNT (R307). -/
def aFabMgrTakeoverCnt : Nat := 0x13000148

/-- FAB.HOLDOVER_CNT (R307). -/
def aFabHoldoverCnt : Nat := 0x13000150

/-- HOST.ACC_ERR_CNT (R330). -/
def aHostAccErrCnt : Nat := 0x10000100

/-- HOST.VIOL_CNT (R330). -/
def aHostViolCnt : Nat := 0x10000108

/-- HOST.LINK_DOWN_CNT (R330). -/
def aHostLinkDownCnt : Nat := 0x10000110

/-- HOST.PARTIAL_DROP_CNT (R330). -/
def aHostPartialDropCnt : Nat := 0x10000118

/-- HOST.POISON_RX_CNT (R330). -/
def aHostPoisonRxCnt : Nat := 0x10000120

/-- HOST.CPL_TMO_CNT (R330). -/
def aHostCplTmoCnt : Nat := 0x10000128

/-- HOST.IDE_ERR_CNT (R330). -/
def aHostIdeErrCnt : Nat := 0x10000130

/-- SVC.CONN_REJECT_CNT (R331). -/
def aSvcConnRejectCnt : Nat := 0x11000100

/-- SVC.NAK_CNT (R331). -/
def aSvcNakCnt : Nat := 0x11000108

/-- SVC.QP_ERR_CNT (R331). -/
def aSvcQpErrCnt : Nat := 0x11000110

/-- SVC.VIOL_CNT (R331). -/
def aSvcViolCnt : Nat := 0x11000118

/-- SVC.LINK_DOWN_CNT (R331). -/
def aSvcLinkDownCnt : Nat := 0x11000120

/-- KEEP.BOOT_CNT (R356). -/
def aKeepBootCnt : Nat := 0x100

/-- KEEP.RECOVERY_CNT (R356). -/
def aKeepRecoveryCnt : Nat := 0x108

/-- CFG.LK_REJECT_CNT (R359). -/
def aCfgLkRejectCnt : Nat := 0x8000100

/-- CFG.COMMIT_CNT (R359). -/
def aCfgCommitCnt : Nat := 0x8000108

/-- CFG.COMMIT_REJECT_CNT (R359). -/
def aCfgCommitRejectCnt : Nat := 0x8000110

/-- CFG.TENANT_RESET_CNT (R359). -/
def aCfgTenantResetCnt : Nat := 0x8000118

/-- CFG.UNFREEZE_CNT (R359). -/
def aCfgUnfreezeCnt : Nat := 0x8000120

/-- CFG.UNFREEZE_REJECT_CNT (R359). -/
def aCfgUnfreezeRejectCnt : Nat := 0x8000128

/-- REP.TILE_RETIRE_CNT (R384). -/
def aRepTileRetireCnt : Nat := 0x32000098

/-- REP.FIELD_RETIRE_CNT (R384). -/
def aRepFieldRetireCnt : Nat := 0x320000A0

/-- REP.PAIR_SWAP_CNT (R384). -/
def aRepPairSwapCnt : Nat := 0x320000A8

/-- REP.PHASE_FAIL_CNT (R384). -/
def aRepPhaseFailCnt : Nat := 0x320000B0

/-- REP.SUPPLY_FAULT_CNT (R384). -/
def aRepSupplyFaultCnt : Nat := 0x320000B8

/-- REP.TILE_TEST_CNT (R384). -/
def aRepTileTestCnt : Nat := 0x320000C0

/-- REP.PAIR_LOCKSTEP_ERR_CNT (R384). -/
def aRepPairLockstepErrCnt : Nat := 0x320000C8

/-- LEDG.FLUSH_CNT (R385). -/
def aLedgFlushCnt : Nat := 0x6000100

/-- LEDG.CKPT_CNT (R385). -/
def aLedgCkptCnt : Nat := 0x6000108

/-- LEDG.MAC_FAIL_CNT (R385). -/
def aLedgMacFailCnt : Nat := 0x6000110

/-- LEDG.UNCLEAN_CNT (R385). -/
def aLedgUncleanCnt : Nat := 0x6000118

/-- LEDG.FLOG_OVF_CNT (R385). -/
def aLedgFlogOvfCnt : Nat := 0x6000120

/-- LEDG.CAL_REJECT_CNT (R385). -/
def aLedgCalRejectCnt : Nat := 0x6000128

/-- LEDG.FLASH_ERR_CNT (R385). -/
def aLedgFlashErrCnt : Nat := 0x6000130

/-- THM.WARN_CNT (R404). -/
def aThmWarnCnt : Nat := 0x3000100

/-- THM.THROTTLE_CNT (R404). -/
def aThmThrottleCnt : Nat := 0x3000108

/-- THM.TRIP_CNT (R404). -/
def aThmTripCnt : Nat := 0x3000110

/-- THM.COOL_STOP_CNT (R404). -/
def aThmCoolStopCnt : Nat := 0x3000118

/-- THM.SENSOR_FAULT_CNT (R404). -/
def aThmSensorFaultCnt : Nat := 0x3000120

/-- THM.FLOW_LOW_CNT (R404). -/
def aThmFlowLowCnt : Nat := 0x3000128

/-- THM.VALVE_REJECT_CNT (R404). -/
def aThmValveRejectCnt : Nat := 0x3000130

/-- PWR.CAP_STEP_CNT (R405). -/
def aPwrCapStepCnt : Nat := 0x2000100

/-- PWR.STOP_CNT (R405). -/
def aPwrStopCnt : Nat := 0x2000108

/-- PWR.DOMAIN_SWITCH_CNT (R405). -/
def aPwrDomainSwitchCnt : Nat := 0x2000110

/-- HKC.OVERRUN_CNT (R420). -/
def aHkcOverrunCnt : Nat := 0x4000200

/-- HKC.CONV_CNT (R420). -/
def aHkcConvCnt : Nat := 0x4000208

/-- BEAT.BEAT_CNT (R432). -/
def aBeatBeatCnt : Nat := 0x34000100

/-- BEAT.FRAME_CNT (R432). -/
def aBeatFrameCnt : Nat := 0x34000108

/-- BEAT.STRETCH_CNT (R432). -/
def aBeatStretchCnt : Nat := 0x34000110

/-- BEAT.STRETCH_PERIOD_CNT (R432). -/
def aBeatStretchPeriodCnt : Nat := 0x34000118

/-- BEAT.REPLAY_CNT (R432). -/
def aBeatReplayCnt : Nat := 0x34000120

/-- The register window of a tile (R14). -/
def aTile (t : Nat) : Nat := 0x10000000000 + t * 0x10000

/-- CIMW.PASS_CNT of tile `t` (R83). -/
def aCimwPassCnt (t : Nat) : Nat := aTile t + 0x8200

/-- CIMW.TPASS_CNT of tile `t` (R83). -/
def aCimwTpassCnt (t : Nat) : Nat := aTile t + 0x8208

/-- CIMW.ZSKIP_CNT of tile `t` (R83). -/
def aCimwZskipCnt (t : Nat) : Nat := aTile t + 0x8210

/-- CIMW.CLIP_CNT of tile `t` (R83). -/
def aCimwClipCnt (t : Nat) : Nat := aTile t + 0x8218

/-- CIMW.SPLIT_CNT of tile `t` (R83). -/
def aCimwSplitCnt (t : Nat) : Nat := aTile t + 0x8220

/-- CIMW.CLIP_FINAL_CNT of tile `t` (R83). -/
def aCimwClipFinalCnt (t : Nat) : Nat := aTile t + 0x8228

/-- CIMW.MIRROR_MISMATCH_CNT of tile `t` (R83). -/
def aCimwMirrorMismatchCnt (t : Nat) : Nat := aTile t + 0x8230

/-- CIMW.PATROL_CNT of tile `t` (R83). -/
def aCimwPatrolCnt (t : Nat) : Nat := aTile t + 0x8238

/-- CIMW.TOUCH_CNT of tile `t` (R83). -/
def aCimwTouchCnt (t : Nat) : Nat := aTile t + 0x8240

/-- CIMW.PROG_CNT of tile `t` (R83). -/
def aCimwProgCnt (t : Nat) : Nat := aTile t + 0x8248

/-- CIMW.PROG_FAIL_CNT of tile `t` (R83). -/
def aCimwProgFailCnt (t : Nat) : Nat := aTile t + 0x8250

/-- TILEW.SCR_PARITY_ERR_CNT of tile `t` (R142). -/
def aTilewScrParityErrCnt (t : Nat) : Nat := aTile t + 0x100

/-- TILEW.TENANT_VIOL_CNT of tile `t` (R142). -/
def aTilewTenantViolCnt (t : Nat) : Nat := aTile t + 0x108

/-- TILEW.SEG_CLEAR_CNT of tile `t` (R142). -/
def aTilewSegClearCnt (t : Nat) : Nat := aTile t + 0x110

/-- VECW.SIMD_OP_CNT of tile `t` (R142). -/
def aVecwSimdOpCnt (t : Nat) : Nat := aTile t + 0x8100

/-- VECW.DOT_CHUNK_CNT of tile `t` (R142). -/
def aVecwDotChunkCnt (t : Nat) : Nat := aTile t + 0x8108

/-- VECW.SAMPLE_CNT of tile `t` (R142). -/
def aVecwSampleCnt (t : Nat) : Nat := aTile t + 0x8110

/-- VECW.RESIDUE_ERR_CNT of tile `t` (R142). -/
def aVecwResidueErrCnt (t : Nat) : Nat := aTile t + 0x8118

/-- SCLW.INSTR_CNT of tile `t` (R142). -/
def aSclwInstrCnt (t : Nat) : Nat := aTile t + 0x8100

/-- SCLW.LOCKSTEP_ERR_CNT of tile `t` (R142). -/
def aSclwLockstepErrCnt (t : Nat) : Nat := aTile t + 0x8108

/-! ### Access types (R11) -/

/-- Registers at `base + stride × i`, `i` below `count`, with the bits of each access type. Every other bit is
RO or reserved. -/
structure RegRow where
  base   : Nat
  stride : Nat
  count  : Nat
  rw     : Nat := 0
  wo     : Nat := 0
  w1c    : Nat := 0
  st     : Nat := 0
  lk     : Nat := 0
  deriving DecidableEq, Repr

/-- The registers of KEEP. -/
def regKeep : List RegRow := [
  { base := 0x0, stride := 0x8, count := 1 }, -- KEEP.ID
  { base := 0x8, stride := 0x8, count := 1 }, -- KEEP.SERIAL
  { base := 0x10, stride := 0x8, count := 1 }, -- KEEP.STATE
  { base := 0x18, stride := 0x8, count := 1, wo := 0x1 }, -- KEEP.CMD
  { base := 0x20, stride := 0x8, count := 1 }, -- KEEP.STRAPS
  { base := 0x100, stride := 0x8, count := 1 }, -- KEEP.BOOT_CNT
  { base := 0x108, stride := 0x8, count := 1 } -- KEEP.RECOVERY_CNT
  ]

/-- The registers of SEC. -/
def regSec : List RegRow := [
  { base := 0x1000000, stride := 0x8, count := 8 }, -- SEC.OWNER_ED
  { base := 0x1000040, stride := 0x8, count := 8 }, -- SEC.OWNER_ML
  { base := 0x1000080, stride := 0x8, count := 8 }, -- SEC.IMAGE_DIG
  { base := 0x10000C0, stride := 0x8, count := 1 }, -- SEC.SVN
  { base := 0x10000C8, stride := 0x8, count := 1, wo := 0x1 }, -- SEC.PROVISION
  { base := 0x1000100, stride := 0x8, count := 4, rw := 0xFFFFFFFFFFFFFFFF }, -- SEC.NONCE
  { base := 0x1000120, stride := 0x8, count := 1, wo := 0x1 } -- SEC.ATTEST_CTRL
  ]

/-- The registers of PWR. -/
def regPwr : List RegRow := [
  { base := 0x2000000, stride := 0x8, count := 1, rw := 0x3FFFFFF }, -- PWR.CAP
  { base := 0x2000008, stride := 0x8, count := 1 }, -- PWR.POWER
  { base := 0x2000010, stride := 0x8, count := 1 }, -- PWR.INPUT
  { base := 0x2000018, stride := 0x8, count := 1 }, -- PWR.STOP_INFO
  { base := 0x2000100, stride := 0x8, count := 1 }, -- PWR.CAP_STEP_CNT
  { base := 0x2000108, stride := 0x8, count := 1 }, -- PWR.STOP_CNT
  { base := 0x2000110, stride := 0x8, count := 1 }, -- PWR.DOMAIN_SWITCH_CNT
  { base := 0x2001000, stride := 0x8, count := 1 }, -- PWR.DOMAIN(0)
  { base := 0x2001008, stride := 0x8, count := 49, st := 0x3FF }, -- PWR.DOMAIN(1) to (49)
  { base := 0x2001190, stride := 0x8, count := 14 } -- PWR.DOMAIN(50) to (63)
  ]

/-- The registers of THM. -/
def regThm : List RegRow := [
  { base := 0x3000000, stride := 0x8, count := 1 }, -- THM.STATUS
  { base := 0x3000008, stride := 0x8, count := 1, rw := 0xFFF }, -- THM.LOOP_CMD
  { base := 0x3000010, stride := 0x8, count := 1, st := 0xFFFFFFFFFFFF }, -- THM.JCT_LIMITS
  { base := 0x3000018, stride := 0x8, count := 1, st := 0xFFFFFFFF }, -- THM.COOL_LIMITS
  { base := 0x3000020, stride := 0x8, count := 1, st := 0xFFFFFFFFFFFFFFFF }, -- THM.AUX_LIMITS
  { base := 0x3000028, stride := 0x8, count := 1, st := 0xFFFFFFFFFFFFFFFF }, -- THM.BRD_LIMITS
  { base := 0x3000030, stride := 0x8, count := 1, st := 0xFFF }, -- THM.CHAN_EN
  { base := 0x3000038, stride := 0x8, count := 1, st := 0x3FFFFFF }, -- THM.PUMP_AUTO
  { base := 0x3000040, stride := 0x8, count := 1, st := 0xFFFFFFFFF }, -- THM.FLOW_CFG
  { base := 0x3000048, stride := 0x8, count := 1 }, -- THM.FLOW
  { base := 0x3000100, stride := 0x8, count := 1 }, -- THM.WARN_CNT
  { base := 0x3000108, stride := 0x8, count := 1 }, -- THM.THROTTLE_CNT
  { base := 0x3000110, stride := 0x8, count := 1 }, -- THM.TRIP_CNT
  { base := 0x3000118, stride := 0x8, count := 1 }, -- THM.COOL_STOP_CNT
  { base := 0x3000120, stride := 0x8, count := 1 }, -- THM.SENSOR_FAULT_CNT
  { base := 0x3000128, stride := 0x8, count := 1 }, -- THM.FLOW_LOW_CNT
  { base := 0x3000130, stride := 0x8, count := 1 }, -- THM.VALVE_REJECT_CNT
  { base := 0x3001000, stride := 0x8, count := 124 } -- THM.SENSOR
  ]

/-- The registers of HKC. -/
def regHkc : List RegRow := [
  { base := 0x4000000, stride := 0x8, count := 1, st := 0x7FF }, -- HKC.CFG
  { base := 0x4000008, stride := 0x8, count := 1 }, -- HKC.DATA
  { base := 0x4000100, stride := 0x8, count := 8, st := 0xFFFFFFFF }, -- HKC.THERM_CFG
  { base := 0x4000180, stride := 0x8, count := 1, st := 0xFFFFFFFFFFFFFFFF }, -- HKC.BRD_ETA
  { base := 0x4000200, stride := 0x8, count := 1 }, -- HKC.OVERRUN_CNT
  { base := 0x4000208, stride := 0x8, count := 1 } -- HKC.CONV_CNT
  ]

/-- The registers of CAL. -/
def regCal : List RegRow := [
  { base := 0x5000000, stride := 0x8, count := 1, wo := 0xFFFFFFFFFFFF8003 }, -- CAL.CMD
  { base := 0x5000008, stride := 0x8, count := 1 }, -- CAL.STATUS
  { base := 0x5000010, stride := 0x8, count := 1 }, -- CAL.COUNT
  { base := 0x5000018, stride := 0x8, count := 1 } -- CAL.LAST_TIME
  ]

/-- The registers of LEDG. -/
def regLedg : List RegRow := [
  { base := 0x6000000, stride := 0x8, count := 1 }, -- LEDG.CALENDAR
  { base := 0x6000008, stride := 0x8, count := 1, wo := 0xFFFFFFFFFFFFFFFF }, -- LEDG.CAL_SET
  { base := 0x6000010, stride := 0x8, count := 1 }, -- LEDG.STATUS
  { base := 0x6000018, stride := 0x8, count := 1 }, -- LEDG.POWERED_S
  { base := 0x6000020, stride := 0x8, count := 1 }, -- LEDG.THERM_CYCLES
  { base := 0x6000028, stride := 0x8, count := 1 }, -- LEDG.FLOG_PTR
  { base := 0x6000030, stride := 0x8, count := 1, rw := 0xFFFFFFFF }, -- LEDG.FLOG_ACK
  { base := 0x6000038, stride := 0x8, count := 1 }, -- LEDG.CKPT_SEQ
  { base := 0x6000100, stride := 0x8, count := 1 }, -- LEDG.FLUSH_CNT
  { base := 0x6000108, stride := 0x8, count := 1 }, -- LEDG.CKPT_CNT
  { base := 0x6000110, stride := 0x8, count := 1 }, -- LEDG.MAC_FAIL_CNT
  { base := 0x6000118, stride := 0x8, count := 1 }, -- LEDG.UNCLEAN_CNT
  { base := 0x6000120, stride := 0x8, count := 1 }, -- LEDG.FLOG_OVF_CNT
  { base := 0x6000128, stride := 0x8, count := 1 }, -- LEDG.CAL_REJECT_CNT
  { base := 0x6000130, stride := 0x8, count := 1 }, -- LEDG.FLASH_ERR_CNT
  { base := 0x6002000, stride := 0x8, count := 392 }, -- LEDG.FIELD_BAND
  { base := 0x6003000, stride := 0x8, count := 49 } -- LEDG.FIELD_CYCLES
  ]

/-- The registers of NVM. -/
def regNvm : List RegRow := [
  { base := 0x7000000, stride := 0x8, count := 1, wo := 0xFFFFFFFF00000003 }, -- NVM.CTRL
  { base := 0x7000008, stride := 0x8, count := 1 }, -- NVM.STATUS
  { base := 0x7000010, stride := 0x8, count := 1, rw := 0xFFFF000 } -- NVM.WOFF
  ]

/-- The registers of CFG. -/
def regCfg : List RegRow := [
  { base := 0x8000000, stride := 0x8, count := 1 }, -- CFG.STATUS
  { base := 0x8000008, stride := 0x8, count := 1, wo := 0x1FFFF }, -- CFG.COMMIT
  { base := 0x8000010, stride := 0x8, count := 1 }, -- CFG.PENDING
  { base := 0x8000020, stride := 0x8, count := 1, wo := 0xFFFF1FFF }, -- CFG.FRZ_CMD
  { base := 0x8000028, stride := 0x8, count := 1 }, -- CFG.FRZ_STATE
  { base := 0x8000100, stride := 0x8, count := 1 }, -- CFG.LK_REJECT_CNT
  { base := 0x8000108, stride := 0x8, count := 1 }, -- CFG.COMMIT_CNT
  { base := 0x8000110, stride := 0x8, count := 1 }, -- CFG.COMMIT_REJECT_CNT
  { base := 0x8000118, stride := 0x8, count := 1 }, -- CFG.TENANT_RESET_CNT
  { base := 0x8000120, stride := 0x8, count := 1 }, -- CFG.UNFREEZE_CNT
  { base := 0x8000128, stride := 0x8, count := 1 } -- CFG.UNFREEZE_REJECT_CNT
  ]

/-- The registers of HOST. -/
def regHost : List RegRow := [
  { base := 0x10000000, stride := 0x8, count := 1 }, -- HOST.LINK_STATE
  { base := 0x10000008, stride := 0x8, count := 1, st := 0xFFFF }, -- HOST.AGENT
  { base := 0x10000010, stride := 0x8, count := 1 }, -- HOST.ERR_INFO
  { base := 0x10000018, stride := 0x8, count := 1 }, -- HOST.ERR_ADDR
  { base := 0x10000100, stride := 0x8, count := 1 }, -- HOST.ACC_ERR_CNT
  { base := 0x10000108, stride := 0x8, count := 1 }, -- HOST.VIOL_CNT
  { base := 0x10000110, stride := 0x8, count := 1 }, -- HOST.LINK_DOWN_CNT
  { base := 0x10000118, stride := 0x8, count := 1 }, -- HOST.PARTIAL_DROP_CNT
  { base := 0x10000120, stride := 0x8, count := 1 }, -- HOST.POISON_RX_CNT
  { base := 0x10000128, stride := 0x8, count := 1 }, -- HOST.CPL_TMO_CNT
  { base := 0x10000130, stride := 0x8, count := 1 } -- HOST.IDE_ERR_CNT
  ]

/-- The registers of SVC. -/
def regSvc : List RegRow := [
  { base := 0x11000000, stride := 0x8, count := 2 }, -- SVC.PORT_STATE
  { base := 0x11000020, stride := 0x8, count := 1, wo := 0x3FFF }, -- SVC.QP_CMD
  { base := 0x11000028, stride := 0x8, count := 1 }, -- SVC.VIOL_INFO
  { base := 0x11000100, stride := 0x8, count := 1 }, -- SVC.CONN_REJECT_CNT
  { base := 0x11000108, stride := 0x8, count := 1 }, -- SVC.NAK_CNT
  { base := 0x11000110, stride := 0x8, count := 1 }, -- SVC.QP_ERR_CNT
  { base := 0x11000118, stride := 0x8, count := 1 }, -- SVC.VIOL_CNT
  { base := 0x11000120, stride := 0x8, count := 1 }, -- SVC.LINK_DOWN_CNT
  { base := 0x11001000, stride := 0x20, count := 256, st := 0x3FFFFFFFFF }, -- SVC.PROFILE word 0
  { base := 0x11001008, stride := 0x20, count := 256, st := 0xFF }, -- SVC.PROFILE word 1
  { base := 0x11001010, stride := 0x20, count := 256, st := 0xFFFFFFFFFFFFFFFF }, -- SVC.PROFILE word 2
  { base := 0x11001018, stride := 0x20, count := 256, st := 0xFFFFFFFFFFFFFFFF }, -- SVC.PROFILE word 3
  { base := 0x11003000, stride := 0x40, count := 16, st := 0x1FFFF000FFFFF }, -- RING.CONFIG of the rack message rings
  { base := 0x11003008, stride := 0x40, count := 16, st := 0xFFFFFFFFFFFF }, -- RING.BASE of the rack message rings
  { base := 0x11003010, stride := 0x40, count := 16 }, -- RING.PTR of the rack message rings
  { base := 0x11003018, stride := 0x40, count := 16 }, -- RING.DROP_CNT of the rack message rings
  { base := 0x11100000, stride := 0x10, count := 4096 }, -- SVC.QP(0, n) word 0
  { base := 0x11100008, stride := 0x10, count := 4096 }, -- SVC.QP(0, n) word 1
  { base := 0x11180000, stride := 0x10, count := 4096 }, -- SVC.QP(1, n) word 0
  { base := 0x11180008, stride := 0x10, count := 4096 } -- SVC.QP(1, n) word 1
  ]

/-- The registers of TNP. -/
def regTnp : List RegRow := [
  { base := 0x12000000, stride := 0x8, count := 96 }, -- TNP.PORT_STATE
  { base := 0x12001000, stride := 0x40, count := 96 }, -- TNP.FEC_CORR_CNT
  { base := 0x12001008, stride := 0x40, count := 96 }, -- TNP.CRC_ERR_CNT
  { base := 0x12001010, stride := 0x40, count := 96 }, -- TNP.RETRY_CNT
  { base := 0x12001018, stride := 0x40, count := 96 }, -- TNP.LANE_FAULT_CNT
  { base := 0x12001020, stride := 0x40, count := 96 }, -- TNP.LINK_DOWN_CNT
  { base := 0x12001028, stride := 0x40, count := 96 } -- TNP.CTRL_WAIT_CNT
  ]

/-- The registers of FAB. -/
def regFab : List RegRow := [
  { base := 0x13000000, stride := 0x8, count := 1 }, -- FAB.MOD_ID
  { base := 0x13000008, stride := 0x8, count := 1, lk := 0x7FF }, -- FAB.TIME_CFG
  { base := 0x13000010, stride := 0x8, count := 1 }, -- FAB.FCOUNT
  { base := 0x13000018, stride := 0x8, count := 1 }, -- FAB.MGR_STATE
  { base := 0x13000020, stride := 0x8, count := 1, st := 0x3FF }, -- FAB.RCOMP_TMO
  { base := 0x13000028, stride := 0x8, count := 1, st := 0x3FFF }, -- FAB.WIN_CLOSE_TMO
  { base := 0x13000030, stride := 0x8, count := 1, wo := 0xFFFF }, -- FAB.WIN_CMD
  { base := 0x13000038, stride := 0x8, count := 1 }, -- FAB.WIN_VIOL_INFO
  { base := 0x13000040, stride := 0x8, count := 1 }, -- FAB.WIN_VIOL_ADDR
  { base := 0x13000048, stride := 0x8, count := 1 }, -- FAB.FRZ_INFO
  { base := 0x13000100, stride := 0x8, count := 1 }, -- FAB.WIN_VIOL_CNT
  { base := 0x13000108, stride := 0x8, count := 1 }, -- FAB.FRZ_NOTICE_CNT
  { base := 0x13000110, stride := 0x8, count := 1 }, -- FAB.WIN_CLOSE_CNT
  { base := 0x13000118, stride := 0x8, count := 1 }, -- FAB.WIN_CLOSE_TMO_CNT
  { base := 0x13000120, stride := 0x8, count := 1 }, -- FAB.CTAB_WAIT_CNT
  { base := 0x13000128, stride := 0x8, count := 1 }, -- FAB.RCOMP_TMO_CNT
  { base := 0x13000130, stride := 0x8, count := 1 }, -- FAB.MISROUTE_CNT
  { base := 0x13000138, stride := 0x8, count := 1 }, -- FAB.MISWIRE_CNT
  { base := 0x13000140, stride := 0x8, count := 1 }, -- FAB.JOIN_REJECT_CNT
  { base := 0x13000148, stride := 0x8, count := 1 }, -- FAB.MGR_TAKEOVER_CNT
  { base := 0x13000150, stride := 0x8, count := 1 }, -- FAB.HOLDOVER_CNT
  { base := 0x13000200, stride := 0x8, count := 4 }, -- FAB.CTAB_USED
  { base := 0x13100000, stride := 0x20, count := 4096, rw := 0x3FFFFFF3C }, -- FAB.WIN(0, w) word 0
  { base := 0x13100008, stride := 0x20, count := 4096, rw := 0xFFFFFFFFFFFF }, -- FAB.WIN(0, w) word 1
  { base := 0x13100010, stride := 0x20, count := 4096, rw := 0xFFFFFFFFFF }, -- FAB.WIN(0, w) word 2
  { base := 0x13100018, stride := 0x20, count := 4096 }, -- FAB.WIN(0, w) word 3
  { base := 0x13180000, stride := 0x20, count := 4096, rw := 0x3FFFFFF3C }, -- FAB.WIN(1, w) word 0
  { base := 0x13180008, stride := 0x20, count := 4096, rw := 0xFFFFFFFFFFFF }, -- FAB.WIN(1, w) word 1
  { base := 0x13180010, stride := 0x20, count := 4096, rw := 0xFFFFFFFFFF }, -- FAB.WIN(1, w) word 2
  { base := 0x13180018, stride := 0x20, count := 4096 }, -- FAB.WIN(1, w) word 3
  { base := 0x13200000, stride := 0x20, count := 4096, rw := 0x3FFFFFF3C }, -- FAB.WIN(2, w) word 0
  { base := 0x13200008, stride := 0x20, count := 4096, rw := 0xFFFFFFFFFFFF }, -- FAB.WIN(2, w) word 1
  { base := 0x13200010, stride := 0x20, count := 4096, rw := 0xFFFFFFFFFF }, -- FAB.WIN(2, w) word 2
  { base := 0x13200018, stride := 0x20, count := 4096 }, -- FAB.WIN(2, w) word 3
  { base := 0x13280000, stride := 0x20, count := 4096, rw := 0x3FFFFFF3C }, -- FAB.WIN(3, w) word 0
  { base := 0x13280008, stride := 0x20, count := 4096, rw := 0xFFFFFFFFFFFF }, -- FAB.WIN(3, w) word 1
  { base := 0x13280010, stride := 0x20, count := 4096, rw := 0xFFFFFFFFFF }, -- FAB.WIN(3, w) word 2
  { base := 0x13280018, stride := 0x20, count := 4096 }, -- FAB.WIN(3, w) word 3
  { base := 0x13400000, stride := 0x10, count := 1024, st := 0x1FFFFFFFFFF }, -- FAB.RDIR word 0
  { base := 0x13400008, stride := 0x10, count := 1024, st := 0xFFFFFFFFFFFFFFFF } -- FAB.RDIR word 1
  ]

/-- The registers of MEM. -/
def regMem : List RegRow := [
  { base := 0x20000000, stride := 0x8, count := 1 }, -- MEM.ECC_CORR_CNT
  { base := 0x20000008, stride := 0x8, count := 1 }, -- MEM.ECC_UNCORR_CNT
  { base := 0x20000010, stride := 0x8, count := 1 }, -- MEM.ZERO_FILL_CNT
  { base := 0x20000018, stride := 0x8, count := 1 }, -- MEM.PAR_IN_ERR_CNT
  { base := 0x20000020, stride := 0x8, count := 1 }, -- MEM.REGION_REJECT_CNT
  { base := 0x20000028, stride := 0x8, count := 1 }, -- MEM.TAG_WAIT_CNT
  { base := 0x20000100, stride := 0x8, count := 28 }, -- MEM.STACK_STATE
  { base := 0x20001000, stride := 0x8, count := 64, st := 0xFFFFFFFFFFFFFFFF } -- MEM.REGION
  ]

/-- The registers of LOAD. -/
def regLoad : List RegRow := [
  { base := 0x21000000, stride := 0x40, count := 1, st := 0x1FFFF000FFFFF }, -- RING.CONFIG of the load rings
  { base := 0x21000008, stride := 0x40, count := 1, st := 0xFFFFFFFFFFFF }, -- RING.BASE of the load rings
  { base := 0x21000010, stride := 0x40, count := 1 }, -- RING.PTR of the load rings
  { base := 0x21000018, stride := 0x40, count := 1 }, -- RING.DROP_CNT of the load rings
  { base := 0x21000040, stride := 0x40, count := 1, st := 0x1FFFF000FFFFF }, -- RING.CONFIG of the load response rings
  { base := 0x21000048, stride := 0x40, count := 1, st := 0xFFFFFFFFFFFF }, -- RING.BASE of the load response rings
  { base := 0x21000050, stride := 0x40, count := 1 }, -- RING.PTR of the load response rings
  { base := 0x21000058, stride := 0x40, count := 1 }, -- RING.DROP_CNT of the load response rings
  { base := 0x21000100, stride := 0x8, count := 1 }, -- LOAD.JOB_CNT
  { base := 0x21000108, stride := 0x8, count := 1 }, -- LOAD.REFUSE_CNT
  { base := 0x21000110, stride := 0x8, count := 1 }, -- LOAD.SHARD_RETRY_CNT
  { base := 0x21000118, stride := 0x8, count := 1 }, -- LOAD.SHARD_FAIL_CNT
  { base := 0x21000120, stride := 0x8, count := 1 }, -- LOAD.PROM_COMMIT_CNT
  { base := 0x21000128, stride := 0x8, count := 1 }, -- LOAD.ROLLBACK_CNT
  { base := 0x21000130, stride := 0x8, count := 1 }, -- LOAD.PARK_CNT
  { base := 0x21000138, stride := 0x8, count := 1 }, -- LOAD.INGEST_BYTE_CNT
  { base := 0x21004000, stride := 0x8, count := 1024 } -- LOAD.INST
  ]

/-- The registers of SRV. -/
def regSrv : List RegRow := [
  { base := 0x22000000, stride := 0x8, count := 1, st := 0xFFFFFFFFFFFF }, -- SRV.CTRL
  { base := 0x22000008, stride := 0x8, count := 1, rw := 0xFFFFF }, -- SRV.HSEL
  { base := 0x22000010, stride := 0x8, count := 1 }, -- SRV.HVIEW0
  { base := 0x22000018, stride := 0x8, count := 1 }, -- SRV.HVIEW1
  { base := 0x22000100, stride := 0x8, count := 1 }, -- SRV.REQ_CNT
  { base := 0x22000108, stride := 0x8, count := 1 }, -- SRV.REFUSE_CNT
  { base := 0x22000110, stride := 0x8, count := 1 }, -- SRV.SEQ_END_CNT
  { base := 0x22000118, stride := 0x8, count := 1 }, -- SRV.TOKEN_CNT
  { base := 0x22000120, stride := 0x8, count := 1 }, -- SRV.ADMIT_WAIT_CNT
  { base := 0x22000128, stride := 0x8, count := 1 }, -- SRV.KV_FULL_CNT
  { base := 0x22000130, stride := 0x8, count := 1 }, -- SRV.BACKPRESSURE_CNT
  { base := 0x22000138, stride := 0x8, count := 1 }, -- SRV.PREFIX_HIT_CNT
  { base := 0x22000140, stride := 0x8, count := 1 }, -- SRV.PREFIX_STALE_CNT
  { base := 0x22000148, stride := 0x8, count := 1 }, -- SRV.MASK_EMPTY_CNT
  { base := 0x22000150, stride := 0x8, count := 1 }, -- SRV.NOTICE_CNT
  { base := 0x22010000, stride := 0x40, count := 256, st := 0x1FFFF000FFFFF }, -- RING.CONFIG of the request rings
  { base := 0x22010008, stride := 0x40, count := 256, st := 0xFFFFFFFFFFFF }, -- RING.BASE of the request rings
  { base := 0x22010010, stride := 0x40, count := 256 }, -- RING.PTR of the request rings
  { base := 0x22010018, stride := 0x40, count := 256 }, -- RING.DROP_CNT of the request rings
  { base := 0x22010020, stride := 0x40, count := 256, st := 0x7 }, -- SRV.RQ_BIND
  { base := 0x22020000, stride := 0x40, count := 256, st := 0x1FFFF000FFFFF }, -- RING.CONFIG of the response rings
  { base := 0x22020008, stride := 0x40, count := 256, st := 0xFFFFFFFFFFFF }, -- RING.BASE of the response rings
  { base := 0x22020010, stride := 0x40, count := 256 }, -- RING.PTR of the response rings
  { base := 0x22020018, stride := 0x40, count := 256 }, -- RING.DROP_CNT of the response rings
  { base := 0x22030000, stride := 0x20, count := 1024, st := 0xFFFFFFFFFFFFFFFF }, -- SRV.IFACE word 0
  { base := 0x22030008, stride := 0x20, count := 1024, st := 0xFFFFFFFFFFFFFF }, -- SRV.IFACE word 1
  { base := 0x22030010, stride := 0x20, count := 1024, st := 0xFFFFFFFFF }, -- SRV.IFACE word 2
  { base := 0x22030018, stride := 0x20, count := 1024 }, -- SRV.IFACE word 3
  { base := 0x22040000, stride := 0x8, count := 4096 }, -- SRV.ADAPTER
  { base := 0x22050000, stride := 0x8, count := 64 }, -- SRV.GRAM
  { base := 0x22600000, stride := 0x20, count := 65536 }, -- SRV.SEQ word 0
  { base := 0x22600008, stride := 0x20, count := 65536 }, -- SRV.SEQ word 1
  { base := 0x22600010, stride := 0x20, count := 65536 }, -- SRV.SEQ word 2
  { base := 0x22600018, stride := 0x20, count := 65536 } -- SRV.SEQ word 3
  ]

/-- The registers of CHO. -/
def regCho : List RegRow := [
  { base := 0x30000000, stride := 0x8, count := 1, st := 0xFFFFF }, -- CHO.STALL_LIMIT
  { base := 0x30000008, stride := 0x8, count := 1 }, -- CHO.LAST_REJECT
  { base := 0x30000010, stride := 0x8, count := 1 }, -- CHO.VIOL_INFO
  { base := 0x30000018, stride := 0x8, count := 1 }, -- CHO.VIOL_ADDR
  { base := 0x30000100, stride := 0x8, count := 1 }, -- CHO.PLACE_REJECT_CNT
  { base := 0x30000108, stride := 0x8, count := 1 }, -- CHO.LOAD_REJECT_CNT
  { base := 0x30000110, stride := 0x8, count := 1 }, -- CHO.COMMIT_CNT
  { base := 0x30000118, stride := 0x8, count := 1 }, -- CHO.REPLAY_CNT
  { base := 0x30000120, stride := 0x8, count := 1 }, -- CHO.ABORT_CNT
  { base := 0x30000128, stride := 0x8, count := 1 }, -- CHO.STALL_CNT
  { base := 0x30000130, stride := 0x8, count := 1 }, -- CHO.VIOL_CNT
  { base := 0x30001000, stride := 0x8, count := 1024 }, -- CHO.DOM_STATE
  { base := 0x30003000, stride := 0x8, count := 1024, wo := 0x7 } -- CHO.DOM_CTRL
  ]

/-- The registers of NUM. -/
def regNum : List RegRow := [
  { base := 0x31000000, stride := 0x8, count := 1 }, -- NUM.STATUS
  { base := 0x31000100, stride := 0x8, count := 64 }, -- NUM.FLAG_SUMMARY
  { base := 0x31010000, stride := 0x40, count := 4096 }, -- NUM.CLIP_CNT
  { base := 0x31010008, stride := 0x40, count := 4096 }, -- NUM.CLIP_FINAL_CNT
  { base := 0x31010010, stride := 0x40, count := 4096 }, -- NUM.ZERO_BLOCK_CNT
  { base := 0x31010018, stride := 0x40, count := 4096 }, -- NUM.SAT_BLOCK_CNT
  { base := 0x31010020, stride := 0x40, count := 4096 }, -- NUM.SIDESTEP_OVF_CNT
  { base := 0x31010028, stride := 0x40, count := 4096 }, -- NUM.POISON_CNT
  { base := 0x31010030, stride := 0x40, count := 4096, st := 0xFFFFFFFFFFFFFFFF }, -- NUM.LTHR
  { base := 0x31010038, stride := 0x40, count := 4096, w1c := 0x3F } -- NUM.LFLAG
  ]

/-- The registers of REP. -/
def regRep : List RegRow := [
  { base := 0x32000000, stride := 0x8, count := 1 }, -- REP.MAP_GEN
  { base := 0x32000008, stride := 0x8, count := 1, st := 0x1 }, -- REP.CTRL
  { base := 0x32000010, stride := 0x8, count := 1 }, -- REP.LANE_ERR_CNT
  { base := 0x32000018, stride := 0x8, count := 1 }, -- REP.LANE_SWAP_CNT
  { base := 0x32000020, stride := 0x8, count := 1 }, -- REP.LINK_RETIRE_CNT
  { base := 0x32000028, stride := 0x8, count := 1 }, -- REP.SYNC_PLANE_ERR_CNT
  { base := 0x32000030, stride := 0x8, count := 1 }, -- REP.SYNC_MISMATCH_CNT
  { base := 0x32000038, stride := 0x8, count := 1 }, -- REP.ARRAY_SUSPECT_CNT
  { base := 0x32000040, stride := 0x8, count := 1 }, -- REP.ARRAY_RETIRE_CNT
  { base := 0x32000048, stride := 0x8, count := 1 }, -- REP.CONV_SWAP_CNT
  { base := 0x32000050, stride := 0x8, count := 1 }, -- REP.MIRROR_MISMATCH_CNT
  { base := 0x32000058, stride := 0x8, count := 1 }, -- REP.PATROL_CNT
  { base := 0x32000060, stride := 0x8, count := 1 }, -- REP.REFRESH_CNT
  { base := 0x32000068, stride := 0x8, count := 1 }, -- REP.ARRAY_WORN_CNT
  { base := 0x32000070, stride := 0x8, count := 1 }, -- REP.REPAIR_HOLD_CNT
  { base := 0x32000078, stride := 0x8, count := 1 }, -- REP.RESIDUE_ERR_CNT
  { base := 0x32000080, stride := 0x8, count := 1 }, -- REP.LOCKSTEP_ERR_CNT
  { base := 0x32000088, stride := 0x8, count := 1 }, -- REP.SCR_PARITY_ERR_CNT
  { base := 0x32000090, stride := 0x8, count := 1 }, -- REP.TILE_REPAIR_REQ_CNT
  { base := 0x32000098, stride := 0x8, count := 1 }, -- REP.TILE_RETIRE_CNT
  { base := 0x320000A0, stride := 0x8, count := 1 }, -- REP.FIELD_RETIRE_CNT
  { base := 0x320000A8, stride := 0x8, count := 1 }, -- REP.PAIR_SWAP_CNT
  { base := 0x320000B0, stride := 0x8, count := 1 }, -- REP.PHASE_FAIL_CNT
  { base := 0x320000B8, stride := 0x8, count := 1 }, -- REP.SUPPLY_FAULT_CNT
  { base := 0x320000C0, stride := 0x8, count := 1 }, -- REP.TILE_TEST_CNT
  { base := 0x320000C8, stride := 0x8, count := 1 }, -- REP.PAIR_LOCKSTEP_ERR_CNT
  { base := 0x32000100, stride := 0x8, count := 49 }, -- REP.FIELD_STATE
  { base := 0x32000300, stride := 0x8, count := 7 }, -- REP.CLUSTER_STATE
  { base := 0x32000400, stride := 0x8, count := 64 } -- REP.DOMAIN_HEALTH
  ]

/-- The registers of DBG. -/
def regDbg : List RegRow := [
  { base := 0x33000000, stride := 0x8, count := 1 }, -- DBG.STATUS
  { base := 0x33000008, stride := 0x8, count := 1 }, -- DBG.HAZ_INFO
  { base := 0x33000010, stride := 0x8, count := 1 }, -- DBG.HAZ_ADDR
  { base := 0x33000020, stride := 0x8, count := 1, rw := 0xFF, wo := 0x100 }, -- DBG.TRACE_CTRL
  { base := 0x33000028, stride := 0x8, count := 1 }, -- DBG.TRACE_PTR
  { base := 0x33000030, stride := 0x8, count := 1, rw := 0xFFF }, -- DBG.TRACE_SEL
  { base := 0x33000100, stride := 0x8, count := 1 }, -- DBG.HAZ_CNT
  { base := 0x33000108, stride := 0x8, count := 1 } -- DBG.TRACE_DROP_CNT
  ]

/-- The registers of BEAT. -/
def regBeat : List RegRow := [
  { base := 0x34000000, stride := 0x8, count := 1 }, -- BEAT.STATUS
  { base := 0x34000008, stride := 0x8, count := 1 }, -- BEAT.HORIZON
  { base := 0x34000010, stride := 0x8, count := 1 }, -- BEAT.PERIOD
  { base := 0x34000100, stride := 0x8, count := 1 }, -- BEAT.BEAT_CNT
  { base := 0x34000108, stride := 0x8, count := 1 }, -- BEAT.FRAME_CNT
  { base := 0x34000110, stride := 0x8, count := 1 }, -- BEAT.STRETCH_CNT
  { base := 0x34000118, stride := 0x8, count := 1 }, -- BEAT.STRETCH_PERIOD_CNT
  { base := 0x34000120, stride := 0x8, count := 1 } -- BEAT.REPLAY_CNT
  ]

/-- The registers of the block at `block × 2^24` (R449). -/
def regBlock (block : Nat) : List RegRow :=
  match block with
  | 0x0 => regKeep
  | 0x1 => regSec
  | 0x2 => regPwr
  | 0x3 => regThm
  | 0x4 => regHkc
  | 0x5 => regCal
  | 0x6 => regLedg
  | 0x7 => regNvm
  | 0x8 => regCfg
  | 0x10 => regHost
  | 0x11 => regSvc
  | 0x12 => regTnp
  | 0x13 => regFab
  | 0x20 => regMem
  | 0x21 => regLoad
  | 0x22 => regSrv
  | 0x30 => regCho
  | 0x31 => regNum
  | 0x32 => regRep
  | 0x33 => regDbg
  | 0x34 => regBeat
  | _ => []

/-- The registers of the window of a tile of kind `k` (0 CIM, 1 vector, 2 scalar, 3 none), by offset (R450). -/
def tileRegs (k : Nat) : List RegRow :=
  [
    { base := 0x0, stride := 0x8, count := 1 }, -- TILEW.ID
    { base := 0x8, stride := 0x8, count := 1 }, -- TILEW.STATE
    { base := 0x10, stride := 0x8, count := 1, rw := 0x3FC000 }, -- TILEW.APER_BASE
    { base := 0x1000, stride := 0x8, count := 32 }, -- TILEW.SEG_TENANT
    { base := 0x400, stride := 0x8, count := 34 }, -- RTRW.LANE_TALLY(0, g)
    { base := 0x510, stride := 0x8, count := 34 }, -- RTRW.LANE_TALLY(1, g)
    { base := 0x620, stride := 0x8, count := 34 }, -- RTRW.LANE_TALLY(2, g)
    { base := 0x730, stride := 0x8, count := 34 }, -- RTRW.LANE_TALLY(3, g)
    { base := 0x840, stride := 0x8, count := 34 }, -- RTRW.LANE_TALLY(4, g)
    { base := 0xA00, stride := 0x8, count := 4 }, -- RTRW.SPARE_USE
    { base := 0xA20, stride := 0x8, count := 1 }, -- RTRW.SYNC_STATE
    { base := 0x100, stride := 0x8, count := 1 }, -- TILEW.SCR_PARITY_ERR_CNT
    { base := 0x108, stride := 0x8, count := 1 }, -- TILEW.TENANT_VIOL_CNT
    { base := 0x110, stride := 0x8, count := 1 } -- TILEW.SEG_CLEAR_CNT
  ] ++
  (if k == 0 then [
    { base := 0x8000, stride := 0x8, count := 17 }, -- CIMW.ARRAY_STATE
    { base := 0x8100, stride := 0x8, count := 17 }, -- CIMW.ARRAY_CYCLES
    { base := 0x8200, stride := 0x8, count := 1 }, -- CIMW.PASS_CNT
    { base := 0x8208, stride := 0x8, count := 1 }, -- CIMW.TPASS_CNT
    { base := 0x8210, stride := 0x8, count := 1 }, -- CIMW.ZSKIP_CNT
    { base := 0x8218, stride := 0x8, count := 1 }, -- CIMW.CLIP_CNT
    { base := 0x8220, stride := 0x8, count := 1 }, -- CIMW.SPLIT_CNT
    { base := 0x8228, stride := 0x8, count := 1 }, -- CIMW.CLIP_FINAL_CNT
    { base := 0x8230, stride := 0x8, count := 1 }, -- CIMW.MIRROR_MISMATCH_CNT
    { base := 0x8238, stride := 0x8, count := 1 }, -- CIMW.PATROL_CNT
    { base := 0x8240, stride := 0x8, count := 1 }, -- CIMW.TOUCH_CNT
    { base := 0x8248, stride := 0x8, count := 1 }, -- CIMW.PROG_CNT
    { base := 0x8250, stride := 0x8, count := 1 } -- CIMW.PROG_FAIL_CNT
  ] else []) ++
  (if k == 1 then [
    { base := 0x8100, stride := 0x8, count := 1 }, -- VECW.SIMD_OP_CNT
    { base := 0x8108, stride := 0x8, count := 1 }, -- VECW.DOT_CHUNK_CNT
    { base := 0x8110, stride := 0x8, count := 1 }, -- VECW.SAMPLE_CNT
    { base := 0x8118, stride := 0x8, count := 1 } -- VECW.RESIDUE_ERR_CNT
  ] else []) ++
  (if k == 2 then [
    { base := 0x8100, stride := 0x8, count := 1 }, -- SCLW.INSTR_CNT
    { base := 0x8108, stride := 0x8, count := 1 } -- SCLW.LOCKSTEP_ERR_CNT
  ] else [])

/-! ### Ring descriptors (R135) -/

/-- The descriptor of a ring outside the sync blocks: RING.CONFIG; RING.BASE, RING.PTR and DROP_CNT follow. Rings
are numbered 0 to 255 request, 256 to 511 response, 512 load, 513 load response, 514 to 529 rack message. -/
def aRing (r : Nat) : Nat :=
  if r < 256 then 0x22010000 + 0x40 * r
  else if r < 512 then 0x22020000 + 0x40 * (r - 256)
  else if r = 512 then 0x21000000
  else if r = 513 then 0x21000040
  else 0x11003000 + 0x40 * (r - 514)

/-- The number of a ring. -/
def ringNo : RingId → Nat
  | .request q => q.toNat
  | .response q => 256 + q.toNat
  | .load => 512
  | .loadResponse => 513
  | .rackMsg m => 514 + m.toNat

/-! ### Lookup -/

/-- Whether a row holds an address. -/
def rowHas (a : Nat) (r : RegRow) : Bool :=
  decide (r.base ≤ a) && (a - r.base) % r.stride == 0 && decide ((a - r.base) / r.stride < r.count)

/-- The row of a management address: a block register or one of a tile window; none is unassigned. -/
def rowOf (a : Nat) : Option RegRow :=
  if a < 0x10000000000 then (regBlock (a / 0x1000000)).find? (rowHas a)
  else if a < 0x10000000000 + positions * 0x10000 then
    let t := (a - 0x10000000000) / 0x10000
    (tileRegs (tileKind t)).find? (rowHas (a % 0x10000))
  else none

/-! ### Reset values -/

/-- The reset value of THM.JCT_LIMITS, COOL_LIMITS, AUX_LIMITS, BRD_LIMITS, PUMP_AUTO and FLOW_CFG (R404). -/
def thmReset (a : Nat) : Nat :=
  if a = aThmJctLimits then pack [(0, 92), (8, 88), (16, 97), (24, 92), (32, 105), (40, 80)]
  else if a = aThmCoolLimits then pack [(0, 20), (8, 40), (16, 40), (24, 45)]
  else if a = aThmAuxLimits then
    pack [(0, 45), (8, 85), (16, 85), (24, 60), (32, 50), (40, 95), (48, 95), (56, 70)]
  else if a = aThmBrdLimits then
    pack [(0, 85), (8, 85), (16, 85), (24, 85), (32, 100), (40, 100), (48, 100), (56, 100)]
  else if a = aThmPumpAuto then pack [(0, 400), (10, 35), (18, 50)]
  else if a = aThmFlowCfg then pack [(16, 300), (26, 200)]
  else if a = aThmLoopCmd then pack [(1, 1000)]
  else if a = aThmFlow then pack [(10, 1000), (20, 1)]
  else 0

/-- The value of a register at reset where it is not zero. 'Image' fields read zero until an image is read
(DESIGN CHOICE, notes/assumptions/2.md), 'From field map' fields come from the factory map (note 3). -/
def regResetNat (a : Nat) : Nat :=
  match a / 0x1000000 with
  | 0x00 => if a = aKeepId then 0x00010000002A296F else 0
  | 0x02 =>
    if a = aPwrCap then pack [(0, 15500), (16, 620)]
    else if a = aPwrPower then pack [(16, 850)]
    else if a = aPwrDomain 0 then pack [(0, 800), (20, 1)]
    else if aPwrDomain 1 ≤ a ∧ a < aPwrDomain 64 then 750
    else 0
  | 0x03 => thmReset a
  | 0x04 => if a = aHkcBrdEta then pack [(0, 16515), (16, 16515), (32, 16515), (48, 16515)] else 0
  | 0x05 => if a = aCalStatus then 8 else if a = aCalCount then 1 else 0
  | 0x13 => if a = aFabRcompTmo then 10 else if a = aFabWinCloseTmo then 10 else 0
  | 0x22 => if a = aSrvCtrl then pack [(0, 1000), (16, 3600)] else 0
  | 0x30 => if a = aChoStallLimit then 2000 else 0
  | 0x32 =>
    if a = aRepCtrl then 1
    else if aRepFieldState 0 ≤ a ∧ a < aRepFieldState 49 then
      let n := (a - aRepFieldState 0) / 8
      pack [(0, factoryFieldState n), (4, b2n (attachFields.contains n || n == 21 || n == 27))]
        + (if fieldIsMem n then 0 else pack [(8, 12), (12, 4), (15, 1)])
    else if aRepClusterState 0 ≤ a ∧ a < aRepClusterState 7 then pack [(6, 1)]
    else 0
  | 0x33 => if a = aDbgTracePtr then pack [(32, 64)] else 0
  | _ => 0

/-- The applied value of a register at reset. -/
def regReset (a : Nat) : Word := BitVec.ofNat 64 (regResetNat a)

/-! ### Reading and writing the applied values -/

/-- The applied value of a register. -/
def State.reg64 (s : State) (a : Nat) : Word := kvGet (regReset a) a s.reg.vals

/-- The field [hi:lo] of the applied value of a register. -/
def State.rfld (s : State) (a hi lo : Nat) : Nat := fld (s.reg64 a) hi lo

/-- A one-bit field of a register. -/
def State.rbit (s : State) (a i : Nat) : Bool := bit (s.reg64 a).toNat i

/-- Set the applied value of a register. -/
def State.setReg (s : State) (a : Nat) (w : Word) : State :=
  { s with reg.vals := kvPut (regReset a) a w s.reg.vals }

/-- Set a field of the applied value of a register. -/
def State.setRfld (s : State) (a hi lo v : Nat) : State := s.setReg a (setFld (s.reg64 a) hi lo v)

/-- The next value of a counter that counts `n` events: it stays at its largest value (R13). -/
def satAdd (w : Word) (n : Nat) : Word := BitVec.ofNat 64 (min (w.toNat + n) (2 ^ 64 - 1))

/-- Count `n` events in a counter (R13). -/
def State.bumpBy (s : State) (a n : Nat) : State := s.setReg a (satAdd (s.reg64 a) n)

/-- Count one event in a counter (R13). -/
def State.bump (s : State) (a : Nat) : State := s.bumpBy a 1

/-- Set up what the module answers to the last access (R311, R312, R327). -/
def State.answer (s : State) (status : Nat) (data : List Byte) : State := { s with resp := { status, data } }

/-- The answer of an access that is taken, without data. -/
def State.ok (s : State) : State := s.answer 0 []

/-- The error status of an access that is turned away. -/
def State.err (s : State) : State := s.answer 1 []

/-- Whether the module is READY (R346). -/
def State.isReady (s : State) : Bool := s.rbit aKeepState 5

/-- Whether the module is in the recovery state (R347). -/
def State.inRecovery (s : State) : Bool := s.rbit aKeepState 6

/-- Whether a power domain is on (R405). -/
def State.domainOn (s : State) (d : Nat) : Bool := s.rbit (aPwrDomain d) 20

/-- Whether a field's domain is on. -/
def State.fieldOn (s : State) (f : Nat) : Bool := s.domainOn (fieldDomain f)

/-- FAB.FCOUNT, the fabric counter in ns (R303). -/
def State.fcount (s : State) : Word := s.reg64 aFabFcount

/-- LEDG.CALENDAR in seconds (R373). -/
def State.calendar (s : State) : Nat := (s.reg64 aLedgCalendar).toNat

end Sys2Proof.Machine
end

