-- ==== Sys2Proof/Machine/Journal.lean ====
section
/-! DEFINITION. What the module records of an event: the life-ledger journal and the fault log (R379, R383), the trace buffer (R452 to R454), frozen masters (R353) and violations (R172, R173). -/

namespace Sys2Proof.Machine

/-! ### Parts of the state -/

/-- A tile. -/
def State.tile (s : State) (t : Nat) : Tile := kvGet {} t s.wafer.tiles

/-- Replace a tile. -/
def State.setTile (s : State) (t : Nat) (x : Tile) : State :=
  { s with wafer.tiles := kvPut {} t x s.wafer.tiles }

/-- A replay domain by module domain number. -/
def State.dom (s : State) (d : Nat) : Domain := kvGet {} d s.con.doms

/-- Replace a replay domain. -/
def State.setDom (s : State) (d : Nat) (x : Domain) : State :=
  { s with con.doms := kvPut {} d x s.con.doms }

/-- The module domain of a tile, zero when it has none. -/
def State.domOf (s : State) (t : Nat) : Nat :=
  match (s.tile t).dom with
  | some d => d.toNat
  | none => 0

/-- A participant of a replay domain has made progress: its watchdog counts anew (R170). -/
def State.progress (s : State) (d : Nat) : State := { s with watch := kvDel d s.watch }

/-- A member tile has made progress. -/
def State.progressOf (s : State) (t : Nat) : State :=
  match (s.tile t).dom with
  | some d => s.progress d.toNat
  | none => s

/-- Whether a periodic function with a timer of `span` µs may run again (R5): that time has passed since it last ran. -/
def State.due (s : State) (timer span : Nat) : Bool :=
  match kvFind timer s.keep.lastAt with
  | some c => decide (c + span ≤ s.clock)
  | none => true

/-- A periodic function runs now. -/
def State.ranNow (s : State) (timer : Nat) : State := { s with keep.lastAt := kvSet timer s.clock s.keep.lastAt }

/-- Run a periodic function of the keeper crystal: sent again before its time has passed, its command does nothing (R5). The
timers are 1 the power measurement, 2 the pump demand, 3 the flow measurement, 4 the second of the temperature bands, 5 the
heartbeat, 6 the calendar broadcast, and 100 + d the throttle setpoint of domain d. DEDUCED (notes/assumptions/70.md). -/
def State.paced (s : State) (timer span : Nat) (k : State → Host.Outcome State Fault Refusal) : Host.Outcome State Fault Refusal :=
  if s.due timer span then k (s.ranNow timer) else .next s

/-- The state of a tile position in the current field map: 0 committed, 1 spare, 2 retired (R22). No tile of a spare
field is committed, and every tile of a retired field counts as retired (R19, R38). -/
def State.mapOf (s : State) (t : Nat) : Nat :=
  match s.rfld (aRepFieldState (fieldOf t)) 2 0 with
  | 1 => 1
  | 2 | 3 => 2
  | _ => (kvGet (factoryTile t) t s.wafer.map).toNat

/-- Set the state of a tile position in the field map. -/
def State.setMap (s : State) (t v : Nat) : State :=
  { s with wafer.map := kvPut (factoryTile t) t (BitVec.ofNat 2 v) s.wafer.map }

/-- Whether a calibration run has a field out of service (R416 order 5). -/
def State.inCal (s : State) (f : Nat) : Bool := s.keep.calOrder == 5 && s.rfld aCalStatus 9 4 == f

/-! ### The trace buffer -/

/-- Records the trace buffer holds: 64 MiB, or 2,112 MiB on IVP-7412-LX (R1, R452). -/
def State.traceSize (s : State) : Nat := s.rfld aDbgTracePtr 43 32 * 32768

/-- Write a 32-byte trace record of a source bit of TRACE_CTRL, or drop and count it (R452, R453). -/
def State.trace (s : State) (src type dom pos : Nat) (d0 d1 : Word) : State :=
  if !(s.domainOn 63 && s.rbit aDbgTraceCtrl 0 && s.rbit aDbgTraceCtrl src) then s
  else if s.rbit aDbgTracePtr 28 then s.bump aDbgTraceDropCnt
  else
    let next := s.rfld aDbgTracePtr 26 0
    let w1 : Word := BitVec.ofNat 64 (pack [(0, type), (4, dom), (14, pos), (32, (s.dom dom).steps.toNat)])
    let s := { s with dbg.trace := kvSet next [s.fcount, w1, d0, d1] s.dbg.trace }
    if next + 1 < s.traceSize then s.setRfld aDbgTracePtr 26 0 (next + 1)
    else if s.rbit aDbgTraceCtrl 7 then (s.setRfld aDbgTracePtr 26 0 0).setRfld aDbgTracePtr 27 27 1
    else (s.setRfld aDbgTracePtr 26 0 (next + 1)).setRfld aDbgTracePtr 28 28 1

/-! ### The journal and the fault log -/

/-- Take an entry into the fault log; one overwritten unread moves READ forward (R383). -/
def State.flogAdd (s : State) (e : Entry) : State :=
  let next := s.rfld aLedgFlogPtr 31 0
  let s := { s with keep.ledger.flog := kvSet (next % 1024) e s.keep.ledger.flog }
  let s := s.setRfld aLedgFlogPtr 31 0 ((next + 1) % 2 ^ 32)
  if (next + 1 + 2 ^ 32 - s.rfld aLedgFlogAck 31 0) % 2 ^ 32 > 1024 then
    (s.bump aLedgFlogOvfCnt).setRfld aLedgFlogAck 31 0 ((next + 1 + 2 ^ 32 - 1024) % 2 ^ 32)
  else s

/-- Write a journal entry (R379): kinds 0x10 to 0x1F are repair kinds and are traced, kinds 0x10 and above
enter the fault log, violations and faults are counted for the ledger's SUMMARY. -/
def State.journal (s : State) (kind : Nat) (payload : Nat) : State :=
  let e : Entry := { kind, time := BitVec.ofNat 32 s.calendar, payload := BitVec.ofNat 64 payload }
  let s := { s with keep.ledger.journal := s.keep.ledger.journal ++ [e] }
  let s := if 0x10 ≤ kind ∧ kind ≤ 0x1F then { s with keep.ledger.repairs := s.keep.ledger.repairs ++ [e] } else s
  let s := if 0x10 ≤ kind ∧ kind ≤ 0x1F then s.trace 6 5 0 0x3FFF e.payload (BitVec.ofNat 64 kind) else s
  let s := if kind = 0x20 then { s with keep.ledger.faults := s.keep.ledger.faults + 1 } else s
  let s := if kind = 0x21 then { s with keep.ledger.viols := s.keep.ledger.viols + 1 } else s
  if 0x10 ≤ kind then s.flogAdd e else s

/-- A FAULT entry (R379, R380): code, position, module domain number and detail. A position or domain that the spec does not
state is a free value (notes/assumptions/48.md). -/
def State.fault (s : State) (code : Nat) (pos dom : Option Nat) (detail : Nat) : State :=
  let n := s.keep.ledger.faults
  s.journal 0x20 (pack [(0, code), (8, pos.getD (Config.faultPos n).toNat), (22, dom.getD (Config.faultDom n).toNat),
    (32, detail % 2 ^ 32)])

/-! ### Frozen masters -/

/-- Whether a master is frozen, by its class and ID as CFG.FRZ_CMD codes them (R353, R359). -/
def State.frozenAt (s : State) (cls id : Nat) : Bool :=
  s.trust.frozen.any (fun f => f.cls.toNat == cls && f.id.toNat == id)

/-- Whether a tenant reset of a tag still waits for a running domain whose tiles carry it to stop (R354). -/
def State.resetWaits (s : State) (tag : BitVec 8) : Bool :=
  tag != 0 && s.con.doms.any (fun e =>
    (e.2.state == 2 || e.2.state == 3) && e.2.stopReq && e.2.members.any (fun t => (s.tile t).tenant == tag))

/-- Take note of the tenant resets that have completed: every master of such a tag that is frozen now froze before. -/
def State.resetsSettle (s : State) : State :=
  let done := s.trust.resets.filter (fun g => !s.resetWaits g)
  if done.isEmpty then s
  else { s with
    trust.frozen := s.trust.frozen.map (fun f => if done.contains f.tag then { f with reset := true } else f)
    trust.resets := s.trust.resets.filter s.resetWaits }

/-- Freeze a master and keep its tag; a master already frozen stays as it is (R353, R355). -/
def State.freezeMaster (s : State) (cls id tag : Nat) : State :=
  let s := s.resetsSettle
  if s.frozenAt cls id then s
  else { s with trust.frozen := s.trust.frozen ++
          [{ cls := BitVec.ofNat 3 cls, id := BitVec.ofNat 16 id, tag := BitVec.ofNat 8 tag, reset := false }] }

/-- The VIOLATION entry of a frozen master (R379): `code` is the kind of R172 or 16 + REASON of R293. -/
def State.violEntry (s : State) (cls id tag code addr : Nat) : State :=
  s.journal 0x21 (pack [(0, cls), (3, id), (19, tag), (27, code), (32, addr % 2 ^ 32)])

end Sys2Proof.Machine
end

