-- ==== Sys2Proof/Machine/Access.lean ====
section
/-! DEFINITION. How an access reaches the management registers (R311 to R314, R328, R329): which path reaches which block in which state, refusals, violations of the host agents, and staged values (R349 to R352). -/

namespace Sys2Proof.Machine

/-! ### Reach (R328) -/

/-- How an access fares before its block sees it. -/
inductive Reach where
  /-- The block answers. -/
  | served
  /-- The path is absent: Completer Abort or status 1. -/
  | absent
  /-- The window's domain is unpowered: it answers as an unassigned address. -/
  | dark
  deriving DecidableEq, Repr

/-- Whether an address belongs to a keeper block: KEEP to CFG. -/
def isKeeperAddr (a : Nat) : Bool := decide (a < 0x09000000)

/-- Whether an address lies in a tile window (R14). -/
def isTileAddr (a : Nat) : Bool := decide (0x10000000000 ≤ a) && decide (a < 0x10031000000)

/-- Whether an address lies in the scratch aperture of a tile window (R142). -/
def inAperture (a : Nat) : Bool := isTileAddr a && decide (0x4000 ≤ a % 0x10000) && decide (a % 0x10000 < 0x8000)

/-- The tile of a tile window address. -/
def tileOfAddr (a : Nat) : Nat := (a - 0x10000000000) / 0x10000

/-- Whether the keeper runs: KEEP_12V is present and the keeper is out of reset (R345, R346). -/
def State.keeperRuns (s : State) : Bool := s.keep.pins.keep12v && s.rfld aKeepState 4 0 != 0

/-- Whether a control cluster's domain is powered. -/
def State.anyCluster (s : State) : Bool := (List.range 7).any (fun i => s.domainOn (50 + i))

/-- Whether an orderly stop runs or has ended the module's work until the next start (R401, R402). -/
def State.stopping (s : State) : Bool := s.keep.stop.isSome

/-- Whether outputs have been released by an orderly stop (R402). -/
def State.outputsReleased (s : State) : Bool :=
  match s.keep.stop with
  | some st => decide (5 ≤ st.stage)
  | none => false

/-- Whether an address is a trace register or the trace window, which PD_DBG holds (R178, R452). -/
def isTraceAddr (a : Nat) : Bool :=
  (decide (0x33000020 ≤ a) && decide (a ≤ 0x33000030)) || a == 0x33000108 ||
    (decide (0x33100000 ≤ a) && decide (a < 0x33200000))

/-- Whether the domain that holds a wafer-side block or window is powered (R39). -/
def State.blockOn (s : State) (a : Nat) : Bool :=
  if isTileAddr a then s.fieldOn (fieldOf (tileOfAddr a))
  else
    match a / 0x1000000 with
    | 0x10 => s.domainOn 62
    | 0x11 => s.domainOn 61
    | 0x33 => !isTraceAddr a || s.domainOn 63
    | _ => s.anyCluster

/-- Whether the host link is in L0 or L1. -/
def State.hostUp (s : State) : Bool :=
  s.rfld aHostLinkState 2 0 == 2 || s.rfld aHostLinkState 2 0 == 3

/-- How an access fares by its path (R328): with its CXL.io stream lost the host has none (R317), and a write of SEC.PROVISION
reaches its block in the recovery state too, which refuses it (R329). -/
def State.reach (s : State) (path : Path) (a : Nat) (write : Bool) : Reach :=
  if !s.keep.pins.keep12v then .absent
  else
    match path with
    | .host =>
      if !s.hostUp || s.outputsReleased || s.ideLost.getLsbD 0 then .absent
      else if s.inRecovery then
        match a / 0x1000000 with
        | 0 => .served
        | 1 => if write && a != aSecProvision then .absent else .served
        | 7 => .served
        | _ => .absent
      else if isKeeperAddr a || s.blockOn a then .served
      else if isTileAddr a && !write then .absent
      else .dark
    | _ =>
      if isKeeperAddr a then .served
      else if s.inRecovery || s.outputsReleased || !s.anyCluster || decide (s.rfld aKeepState 4 0 < 9) then .absent
      else if s.blockOn a then .served
      else .dark

/-! ### Refusals and violations -/

/-- The tag of a host agent (R313): 0 the I/O agent, 1 the memory agent. -/
def State.agentTag (s : State) (agent : Nat) : Nat := s.rfld aHostAgent (8 * agent + 7) (8 * agent)

/-- Record an access of a host agent in HOST.ERR_INFO and HOST.ERR_ADDR (R330). -/
def State.hostNote (s : State) (kind agent : Nat) (write : Bool) (a : Nat) : State :=
  (s.setReg aHostErrInfo (BitVec.ofNat 64 (pack [(0, kind), (4, agent), (5, b2n write), (6, s.agentTag agent)]))).setReg
    aHostErrAddr (BitVec.ofNat 64 (a % 2 ^ 48))

/-- An access refused on its path (R312, R329): kind 1 size or alignment, 2 field type. The host port records and
counts it. -/
def State.refuse (s : State) (path : Path) (kind : Nat) (write : Bool) (a : Nat) : State :=
  match path with
  | .host => ((s.hostNote kind 0 write a).bump aHostAccErrCnt).err
  | _ => s.err

/-- A violation of a host agent (R314): the agent freezes, and the violation is recorded and counted. -/
def State.hostViolate (s : State) (kind agent : Nat) (write : Bool) (a : Nat) : State :=
  let tag := s.agentTag agent
  let s := (s.hostNote kind agent write a).freezeMaster 2 agent tag
  let s := s.bump aHostViolCnt
  (s.violEntry 2 agent tag 4 a).err

/-- The ring whose descriptor registers hold an address, and the offset in them (R135). -/
def ringRegOf (a : Nat) : Option (Nat × Nat) :=
  let hit := fun (base n first : Nat) =>
    if base ≤ a ∧ a < base + 0x40 * n ∧ (a - base) % 0x40 < 0x20 then some (first + (a - base) / 0x40, (a - base) % 0x40) else none
  (hit 0x22010000 256 0).or ((hit 0x22020000 256 256).or ((hit 0x21000000 2 512).or (hit 0x11003000 16 514)))

/-- Whether the host's I/O agent may reach an address that is in no append or consume window, with its tag (R313): a nonzero
tag reaches only RING.PTR and DROP_CNT of rings of its tag, and scratch apertures, whose segment is checked for itself. -/
def State.agentMay (s : State) (a : Nat) : Bool :=
  s.agentTag 0 == 0 || inAperture a ||
    (match ringRegOf a with
      | some (r, off) => decide (0x10 ≤ off) && s.rfld (aRing r) 15 8 == s.agentTag 0
      | none => false)

/-- Run an access of `n` bytes to a register or window: an absent path or a frozen I/O agent gets an error, an I/O agent beyond
its tag commits a tenant violation (R313), an access whose size or alignment is not permitted there (`fit`) is refused
(R312), and a dark block answers zero and takes nothing, but for the trace registers, whose writes are refused (R452). -/
def State.accessOf (s : State) (n : Nat) (fit : Bool) (path : Path) (a : Nat) (write : Bool) (k : State → State) : State :=
  if path == .host && s.frozenAt 2 0 then s.err
  else
    match s.reach path a write with
    | .absent => s.err
    | .dark =>
      if !fit then s.refuse path 1 write a
      else if write && isTraceAddr a then s.refuse path 2 true a
      else s.answer 0 (if write then [] else List.replicate n 0)
    | .served =>
      if path == .host && !s.agentMay a then s.hostViolate 4 0 write a
      else if !fit then s.refuse path 1 write a
      else k s

/-- An access to a register, of 8 bytes. -/
def State.access (s : State) (path : Path) (a : Nat) (write : Bool) (k : State → State) : State := s.accessOf 8 true path a write k

/-! ### Staged values (R349 to R352) -/

/-- The ST bits of a register. -/
def stMask (a : Nat) : Nat := match rowOf a with
  | some r => r.st
  | none => 0

/-- A word with the bits of a mask taken from another word. -/
def mergeMask (mask : Nat) (old new : Word) : Word :=
  (old &&& ~~~(BitVec.ofNat 64 mask)) ||| (new &&& BitVec.ofNat 64 mask)

/-- The committed value of a register: applied, or waiting for its safe point. -/
def State.committedOf (s : State) (a : Nat) : Word :=
  match kvFind a s.reg.committed with
  | some w => mergeMask (stMask a) (s.reg64 a) w
  | none => s.reg64 a

/-- The staged value of a register, which reads return. -/
def State.stagedOf (s : State) (a : Nat) : Word :=
  match kvFind a s.reg.staged with
  | some w => mergeMask (stMask a) (s.reg64 a) w
  | none => s.committedOf a

/-- Stage a value: the ST bits of `w`. A staged value equal to the committed one is not listed. -/
def State.stage (s : State) (a : Nat) (w : Word) : State :=
  let v := mergeMask (stMask a) (s.committedOf a) w
  { s with reg.staged := if v = s.committedOf a then kvDel a s.reg.staged else kvSet a v s.reg.staged }

/-- Apply the committed value of a register at its safe point (R351). -/
def State.applyReg (s : State) (a : Nat) : State :=
  match kvFind a s.reg.committed with
  | some w => { s.setReg a (mergeMask (stMask a) (s.reg64 a) w) with reg.committed := kvDel a s.reg.committed }
  | none => s

end Sys2Proof.Machine
end

