-- ==== Sys2Proof/Machine/StackMem.lean ====
section
/-! DEFINITION. The stack memory (R206, R207, R210 to R212): regions, page tags, zero-fill (R139), bytes and the poison pattern. -/

namespace Sys2Proof.Machine

/-! ### Regions and pages -/

/-- The page of a module stack address (R207). -/
def pageOf (a : Nat) : Nat := a / 65536

/-- Field values of MEM.REGION(r) (R242). -/
def State.regionFirst (s : State) (r : Nat) : Nat := s.rfld (aMemRegion r) 25 0
def State.regionPages (s : State) (r : Nat) : Nat := s.rfld (aMemRegion r) 51 26
def State.regionKind (s : State) (r : Nat) : Nat := s.rfld (aMemRegion r) 55 52
def State.regionTenant (s : State) (r : Nat) : Nat := s.rfld (aMemRegion r) 63 56

/-- The region that holds a page (R211). -/
def State.regionOf (s : State) (p : Nat) : Option Nat :=
  (List.range 64).find? (fun r => decide (s.regionFirst r ≤ p) && decide (p < s.regionFirst r + s.regionPages r))

/-- The tenant tag of a page; a page in no region belongs to no tenant (R212, R249). -/
def State.pageTag (s : State) (p : Nat) : Option Nat :=
  match s.regionOf p with
  | none => none
  | some r =>
    match kvFind p s.mem.pageTags with
    | some v => some v.toNat
    | none => some (s.regionTenant r)

/-- Change the tenant tag of a page: a page whose tag changes is marked for zero-fill (R139, R249). -/
def State.retag (s : State) (p tag : Nat) : State :=
  let own := match s.regionOf p with
    | some r => s.regionTenant r
    | none => 0
  if s.pageTag p = some tag then s
  else { s with
    mem.pageTags := kvPut (BitVec.ofNat 8 own) p (BitVec.ofNat 8 tag) s.mem.pageTags
    mem.zeroFill := natAdd p s.mem.zeroFill }

/-- Whether an address names a stack that exists (R207, R212). -/
def stackAddrOk (a : Nat) : Bool := decide (a < 28 * 2 ^ 37)

/-- Whether a master of a tenant may access a byte range of the stacks (R137, R212). -/
def State.stackAllows (s : State) (tenant a n : Nat) : Bool :=
  stackAddrOk (a + n - 1) &&
    (List.range (pageOf (a + n - 1) + 1 - pageOf a)).all (fun i =>
      match s.pageTag (pageOf a + i) with
      | none => false
      | some g => tenant == 0 || g == tenant)

/-! ### The HDM window (R213) -/

/-- The regions behind the HDM window in order: kind, first byte and length. -/
def State.hdmRegions (s : State) : List (Nat × Nat × Nat) :=
  ((List.range 64).filter (fun r => (s.regionKind r == 6 || s.regionKind r == 7) && s.regionPages r != 0)).map
    (fun r => (s.regionKind r, s.regionFirst r * 65536, s.regionPages r * 65536))

/-- The region kind and stack address that an offset falls on. -/
def hdmFind (off : Nat) : List (Nat × Nat × Nat) → Option (Nat × Nat)
  | [] => none
  | (k, a, n) :: r => if off < n then some (k, a + off) else hdmFind (off - n) r

/-- The region kind and stack address of an HDM offset; none beyond the mapped regions. -/
def State.hdmAt (s : State) (off : Nat) : Option (Nat × Nat) := hdmFind off s.hdmRegions

/-! ### Reading and writing -/

/-- The first access to a page marked for zero-fill fills it with zero and counts the fill (R139). -/
def State.pageTouch (s : State) (p : Nat) : State :=
  if s.mem.zeroFill.contains p then
    ({ s with
        mem.stack := memClear (p * 65536) 65536 s.mem.stack
        mem.stackBad := s.mem.stackBad.filter (fun w => w / 2048 != p)
        mem.zeroFill := natDel p s.mem.zeroFill }).bump aMemZeroFillCnt
  else s

/-- A write that covers a whole page clears its mark without a fill (R139). -/
def State.pageCover (s : State) (p : Nat) : State := { s with mem.zeroFill := natDel p s.mem.zeroFill }

/-- The page accesses of a byte range: a write that covers a page needs no fill. -/
def State.pagesTouch (s : State) (write : Bool) (a n : Nat) : State :=
  (List.range (pageOf (a + n - 1) + 1 - pageOf a)).foldl (fun s i =>
    let p := pageOf a + i
    if write && decide (a ≤ p * 65536) && decide ((p + 1) * 65536 ≤ a + n) then s.pageCover p else s.pageTouch p) s

/-- Bytes of the stacks as an access finds them: a page marked for zero-fill is filled before the access proceeds (R139). -/
def State.stk (s : State) (a n : Nat) : List Byte :=
  let bs := memRead 0 a n s.mem.stack
  if s.mem.zeroFill.isEmpty then bs
  else bs.zipIdx.map (fun e => if s.mem.zeroFill.contains (pageOf (a + e.2)) then 0 else e.1)

/-- Whether the word of an address holds the poison pattern; a page marked for zero-fill has good ECC. -/
def State.stkBad (s : State) (a : Nat) : Bool :=
  s.mem.stackBad.contains (a / 32) && !s.mem.zeroFill.contains (pageOf a)

/-- The 64-bit words of a stack record. -/
def State.stkWords (s : State) (a n : Nat) : List Word := wordsOf (s.stk a (8 * n))

/-- Write bytes with good parity to the stacks, after the pages' zero-fill. -/
def State.stkWrite (s : State) (a : Nat) (bs : List Byte) : State :=
  if bs.isEmpty then s
  else
    let s := s.pagesTouch true a bs.length
    { s with
      mem.stack := memWrite 0 a bs s.mem.stack
      mem.stackBad := s.mem.stackBad.filter (fun w => !(decide (a ≤ w * 32) && decide (w * 32 + 32 ≤ a + bs.length))) }

/-- Bytes of the HDM window; none where a byte lies beyond the regions. -/
def State.hdmBytes (s : State) (off : Nat) : Nat → Option (List Byte)
  | 0 => some []
  | n + 1 =>
    match s.hdmAt off, s.hdmBytes (off + 1) n with
    | some (_, a), some r => some (s.stk a 1 ++ r)
    | _, _ => none

/-- The page accesses of a read through the HDM window (R139). -/
def State.hdmTouch (s : State) (off n : Nat) : State :=
  (List.range n).foldl (fun s i => match s.hdmAt (off + i) with
    | some (_, a) => s.pageTouch (pageOf a)
    | none => s) s

/-- Whether every byte of a range of the HDM window is mapped and has good parity (R210). -/
def State.hdmGood (s : State) (off n : Nat) : Bool :=
  (List.range n).all (fun i => match s.hdmAt (off + i) with
    | some (_, a) => !s.stkBad a && !(s.rfld (aMemStackState (a / 2 ^ 37)) 1 0 == 2)
    | none => false)

/-- The 32-bit number at an HDM offset. -/
def State.hdmHalf (s : State) (off : Nat) : Option Nat := (s.hdmBytes off 4).map leNat

/-- Write bytes through the HDM map, one after another; bytes beyond the regions go nowhere. -/
def State.hdmWrite (s : State) (off : Nat) : List Byte → State
  | [] => s
  | b :: r =>
    let s := match s.hdmAt off with
      | some (_, a) => s.stkWrite a [b]
      | none => s
    s.hdmWrite (off + 1) r

/-- Whether a stack is offline (R370). -/
def State.stackOffline (s : State) (k : Nat) : Bool := s.rfld (aMemStackState k) 1 0 == 2

/-- The poison pattern in the 32-byte word of an address (R210). -/
def State.stkPoison (s : State) (w : Nat) : State :=
  ({ s with
      mem.stack := memWrite 0 (w * 32) ((List.range 32).map (fun i => Config.poisonByte (w * 32 + i))) s.mem.stack
      mem.stackBad := natAdd w s.mem.stackBad }).bump aMemParInErrCnt

/-- Write one incoming flit: a word with a byte of bad parity takes the poison pattern (R210). -/
def State.stkFlit (s : State) (a : Nat) (f : Flit) : State :=
  let s := s.stkWrite a f.bytes
  ((f.bad.map (fun i => (a + i) / 32)).eraseDups).foldl (fun s w => s.stkPoison w) s

/-- Write consecutive flits. -/
def State.stkFlits (s : State) (a : Nat) : List Flit → State
  | [] => s
  | f :: r => (s.stkFlit a f).stkFlits (a + 128) r

/-- A flit read from a stack: bytes of poisoned words, and every byte of an uncorrectable read, have bad
parity (R210). -/
def State.stkRead (s : State) (a : Nat) (allBad : Bool) : Flit :=
  { bytes := s.stk a 128
    bad := (List.range 128).filter (fun i => allBad || s.stkBad (a + i)) }

end Sys2Proof.Machine
end

