-- ==== Sys2Proof/Machine/Rings.lean ====
section
/-! DEFINITION. Rings outside the field sync blocks (R127 to R136): the descriptor, the pointers, the slots, and how the module's own producers and consumers append and release. -/

namespace Sys2Proof.Machine

/-- A ring by number (`ringNo`). -/
def State.ring (s : State) (r : Nat) : Ring := kvGet {} r s.mem.rings

/-- Replace a ring. -/
def State.setRing (s : State) (r : Nat) (x : Ring) : State := { s with mem.rings := kvPut {} r x s.mem.rings }

/-! ### The descriptor (R135) -/

/-- COUNT; 0 marks the ring unused. -/
def State.ringCount (s : State) (r : Nat) : Nat := s.rfld (aRing r) 48 32
/-- POLICY: 0 HOLD, 1 DROP. -/
def State.ringPolicy (s : State) (r : Nat) : Nat := s.rfld (aRing r) 3 2
/-- TENANT. -/
def State.ringTenant (s : State) (r : Nat) : Nat := s.rfld (aRing r) 15 8
/-- ENABLE. -/
def State.ringEnabled (s : State) (r : Nat) : Bool := s.rbit (aRing r) 16
/-- The number of append windows; an unused ring keeps all 8. -/
def State.ringWindows (s : State) (r : Nat) : Nat := if s.ringCount r = 0 then 8 else s.rfld (aRing r) 19 17 + 1
/-- ESZ in bytes; an unused ring keeps the entry size of its family. -/
def State.ringEsz (s : State) (r : Nat) : Nat :=
  if s.ringCount r = 0 ∨ s.rfld (aRing r) 7 4 < 6 then (if r = 512 then 128 else 64) else 2 ^ s.rfld (aRing r) 7 4
/-- The counter DROP_CNT. -/
def aRingDrop (r : Nat) : Nat := aRing r + 0x18

/-! ### Pointers (R128) -/

/-- Occupancy. -/
def State.ringHolds (s : State) (r : Nat) : Nat :=
  let n := s.ringCount r
  ((s.ring r).tail + 2 * n - (s.ring r).head) % (2 * n)

/-- Whether the ring is full; an unused ring is empty. -/
def State.ringFull (s : State) (r : Nat) : Bool := decide (0 < s.ringCount r) && s.ringHolds r == s.ringCount r

/-- Whether the ring can take an entry. -/
def State.ringSpace (s : State) (r : Nat) : Bool :=
  decide (0 < s.ringCount r) && s.ringEnabled r && !s.ringFull r

/-- RING.PTR (R135): indices and wrap bits of head and tail. -/
def State.ringPtr (s : State) (r : Nat) : Nat :=
  let n := s.ringCount r
  if n = 0 then 0
  else
    let x := s.ring r
    pack [(0, x.head % n), (17, x.head / n), (32, x.tail % n), (49, x.tail / n)]

/-! ### Slots -/

/-- Bytes of slot `i`, by LOC: tile scratch, cluster SRAM or stack memory. -/
def State.slotRead (s : State) (r i : Nat) : List Byte :=
  let base := s.rfld (aRing r + 8) 47 0
  let esz := s.ringEsz r
  match s.rfld (aRing r) 1 0 with
  | 0 => memRead 0 (bits base 37 24 * 2 ^ 22 + bits base 21 0 + esz * i) esz s.wafer.scratch
  | 1 => memRead 0 (bits base 34 32 * 2 ^ 25 + bits base 24 0 + esz * i) esz s.mem.sram
  | _ => s.stk (base + esz * i) esz

/-- The page accesses of a read of slot `i` (R139). -/
def State.slotTouch (s : State) (r i : Nat) : State :=
  if s.rfld (aRing r) 1 0 < 2 then s
  else s.pagesTouch false (s.rfld (aRing r + 8) 47 0 + s.ringEsz r * i) (s.ringEsz r)

/-- Write slot `i`. -/
def State.slotWrite (s : State) (r i : Nat) (bs : List Byte) : State :=
  let base := s.rfld (aRing r + 8) 47 0
  let esz := s.ringEsz r
  match s.rfld (aRing r) 1 0 with
  | 0 =>
    let a := bits base 37 24 * 2 ^ 22 + bits base 21 0 + esz * i
    { s with
      wafer.scratch := memWrite 0 a bs s.wafer.scratch
      wafer.scratchBad := s.wafer.scratchBad.filter (fun k => !(decide (a ≤ k) && decide (k < a + bs.length))) }
  | 1 => { s with mem.sram := memWrite 0 (bits base 34 32 * 2 ^ 25 + bits base 24 0 + esz * i) bs s.mem.sram }
  | _ => s.stkWrite (base + esz * i) bs

/-- Write an entry at the tail, then advance the tail (R131). -/
def State.ringPut (s : State) (r : Nat) (bs : List Byte) : State :=
  let n := s.ringCount r
  let s := s.slotWrite r ((s.ring r).tail % n) bs
  s.setRing r { s.ring r with tail := ((s.ring r).tail + 1) % (2 * n) }

/-- The bytes of the head entry; zero while the ring is empty (R134). -/
def State.ringHead (s : State) (r : Nat) : List Byte :=
  if s.ringHolds r = 0 then List.replicate (s.ringEsz r) 0 else s.slotRead r ((s.ring r).head % s.ringCount r)

/-- The page accesses of a read of the head entry. -/
def State.headTouch (s : State) (r : Nat) : State :=
  if s.ringHolds r = 0 then s else s.slotTouch r ((s.ring r).head % s.ringCount r)

/-- Release the head entry. -/
def State.ringPop (s : State) (r : Nat) : State :=
  if s.ringHolds r = 0 then s
  else s.setRing r { s.ring r with head := ((s.ring r).head + 1) % (2 * s.ringCount r) }

/-- An entry of a module producer: a ring that is disabled or unused discards it, a full ring drops it or keeps
its producer waiting by its policy (R132). -/
def State.ringEmit (s : State) (r : Nat) (bs : List Byte) : State :=
  let bs := bs ++ List.replicate (s.ringEsz r - bs.length) 0
  if s.ringCount r = 0 || !s.ringEnabled r then s.bump (aRingDrop r)
  else if s.ringFull r || !(s.ring r).outbox.isEmpty then
    if s.ringPolicy r = 0 then s.setRing r { s.ring r with outbox := (s.ring r).outbox ++ [bs] }
    else s.bump (aRingDrop r)
  else s.ringPut r bs

end Sys2Proof.Machine
end

