-- ==== Sys2Proof/Machine/LoadCore.lean ====
section
/-! DEFINITION. Model instances and load jobs as every unit sees them (R216, R218, R219, R240): descriptor fields, load responses, the end of a job, and what a stopped stage does to its instance (R233, R259). -/

namespace Sys2Proof.Machine

/-! ### Instances (R216) -/

/-- A model instance. -/
def State.inst (s : State) (i : Nat) : Inst := kvGet {} i s.load.insts

/-- Replace an instance. -/
def State.setInst (s : State) (i : Nat) (x : Inst) : State := { s with load.insts := kvPut {} i x s.load.insts }

/-- A loaded choreography. -/
def State.choOf (s : State) (c : Nat) : Option Cho := kvFind c s.con.chos

/-- The module domain numbers of a loaded choreography. -/
def State.choDoms (s : State) (c : Nat) : List Nat :=
  match s.choOf c with
  | some x => x.doms.map (fun d => d.2.toNat)
  | none => []

/-- The module domain of a local domain of a choreography. -/
def State.choDom (s : State) (c loc : Nat) : Option Nat :=
  match s.choOf c with
  | some x => (x.doms.find? (fun d => d.1 == loc)).map (fun d => d.2.toNat)
  | none => none

/-- The instance that a replay domain's choreography is bound to. -/
def State.domInst (s : State) (d : Nat) : Option Nat :=
  match s.choOf (s.dom d).cho with
  | some x => x.inst.map (·.toNat)
  | none => none

/-- The module domain of stage `k` of an instance (R228). -/
def State.stageDom (s : State) (i k : Nat) : Option Nat :=
  match (s.inst i).cho, (s.inst i).stages[k]? with
  | some c, some st => s.choDom c st.dom
  | _, _ => none

/-- The stage of an instance that a domain is. -/
def State.domStage (s : State) (i d : Nat) : Option Nat :=
  (List.range (s.inst i).stages.length).find? (fun k => s.stageDom i k == some d)

/-! ### Descriptors (R219) -/

/-- OP. -/
def descOp (d : List Word) : Nat := recFld d 0 7 0
/-- POLICY: true parks. -/
def descPark (d : List Word) : Bool := bit (wordAt d 0).toNat 8
/-- SEQ: true continues. -/
def descCont (d : List Word) : Bool := bit (wordAt d 0).toNat 9
/-- MODE: true is STREAMED. -/
def descStream (d : List Word) : Bool := bit (wordAt d 0).toNat 10
/-- TENANT. -/
def descTenant (d : List Word) : Nat := recFld d 0 23 16
/-- INSTANCE. -/
def descInst (d : List Word) : Nat := recFld d 0 33 24
/-- GEN. -/
def descGen (d : List Word) : Nat := recFld d 0 63 48
/-- NSHARD. -/
def descShards (d : List Word) : Nat := recFld d 3 31 0
/-- SHADOW_BASE. -/
def descShadow (d : List Word) : Nat := recFld d 6 47 0
/-- OBJECT. -/
def descObject (d : List Word) : Nat := recFld d 8 17 6
/-- RANK. -/
def descRank (d : List Word) : Nat := recFld d 8 24 18
/-- NSTAGE + 1. -/
def descStages (d : List Word) : Nat := recFld d 8 5 0 + 1

/-! ### Load responses (R240) -/

/-- The number of the load response ring. -/
def respRing : Nat := 513

/-- CHO_ID of an instance's choreography, zero when it has none. -/
def State.instChoId (s : State) (i : Nat) : Nat :=
  match (s.inst i).cho with
  | some c => match s.choOf c with
    | some x => x.image.choId.toNat
    | none => 0
  | none => 0

/-- A load response entry of a job: KIND, STATUS, REASON, LSLOT, COUNT and FREED. LSLOT and COUNT of an entry to which R240
gives them no meaning are free values. -/
def State.loadResp (s : State) (j : Job) (kind status reason lslot count freed : Nat) : State :=
  let i := descInst j.desc
  let free := Config.fresh s.freeCtr
  let lslot := if kind = 1 then lslot else fld free 11 0
  let count := if kind = 1 ∨ kind = 2 ∨ status = 9 then count % 2 ^ 32 else fld free 63 32
  s.tickFree.ringEmit respRing
    (natLe 8 (pack [(0, kind), (8, status), (16, i), (32, (s.inst i).gen.toNat), (48, descOp j.desc), (56, reason)])
      ++ natLe 8 (wordAt j.desc 1).toNat
      ++ natLe 8 (pack [(0, j.arrays % 2 ^ 32), (32, j.retries % 65536), (48, lslot)])
      ++ natLe 8 (pack [(0, count), (32, s.instChoId i)])
      ++ natLe 8 freed
      ++ natLe 4 (s.clock - j.started) ++ List.replicate 20 0)

/-- Replace a job in the list, by position. -/
def State.setJob (s : State) (k : Nat) (j : Job) : State := { s with load.jobs := s.load.jobs.set k j }

/-- A job ends: its FINAL is written and it leaves the list (R218, R240). -/
def State.jobEnd (s : State) (k status reason count freed : Nat) : State :=
  match s.load.jobs[k]? with
  | none => s
  | some j =>
    let left := match j.src with
      | .manifest m => natDel m s.load.left
      | .ring => s.load.left
    ({ s with load.jobs := s.load.jobs.eraseIdx k, load.left := left } : State).loadResp j 0 status reason 0 count freed

/-- The running job of an instance: the first of the list that names it and has started. -/
def State.jobOf (s : State) (i : Nat) : Option Nat :=
  s.load.jobs.findIdx? (fun j => descInst j.desc == i && j.phase != .waiting)

/-! ### What a sequence holds (R249, R258, R264, R266, R274) -/

/-- Fields of SRV.IFACE(i) (R274). -/
def State.ifaceB (s : State) (i : Nat) : Nat := s.rfld (aSrvIface i) 11 0 + 1
def State.ifacePmax (s : State) (i : Nat) : Nat := s.rfld (aSrvIface i) 15 12 + 1
def State.ifaceInQ (s : State) (i : Nat) : Nat := s.rfld (aSrvIface i) 31 16
def State.ifaceHome (s : State) (i : Nat) : Nat := s.rfld (aSrvIface i) 34 32
def State.ifaceKvp (s : State) (i : Nat) : Nat := s.rfld (aSrvIface i) 42 35 + 1
def State.ifaceNotice (s : State) (i : Nat) : Nat := s.rfld (aSrvIface i) 50 43
def State.ifaceTs (s : State) (i : Nat) : Nat := s.rfld (aSrvIface i) 62 51
def State.ifaceOn (s : State) (i : Nat) : Bool := s.rbit (aSrvIface i) 63
def State.ifaceBase (s : State) (i : Nat) : Nat := s.rfld (aSrvIface i + 8) 47 0
def State.ifaceDepth (s : State) (i : Nat) : Nat := s.rfld (aSrvIface i + 8) 55 48 + 1
def State.ifaceVocab (s : State) (i : Nat) : Nat := s.rfld (aSrvIface i + 16) 17 0 + 1
def State.ifaceCtx (s : State) (i : Nat) : Nat := s.rfld (aSrvIface i + 16) 35 18 + 1

/-- A sequence record. -/
def State.seqRec (s : State) (n : Nat) : SeqRec := kvGet {} n s.srv.seqs
/-- Replace a sequence record. -/
def State.setSeq (s : State) (n : Nat) (q : SeqRec) : State := { s with srv.seqs := kvPut {} n q s.srv.seqs }
/-- A prefix handle. -/
def State.handle (s : State) (h : Nat) : Handle := kvGet {} h s.srv.handles
/-- Replace a prefix handle. -/
def State.setHandle (s : State) (h : Nat) (x : Handle) : State := { s with srv.handles := kvPut {} h x s.srv.handles }
/-- An adapter. -/
def State.adapterRec (s : State) (a : Nat) : AdapterRec := kvGet {} a s.srv.adapters
/-- Replace an adapter. -/
def State.setAdapter (s : State) (a : Nat) (x : AdapterRec) : State :=
  { s with srv.adapters := kvPut {} a x s.srv.adapters }
/-- A grammar. -/
def State.gramRec (s : State) (g : Nat) : GramRec := kvGet {} g s.srv.grams
/-- Replace a grammar. -/
def State.setGram (s : State) (g : Nat) (x : GramRec) : State := { s with srv.grams := kvPut {} g x s.srv.grams }

/-- PENDING of a grammar number (R264): a job waits for its users to go, or writes its object. -/
def State.gramWaits (s : State) (g : Nat) : Bool :=
  s.load.jobs.any (fun j => descOp j.desc == 8 && descObject j.desc == g &&
    (j.phase == .writing || (j.phase == .grammarWait && (s.gramRec g).users != 0)))

/-- Free KV pages of `k` stack pages each: they are retagged to tenant 0 (R249). Pages that a live handle still stands for
stay. -/
def State.kvFree (s : State) (k : Nat) (pages : List Nat) : State :=
  (pages.filter (fun p => !s.srv.handles.any (fun e => e.2.state != 0 && e.2.pages.contains p))).foldl (fun s p =>
    (List.range k).foldl (fun s i =>
      ({ s with srv.kvUsed := natDel (p + i) s.srv.kvUsed } : State).retag (p + i) 0) s) s

/-- The handle index is free again, its check count advanced, and its pages are freed (R258). -/
def State.handleFree (s : State) (h : Nat) : State :=
  let x := s.handle h
  (s.setHandle h { check := x.check + 1 }).kvFree (s.ifaceKvp x.inst.toNat) x.pages

/-- One user of a handle's pages goes; at the count of 0 the handle is freed (R258). -/
def State.handleDrop (s : State) (h : Nat) : State :=
  let x := s.handle h
  if x.state = 0 then s
  else if 1 < x.refs then s.setHandle h { x with refs := x.refs - 1 }
  else s.handleFree h

/-- The stack pages that a list of `n` KV page numbers takes. -/
def listPages (n : Nat) : Nat := (4 * n + 65535) / 65536

/-- A sequence gives back its pages, its share of a handle, its adapter and its grammar. -/
def State.seqRelease (s : State) (n : Nat) : State :=
  let q := s.seqRec n
  let s := match q.handle with
    | some h => s.handleDrop h.toNat
    | none => s
  let s := match q.made with
    | some h => s.handleDrop h.toNat
    | none => s
  let s := if q.state == 1 then s
    else (s.kvFree (s.ifaceKvp q.inst.toNat) q.pages).kvFree 1
      ((List.range (listPages (q.prefixTok / 16 + q.pages.length))).map (fun i => q.listPage + i))
  let s := if q.adapterEn || q.tune then
      let a := s.adapterRec q.adapter.toNat
      s.setAdapter q.adapter.toNat { a with users := a.users - 1, tuning := a.tuning && !q.tune }
    else s
  let s := if q.grammarEn && q.state != 1 then
      let g := s.gramRec q.grammar.toNat
      s.setGram q.grammar.toNat { g with users := g.users - 1 }
    else s
  { s with srv.waits := s.srv.waits.map (fun e => (e.1, natDel n e.2)) }

/-! ### Sequences (R262, R259) -/

/-- A sequence gives back what it holds; its FINAL with a status follows (R262). -/
def State.closeSeq (s : State) (n : Nat) (status : Nat) : State :=
  let q := s.seqRec n
  (s.seqRelease n).setSeq n { q with
    state := 5, ending := some (BitVec.ofNat 8 status), pages := [], listPage := 0, handle := none, made := none
    adapterEn := false, tune := false, grammarEn := false, inFlight := false }

/-- A sequence ends with a status (R262). -/
def State.endSeq (s : State) (n : Nat) (status : Nat) : State :=
  let q := s.seqRec n
  if q.state = 0 ∨ q.ending.isSome then s
  else
    let s := s.closeSeq n status
    let s := if status = 4 then s.bump aSrvMaskEmptyCnt else s
    s.bump aSrvSeqEndCnt

/-- Every admitted sequence of an instance ends with a status. -/
def State.endSeqs (s : State) (i status : Nat) : State :=
  (s.srv.seqs.filter (fun e => e.2.inst.toNat == i && decide (2 ≤ e.2.state.toNat))).foldl
    (fun s e => s.endSeq e.1 status) s

/-- A stage has stopped by abort, stall, violation or a retired tile (R233, R259): the sequences of its instance
end, and a job that loads its weights, or has begun its promenade, ends with STAGE_STOPPED and the instance parks; one that
still serves its old generation goes on. DEDUCED (notes/assumptions/150.md). -/
def State.stageStopped (s : State) (d : Nat) : State :=
  match s.domInst d with
  | none => s
  | some i =>
    let s := s.endSeqs i 8
    let st := (s.inst i).state.toNat
    if st = 1 ∨ st = 4 ∨ st = 5 ∨ st = 6 then
      let s := if st = 6 then s else (s.setInst i { s.inst i with state := 6 }).bump aLoadParkCnt
      match s.jobOf i with
      | some k => s.jobEnd k 0x0C 0 0 0
      | none => s
    else s

end Sys2Proof.Machine
end

