-- ==== Sys2Proof/Machine/Violation.lean ====
section
/-! DEFINITION. Stopped replay domains, violations (R172, R173) and Loupe's detections (R176). -/

namespace Sys2Proof.Machine

/-- Stop a replay domain in use: its STATE says why (R178). The tiles keep their state. A stop by abort, stall or
violation stops the stage of an instance (R233, R259). -/
def State.stopDom (s : State) (d st : Nat) : State :=
  if (s.dom d).state = 0 then s
  else
    let s := s.setDom d { s.dom d with state := BitVec.ofNat 4 st }
    if st = 4 ∨ st = 5 ∨ st = 6 then s.stageStopped d else s

/-- Record the kind, tenant, tile, domain and address of a violation and count it (R173, R178). -/
def State.recordViol (s : State) (kind tag t d addr : Nat) : State :=
  let s := s.setReg aChoViolInfo (BitVec.ofNat 64 (pack [(0, kind), (8, tag), (16, t), (32, d)]))
  let s := s.setReg aChoViolAddr (BitVec.ofNat 64 (addr % 2 ^ 48))
  s.bump aChoViolCnt

/-- A violation by a tile master (R172, R173): the access has no effect, the master freezes, the violation is
recorded and counted, and the domain stops with STATE 6. `obj` is the tile that holds the object of a kind 4
access, where a tile holds it (R137). -/
def State.violate (s : State) (t kind addr : Nat) (obj : Option Nat) : State :=
  let x := s.tile t
  let d := s.domOf t
  let s := s.freezeMaster 0 t x.tenant.toNat
  let s := s.recordViol kind x.tenant.toNat t d addr
  let s := match kind, obj with
    | 4, some o => s.bump (aTilewTenantViolCnt o)
    | _, _ => s
  let s := s.violEntry 0 t x.tenant.toNat kind addr
  let s := s.trace 3 2 d t (s.reg64 aChoViolInfo) (s.reg64 aChoViolAddr)
  s.stopDom d 6

/-- A detection by Loupe (R176): it is recorded and counted, and the domain stops with STATE 8. -/
def State.hazard (s : State) (check t d obj addr : Nat) : State :=
  let s := s.setReg aDbgHazInfo (BitVec.ofNat 64 (pack [(0, check), (16, t), (32, d)]))
  let s := s.setReg aDbgHazAddr (BitVec.ofNat 64 (pack [(0, addr % 2 ^ 26), (30, obj), (32, (s.dom d).steps.toNat)]))
  let s := s.bump aDbgHazCnt
  let s := s.trace 4 3 d t (s.reg64 aDbgHazInfo) (s.reg64 aDbgHazAddr)
  s.stopDom d 8

end Sys2Proof.Machine
end

