-- ==== Sys2Proof/Machine/Operands.lean ====
section
/-! DEFINITION. Every operand form of the tile instructions: pointer registers, scratch operands and their checks (R172, R180 to R183), parity at consumption (R114, R115), general registers, the loop stack and the program index (R182, R187), and the frame every tile instruction runs in. -/

namespace Sys2Proof.Machine

/-! ### Sequencer registers (R182) -/

/-- Pointer register n of a sequencer. -/
def seqPtr (q : Seq) (n : BitVec 4) : Ptr := q.ptrs[n.toNat]'(by have := n.isLt; omega)

/-- Set pointer register n. -/
def seqSetPtr (q : Seq) (n : BitVec 4) (p : Ptr) : Seq :=
  { q with ptrs := q.ptrs.set n.toNat p (by have := n.isLt; omega) }

/-- General register n; GP0 reads zero. -/
def seqGp (q : Seq) (n : BitVec 5) : Word :=
  if n = 0 then 0 else q.gp[n.toNat]'(by have := n.isLt; omega)

/-- Write general register n; GP0 ignores writes. -/
def seqSetGp (q : Seq) (n : BitVec 5) (v : Word) : Seq :=
  if n = 0 then q else { q with gp := q.gp.set n.toNat v (by have := n.isLt; omega) }

/-- Add STRIDE, modulo 2^22, to every pointer register that a mask names (R187), for the registers below k. -/
def seqAdvance (mask : BitVec 16) (q : Seq) : Nat → Seq
  | 0 => q
  | k + 1 =>
    let q := seqAdvance mask q k
    if mask.getLsbD k then
      let p := seqPtr q (BitVec.ofNat 4 k)
      seqSetPtr q (BitVec.ofNat 4 k) { p with addr := p.addr + p.stride }
    else q

/-- The end of loop bodies at instruction `i` (R187): the innermost body that ends there advances its pointers,
then repeats or is left; a body left may end the body around it. -/
def seqLoopEnd (i : Nat) : List LoopLevel → Seq → Seq
  | [], q => { q with idx := BitVec.ofNat 13 (i + 1), loops := [] }
  | l :: r, q =>
    if l.last = i then
      let q := seqAdvance l.adv q 16
      if l.remain = 0 then seqLoopEnd i r q
      else { q with idx := BitVec.ofNat 13 l.start, loops := { l with remain := l.remain - 1 } :: r }
    else { q with idx := BitVec.ofNat 13 (i + 1), loops := l :: r }

/-- Move to the next instruction. -/
def seqNext (q : Seq) : Seq := seqLoopEnd q.idx.toNat q.loops q

/-- Continue at an instruction index (R187): a target outside a body leaves that loop level. -/
def seqJump (target : Nat) (q : Seq) : Seq :=
  { q with idx := BitVec.ofNat 13 target,
           loops := q.loops.dropWhile (fun l => !(decide (l.start ≤ target) && decide (target ≤ l.last))) }

/-! ### Scratch (R112, R114) -/

/-- The address of a scratch byte in `Wafer.scratch`. -/
def scrKey (t a : Nat) : Nat := t * 2 ^ 22 + a

/-- `n` scratch bytes of a tile. -/
def State.scr (s : State) (t a n : Nat) : List Byte := memRead 0 (scrKey t a) n s.wafer.scratch

/-- The scratch bytes with bad parity in a range. -/
def State.scrBad (s : State) (t a n : Nat) : List Nat :=
  s.wafer.scratchBad.filter (fun k => decide (scrKey t a ≤ k) && decide (k < scrKey t a + n))

/-- A write of a tile unit: the bytes, with good parity (R114). -/
def State.scrWrite (s : State) (t a : Nat) (bs : List Byte) : State :=
  { s with
    wafer.scratch := memWrite 0 (scrKey t a) bs s.wafer.scratch
    wafer.scratchBad := s.wafer.scratchBad.filter
      (fun k => !(decide (scrKey t a ≤ k) && decide (k < scrKey t a + bs.length))) }

/-- Mark scratch bytes, given by offset from `a`, as holding bad parity. -/
def State.scrSpoil (s : State) (t a : Nat) : List Nat → State
  | [] => s
  | i :: r => ({ s with wafer.scratchBad := natAdd (scrKey t a + i) s.wafer.scratchBad }).scrSpoil t a r

/-- Mark the current attempt of a tile for replay: the mark travels with the tile's arrival; what is found after the tile has
arrived marks the attempt at once (R164). -/
def State.markTile (s : State) (t : Nat) : State :=
  let d := s.domOf t
  if (s.tile t).dom.isSome && (s.dom d).arrived.contains t then s.setDom d { s.dom d with mark := true }
  else s.setTile t { s.tile t with mark := true }

/-- Mark a tile for repair at the next step boundary of its domain (R115, R124, R126), by cause: 1 parity,
2 residue, 3 lockstep. -/
def State.requestRepair (s : State) (t cause : Nat) : State :=
  let x := s.tile t
  if x.repairPending then s
  else
    let s := s.setTile t { x with repairPending := true, repairCause := cause, repairTimes := s.clock :: x.repairTimes }
    let d := s.domOf t
    let s := if (s.tile t).dom.isSome then
        s.setDom d { s.dom d with repairTiles := natAdd t (s.dom d).repairTiles }
      else s
    s.bump aRepTileRepairReqCnt

/-- One access with parity errors in a segment; a second within 1 s asks for the tile's repair (R115). -/
def State.segError (s : State) (t seg : Nat) : State :=
  let x := s.tile t
  let again := match kvFind seg x.segErr with
    | some c => decide (s.clock ≤ c + 1000000)
    | none => false
  let s := s.setTile t { x with segErr := kvSet seg s.clock x.segErr }
  if again then s.requestRepair t 1 else s

/-- The segments, without repeats, of a list of failing byte keys of a tile. -/
def badSegs (t : Nat) (bad : List Nat) : List Nat := (bad.map (fun k => (k - scrKey t 0) / 16384)).eraseDups

/-- Scratch parity errors met by one access of a tile unit (R115): each failing byte is counted, the step is
marked for replay, and each segment that holds one counts one error. -/
def State.parityError (s : State) (t : Nat) (bad : List Nat) : State :=
  if bad.isEmpty then s
  else
    let s := (s.bumpBy (aTilewScrParityErrCnt t) bad.length).bumpBy aRepScrParityErrCnt bad.length
    (badSegs t bad).foldl (fun s g => s.segError t g) (s.markTile t)

/-! ### The checks of an access (R137, R172, R175, R183) -/

/-- One access of a tile instruction to its scratch. `uses` is false for a copy that does not consume the bytes
(R114). -/
structure Access where
  write : Bool
  uses  : Bool
  addr  : Nat
  len   : Nat
  deriving DecidableEq, Repr

/-- A read that consumes. -/
def rdAcc (a n : Nat) : Access := { write := false, uses := true, addr := a, len := n }
/-- A read that copies the stored parity. -/
def cpAcc (a n : Nat) : Access := { write := false, uses := false, addr := a, len := n }
/-- A write. -/
def wrAcc (a n : Nat) : Access := { write := true, uses := false, addr := a, len := n }

/-- What the checks of an access find. -/
inductive Finding where
  | clear
  | viol (kind addr : Nat)
  | haz (check addr : Nat)
  deriving DecidableEq, Repr

/-- The tenant tag of a segment; program memory is always tagged 0 (R137, R142). -/
def State.segTag (s : State) (t seg : Nat) : Nat :=
  if seg < 4 then 0 else (kvGet 0 seg (s.tile t).segTags).toNat

/-- The first segment in a range whose tag a tenant may not access, as its scratch offset (R137). -/
def State.tagClash (s : State) (t tenant seg last : Nat) : Nat → Option Nat
  | 0 => none
  | k + 1 =>
    if last < seg then none
    else if s.segTag t seg != tenant then some (seg * 16384)
    else s.tagClash t tenant (seg + 1) last k

/-- The scratch bytes of an access, as keys. -/
def accKeys (t : Nat) (a : Access) : List Nat := (List.range a.len).map (fun i => scrKey t (a.addr + i))

/-- Loupe's checks of an access (R175): bytes read before any write, bytes written after a read in the same
step (by an earlier instruction, or `before` by this one), landed bytes read before their flag is applied. -/
def State.loupeFind (s : State) (t : Nat) (before : List Nat) (a : Access) : Finding :=
  if !(s.dom (s.domOf t)).loupe then .clear
  else
    let ks := accKeys t a
    if a.write then
      match ks.find? (fun k => s.dbg.loupe.readNow.contains k || (before.contains k && !s.dbg.loupe.writtenNow.contains k)) with
      | some k => .haz 2 (k % 2 ^ 22)
      | none => .clear
    else
      match ks.find? (fun k => s.dbg.loupe.landed.contains k || s.dbg.loupe.announced.any (fun e => e.2.contains k)) with
      | some k => .haz 3 (k % 2 ^ 22)
      | none =>
        match ks.find? (fun k => !s.dbg.loupe.written.contains k) with
        | some k => .haz 1 (k % 2 ^ 22)
        | none => .clear

/-- Whether two live buffers overlap (R175, check 4). -/
def allocClash : List AllocRec → Bool
  | [] => false
  | r :: rest => rest.any (fun q => decide (r.start < q.start + q.len) && decide (q.start < r.start + r.len)) || allocClash rest

/-- Check 4 of Loupe (R175): an access outside every buffer that the allocation map gives the instruction. -/
def State.allocFind (s : State) (t : Nat) (a : Access) : Finding :=
  if !(s.dom (s.domOf t)).loupe then .clear
  else
    match kvFind (s.dom (s.domOf t)).cho s.con.chos with
    | none => .clear
    | some c =>
      let i := (s.tile t).seq.idx.toNat
      let mine := c.image.allocs.filter (fun r => r.tile == t && decide (r.first ≤ i) && decide (i ≤ r.last))
      if allocClash mine then .haz 4 a.addr
      else if mine.any (fun r => decide (r.start ≤ a.addr) && decide (a.addr + a.len ≤ r.start + r.len)) then .clear
      else .haz 4 a.addr

/-- The checks of one access of a tile's own instructions. -/
def State.findAcc (s : State) (t : Nat) (before : List Nat) (a : Access) : Finding :=
  if a.len = 0 then .clear
  else if a.write && decide (a.addr < 0x10000) then .viol 2 a.addr
  else if a.addr < 0x10000 ∨ kindScratch (tileKind t) < a.addr + a.len then .viol 1 a.addr
  else
    let tenant := (s.tile t).tenant.toNat
    match if tenant = 0 then none
          else s.tagClash t tenant (a.addr / 16384) ((a.addr + a.len - 1) / 16384) 257 with
    | some o => .viol 4 (max o a.addr)
    | none =>
      match s.allocFind t a with
      | .clear => s.loupeFind t before a
      | f => f

/-- The first finding of a list of accesses, after reads `before` of the same instruction. -/
def State.findAll (s : State) (t : Nat) (before : List Nat) : List Access → Finding
  | [] => .clear
  | a :: r =>
    match s.findAcc t before a with
    | .clear => s.findAll t (if a.write || !(s.dom (s.domOf t)).loupe then before else before ++ accKeys t a) r
    | f => f

/-- Loupe's shadow tags after an access: a read of a byte counts in its step until the step has written the byte. -/
def State.loupeTouch (s : State) (t : Nat) (a : Access) : State :=
  if !(s.dom (s.domOf t)).loupe then s
  else
    let ks := accKeys t a
    if a.write then
      { s with
        dbg.loupe.written := ks.foldl (fun l k => natAdd k l) s.dbg.loupe.written
        dbg.loupe.writtenNow := ks.foldl (fun l k => natAdd k l) s.dbg.loupe.writtenNow }
    else
      let fresh := ks.filter (fun k => !s.dbg.loupe.writtenNow.contains k)
      { s with dbg.loupe.readNow := fresh.foldl (fun l k => natAdd k l) s.dbg.loupe.readNow }

/-- Loupe's checks 2 and 3 of a write that no instruction of the tile makes (R175): the first byte of `n` at an offset that the
tile has read in the current step. -/
def State.readInStep (s : State) (t a n : Nat) : Option Nat :=
  if !(s.dom (s.domOf t)).loupe then none
  else ((accKeys t (wrAcc a n)).find? (fun k => s.dbg.loupe.readNow.contains k)).map (fun k => k % 2 ^ 22)

/-- The object of a detection at a scratch byte, with its address (R178): the queue in whose storage the byte lies, else the
byte. DESIGN CHOICE (notes/assumptions/171.md). -/
def State.loupeObj (s : State) (t a : Nat) : Nat × Nat :=
  match s.con.queues.find? (fun e => e.2.cho.isSome && e.2.consumer == t && decide (e.2.store ≤ a) &&
      decide (a < e.2.store + 128 * e.2.depth)) with
  | some e => (2, e.1)
  | none => (0, a)

/-- A detection of Loupe at a scratch byte of a tile. -/
def State.scratchHazard (s : State) (check t a : Nat) : State :=
  let o := s.loupeObj t a
  s.hazard check t (s.domOf t) o.1 o.2

/-- Bytes from outside the choreography land in tile scratch with good parity when they arrive (R159). Under Loupe, a byte
that the current step has read is a detection of check 3 (R175); the bytes land all the same. DESIGN CHOICE
(notes/assumptions/149.md). -/
def State.landScratch (s : State) (t a : Nat) (bs : List Byte) : State :=
  let hit := s.readInStep t a bs.length
  let s := s.scrWrite t a bs
  let s : State := if (s.dom (s.domOf t)).loupe then
      let ks := accKeys t (wrAcc a bs.length)
      { s with
        dbg.loupe.landed := ks.foldl (fun l k => natAdd k l) s.dbg.loupe.landed
        dbg.loupe.written := ks.foldl (fun l k => natAdd k l) s.dbg.loupe.written }
    else s
  match hit with
  | some b => s.scratchHazard 3 t b
  | none => s

/-- The accesses take place: a consuming read meets the bad bytes of its range. -/
def State.touch (s : State) (t : Nat) : List Access → State
  | [] => s
  | a :: r =>
    let s := if a.uses then s.parityError t (s.scrBad t a.addr a.len) else s
    (s.loupeTouch t a).touch t r

/-- Run `k` after the checks of the accesses, or take the violation or detection they find. -/
def State.guarded (s : State) (t : Nat) (accs : List Access) (k : State → State) : State :=
  match s.findAll t [] accs with
  | .clear => k (s.touch t accs)
  | .viol kind a => s.violate t kind a (some t)
  | .haz c a => s.scratchHazard c t a

/-- The recipe record of a layer slot in the tile's choreography (R205, type 9). -/
def State.recipe (s : State) (t : Nat) (slot : BitVec 12) : Option RecipeRec :=
  match s.choOf (s.dom (s.domOf t)).cho with
  | some c => c.image.recipes.find? (fun r => r.slot == slot)
  | none => none

/-- Check 6 of Loupe (R175): run `k` unless the instruction differs from its recipe. The detection's address is that
of the instruction's word. DEDUCED (notes/assumptions/20.md). -/
def State.recipeGuard (s : State) (t : Nat) (bad : Bool) (k : State) : State :=
  if (s.dom (s.domOf t)).loupe && bad then s.hazard 6 t (s.domOf t) 0 (8 * (s.tile t).seq.idx.toNat) else k

/-! ### Pointer operands (R182, R183) -/

/-- The scratch address a pointer register names, aligned down to 16 bytes. -/
def State.ptr16 (s : State) (t : Nat) (n : BitVec 4) : Nat := (seqPtr (s.tile t).seq n).addr.toNat / 16 * 16

/-- The flit buffer a pointer register names, aligned down to 128 bytes. -/
def State.ptr128 (s : State) (t : Nat) (n : BitVec 4) : Nat := (seqPtr (s.tile t).seq n).addr.toNat / 128 * 128

/-! ### The frame of a tile instruction -/

/-- Change a tile's sequencer. -/
def State.modSeq (s : State) (t : Nat) (f : Seq → Seq) : State :=
  s.setTile t { s.tile t with seq := f (s.tile t).seq }

/-- A tile runs: it belongs to a running replay domain, its master is not frozen, and it waits for nothing
(R173, R178, R182). -/
def State.runs (s : State) (t : Nat) : Bool :=
  (s.tile t).dom.isSome && (s.dom (s.domOf t)).state == 2 && !s.frozenAt 0 t && (s.tile t).wait == .no

/-- A lockstep mismatch of a scalar pair (R126): the effects are suppressed, the step is marked for replay, and a
second mismatch within 1 s asks for the tile's repair. The instruction is executed again. -/
def State.lockstep (s : State) (t : Nat) : State :=
  let x := s.tile t
  let again := match x.lockAt with
    | some c => decide (s.clock ≤ c + 1000000)
    | none => false
  let s := ((s.setTile t { x with lockAt := some s.clock }).markTile t).bump (aSclwLockstepErrCnt t)
  let s := s.bump aRepLockstepErrCnt
  if again then s.requestRepair t 3 else s

/-- A residue mismatch of a vector tile (R124): the step is marked for replay, and a second mismatch within 1 s
asks for the tile's repair. -/
def State.residue (s : State) (t : Nat) : State :=
  let x := s.tile t
  let again := match x.residueAt with
    | some c => decide (s.clock ≤ c + 1000000)
    | none => false
  let s := ((s.setTile t { x with residueAt := some s.clock }).markTile t).bump (aVecwResidueErrCnt t)
  let s := s.bump aRepResidueErrCnt
  if again then s.requestRepair t 2 else s

/-- An instruction retires: the domain's watchdog counts anew (R170), and a scalar pair counts the instruction. -/
def State.retireCount (s : State) (t : Nat) : State :=
  let s := s.progressOf t
  if tileKind t = 2 then s.bump (aSclwInstrCnt t) else s

/-- The instruction is done: move to the next one. -/
def State.retire (s : State) (t : Nat) : State := (s.modSeq t seqNext).retireCount t

/-- Run a tile instruction: only a running tile of a kind that executes the class does anything, and a scalar
pair whose cores disagree does nothing but mark (R126, R181). -/
def State.onTile (s : State) (w : At) (kinds : List Nat) (f : State → State) : State :=
  if !(s.runs w.tile.toNat && kinds.contains (tileKind w.tile.toNat)) then s
  else if w.fault && tileKind w.tile.toNat == 2 then s.lockstep w.tile.toNat
  else f s

end Sys2Proof.Machine
end

