-- ==== Sys2Proof/Machine/Flags.lean ====
section
/-! DEFINITION. The flags and queues of the field sync blocks (R155 to R159, R184, R202, R203), and the numeric events of a step (R104). -/

namespace Sys2Proof.Machine

/-! ### Beats (R424) -/

/-- The beat a tile is in: 0 for a tile of a native choreography. -/
def State.beatOf (s : State) (t : Nat) : Nat :=
  if (s.tile t).cho.isSome && (s.tile t).cho == s.beat.cho then kvGet 0 t s.beat.done + 1 else 0

/-- Note what a tile's beat has done, so that a replay can take it back (R428). -/
def State.beatNote (s : State) (beat : Nat) (op : BeatOp) : State :=
  if beat = 0 then s else { s with beat.log := s.beat.log ++ [(beat, op)] }

/-! ### Flags -/

/-- A flag by its handle. -/
def State.flag (s : State) (h : Nat) : Flag := kvGet {} h s.con.flags

/-- Replace a flag. -/
def State.setFlag (s : State) (h : Nat) (f : Flag) : State := { s with con.flags := kvPut {} h f s.con.flags }

/-- Add an amount to a flag for a signalling tile: a tile that the assignment does not name breaks kind 6, a
count above 65,535 breaks kind 5, and the flag keeps its value in both cases (R156). -/
def State.flagAdd (s : State) (t h amount beat : Nat) : State :=
  let f := s.flag h
  if f.cho.isNone || !f.signallers.contains t then s.violate t 6 h none
  else if 65535 < f.count.toNat + amount then s.violate t 5 h none
  else ((s.setFlag h { f with count := BitVec.ofNat 16 (f.count.toNat + amount) }).beatNote beat (.flag h amount)).progressOf t

/-! ### Queues -/

/-- A queue by its handle. -/
def State.queue (s : State) (h : Nat) : Queue := kvGet {} h s.con.queues

/-- Replace a queue. -/
def State.setQueue (s : State) (h : Nat) (q : Queue) : State := { s with con.queues := kvPut {} h q s.con.queues }

/-- The address VIOL_ADDR records for a queue: field × 4,096 + queue number (R178, R184). -/
def queueAddr (h : Nat) : Nat := h / 1024 * 4096 + h % 1024

/-- Flits the consumer sees in a queue (R158). -/
def queueHolds (q : Queue) : Nat := (q.pub + 2 * q.depth - q.head) % (2 * q.depth)

/-- Slots the producers see free in a queue (R158). -/
def queueFree (q : Queue) : Nat := q.depth - (q.tail + 2 * q.depth - q.free) % (2 * q.depth)

/-- Advance a ring pointer kept modulo 2 × depth. -/
def ringStep (depth p n : Nat) : Nat := (p + n) % (2 * depth)

/-- The scratch offset of a slot of a queue. -/
def queueSlot (q : Queue) (p : Nat) : Nat := q.store + 128 * (p % q.depth)

/-- Release `n` slots from the head; a GATED queue keeps them occupied until the consumer's step commits. -/
def queueRelease (q : Queue) (n : Nat) : Queue :=
  let h := ringStep q.depth q.head n
  { q with head := h, free := if q.gated then q.free else h }

/-- One more flit at the tail; a GATED queue shows it when the producer's step commits. -/
def queuePush (q : Queue) : Queue :=
  let t := ringStep q.depth q.tail 1
  { q with tail := t, pub := if q.gated then q.pub else t }

/-- Flits of a tile's scratch with their stored parity (R114). -/
def State.flitAt (s : State) (t a : Nat) (kind : FlitKind) : Flit :=
  { bytes := s.scr t a 128
    bad := (s.scrBad t a 128).map (fun k => k - scrKey t a)
    src := t
    kind := kind
    beat := s.beatOf t }

/-- `n` consecutive flits of a tile's scratch. -/
def State.flitsAt (s : State) (t a n : Nat) (kind : FlitKind) : List Flit :=
  (List.range n).map (fun i => s.flitAt t (a + 128 * i) kind)

/-- Write a flit into scratch with its parity as it came; bad bytes mark the tile's step (R114, R115). -/
def State.flitLand (s : State) (t a : Nat) (f : Flit) : State :=
  let s := (s.scrWrite t a f.bytes).scrSpoil t a f.bad
  let s := s.parityError t (f.bad.map (fun i => scrKey t a + i))
  s.loupeTouch t (wrAcc a 128)

/-- Copy a flit between places of one tile's scratch, with its stored parity. -/
def State.flitCopy (s : State) (t src dst : Nat) : State :=
  let f := s.flitAt t src .plain
  (s.scrWrite t dst f.bytes).scrSpoil t dst f.bad

/-- Copy `n` flits from a queue's head into scratch at `a`, in ring order. -/
def State.takeCopy (s : State) (t : Nat) (q : Queue) (p a : Nat) : Nat → State
  | 0 => s
  | n + 1 => ((s.flitCopy t (queueSlot q p) a)).takeCopy t q (ringStep q.depth p 1) (a + 128) n

/-- Run `k` when a queue names the tile as its consumer; another use breaks kind 7 (R156, R157). -/
def State.asConsumer (s : State) (t h : Nat) (k : Queue → State) : State :=
  let q := s.queue h
  if q.cho.isNone || q.consumer != t then s.violate t 7 (queueAddr h) none else k q

/-- Run `k` when a queue names the tile among its producers; another use breaks kind 7. -/
def State.asProducer (s : State) (t h : Nat) (k : State) : State :=
  let q := s.queue h
  if q.cho.isNone || !q.producers.contains t then s.violate t 7 (queueAddr h) none else k

/-! ### Numeric events (R104) -/

/-- Record `n` numeric events of a kind (0 CLIP, 1 CLIP_FINAL, 2 ZERO_BLOCK, 3 SAT_BLOCK, 4 SIDESTEP_OVF,
5 POISON) for a layer slot in the current attempt of the tile's domain; a commit adds them to NUM. -/
def State.numEvent (s : State) (t : Nat) (slot : BitVec 12) (kind n : Nat) : State :=
  if n = 0 then s
  else
    let d := s.domOf t
    let x := s.dom d
    s.setDom d { x with events := x.events ++ [{ slot, kind, amount := n, beat := s.beatOf t }] }

end Sys2Proof.Machine
end

