-- ==== Sys2Proof/Machine/Stacks.lean ====
section
/-! DEFINITION. The stack controllers (R208 to R210, R370): requests, ports and tags, and errors. -/

namespace Sys2Proof.Machine

/-! ### Requests (R209) -/

/-- Split an access of `n` flits into requests of 1 to 4 flits that do not cross a page. DESIGN CHOICE
(notes/assumptions/13.md): as long as can be, from the start. -/
def splitRequests (who : StackWho) (write : Bool) : Nat → Nat → Nat → List StackReq
  | 0, _, _ => []
  | _, _, 0 => []
  | fuel + 1, a, n =>
    let room := (65536 - a % 65536) / 128
    let k := min (min 4 n) (max 1 room)
    { who, addr := a, flits := k, data := if write then some [] else none } ::
      splitRequests who write fuel (a + 128 * k) (n - k)

/-- A stack. -/
def State.stack (s : State) (k : Nat) : Stack := kvGet {} k s.mem.stackUnits

/-- Replace a stack. -/
def State.setStack (s : State) (k : Nat) (x : Stack) : State :=
  { s with mem.stackUnits := kvPut {} k x s.mem.stackUnits }

/-- The stack number of an address (R207). -/
def stackOf (a : Nat) : Nat := a / 2 ^ 37

/-- Give a write request the flit that has come for it over the mesh; a request with all its flits joins the
queue (R208). `none` when no write of the tile waits for a flit. -/
def takeFlit (t : Nat) (f : Flit) : List StackReq → Option (List StackReq × Option StackReq)
  | [] => none
  | r :: rest =>
    if r.who = .tile t then
      let d := (r.data.getD []) ++ [f]
      let r := { r with data := some d }
      if d.length = r.flits then some (rest, some r) else some (r :: rest, none)
    else
      match takeFlit t f rest with
      | none => none
      | some (l, q) => some (r :: l, q)

/-- A flit reaches a stack by the mesh: it belongs to the oldest write of its source tile. -/
def State.stackFlit (s : State) (k : Nat) (f : Flit) : State :=
  match takeFlit f.src f (s.stack k).coming with
  | none => s
  | some (l, none) => s.setStack k { s.stack k with coming := l }
  | some (l, some r) => s.setStack k { s.stack k with coming := l, queue := (s.stack k).queue ++ [r] }

/-- The row of mesh positions of a stack (R36). -/
def stackRowTy (k : Nat) : Nat :=
  match k % 4 with
  | 0 => 2
  | 1 => 5
  | 2 => 10
  | _ => 13

/-- The position by which a stack's read data leaves for a tile: the one of the stack's row in the tile's own
column of its field. DESIGN CHOICE (notes/assumptions/13.md). -/
def returnPos (k t : Nat) : Nat := posIn (21 + k / 4) (posTx t) (stackRowTy k)

/-- The request that a stack's next slot serves (R208): four slots for the mesh links, one for the direct port; a
slot whose port has none pending passes to the other port. -/
def stackNext (x : Stack) : Option (StackReq × Stack) :=
  let mesh : Option (StackReq × Stack) := match x.queue with
    | r :: rest => some (r, { x with queue := rest, turn := (x.turn + 1) % 5 })
    | [] => none
  let direct : Option (StackReq × Stack) := match x.direct with
    | r :: rest => some (r, { x with direct := rest, turn := (x.turn + 1) % 5 })
    | [] => none
  if x.turn = 4 then direct.or mesh else mesh.or direct

/-- Count row errors of the last `span` µs and drop the older ones. -/
def rowRecent (now span row : Nat) (l : List (Nat × Nat)) : List (Nat × Nat) :=
  l.filter (fun e => e.1 == row && decide (now ≤ e.2 + span))

/-- Repair a stack row (R370): while a resource is left, PPR_USED rises, the stack reads STATE 1 and the
repair is logged; the row's errors start anew. -/
def State.rowRepair (s : State) (k row : Nat) : State :=
  let x := s.stack k
  let used := s.rfld (aMemStackState k) 15 8
  if Config.stackSpare k row used && decide (used < 255) then
    let s := (s.setRfld (aMemStackState k) 15 8 (used + 1)).setRfld (aMemStackState k) 1 0 1
    let s := s.journal 0x1E (pack [(0, k), (5, row % 2 ^ 32)])
    s.setStack k { x with rowCorr := x.rowCorr.filter (fun e => e.1 != row),
                          rowUncorr := x.rowUncorr.filter (fun e => e.1 != row) }
  else s

/-- Note a corrected (16 within 1 h) or uncorrectable (2 within 24 h) read of a row (R370). -/
def State.rowError (s : State) (k a : Nat) (uncorr : Bool) : State :=
  let row := Config.stackRow a
  let x := s.stack k
  if uncorr then
    let l := (row, s.clock) :: x.rowUncorr
    let s := s.setStack k { x with rowUncorr := l }
    if 2 ≤ (rowRecent s.clock (86400 * 1000000) row l).length then s.rowRepair k row else s
  else
    let l := (row, s.clock) :: x.rowCorr
    let s := s.setStack k { x with rowCorr := l }
    if 16 ≤ (rowRecent s.clock (3600 * 1000000) row l).length then s.rowRepair k row else s

/-- Offer flits at the local input of a position. -/
def State.offer (s : State) (pos : Nat) (fs : List Flit) : State :=
  s.setTile pos { s.tile pos with outbox := (s.tile pos).outbox ++ fs }

/-! ### Loupe and the stacks (R168, R169, R175) -/

/-- The stack flits of an access of a domain, as Loupe's tags number them. -/
def stackKeys (d a n : Nat) : List Nat :=
  (List.range ((a + n + 127) / 128 - a / 128)).map (fun i => d * 2 ^ 48 + (a / 128 + i))

/-- A detection at stack memory: which object and address the record names is not stated, a free value
(notes/assumptions/171.md). -/
def State.stackHazard (s : State) (check t d : Nat) : State :=
  let v := Config.fresh s.freeCtr
  (s.hazard check t d (fld v 31 30) (fld v 25 0)).tickFree

/-- Run a read of a tile from the stacks: what its step has not written counts as read in the step (R168). -/
def State.loupeStackRead (s : State) (t a n : Nat) : State :=
  let d := s.domOf t
  if !(s.dom d).loupe then s
  else
    let ks := (stackKeys d a n).filter (fun k => !s.dbg.loupe.stackWritten.contains k)
    { s with dbg.loupe.stackRead := ks.foldl (fun l k => natAdd k l) s.dbg.loupe.stackRead }

/-- Run `k` for a write of a tile to the stacks, unless its step has read of the bytes before it wrote them: a detection of
check 2 (R169, R175). -/
def State.loupeStackWrite (s : State) (t a n : Nat) (k : State → State) : State :=
  let d := s.domOf t
  if !(s.dom d).loupe then k s
  else
    let ks := stackKeys d a n
    if ks.any (fun i => s.dbg.loupe.stackRead.contains i) then s.stackHazard 2 t d
    else k { s with dbg.loupe.stackWritten := ks.foldl (fun l i => natAdd i l) s.dbg.loupe.stackWritten }

/-- Bytes reach the stacks from outside a domain that has read of them in its current step: a detection of check 3 in each such
domain (R169, R175); the bytes land all the same (notes/assumptions/149.md). `src` is the domain that writes, none for an
asynchronous source; TILE is the domain's root position. -/
def State.loupeStackLand (s : State) (src : Option Nat) (a n : Nat) : State :=
  ((s.con.doms.filter (fun e => e.2.loupe && src != some e.1 &&
    (stackKeys e.1 a n).any (fun k => s.dbg.loupe.stackRead.contains k))).map (fun e => (e.1, e.2.root.toNat))).foldl
    (fun s e => s.stackHazard 3 e.2 e.1) s

/-- An asynchronous source writes bytes to the stacks (R159). -/
def State.stkLand (s : State) (a : Nat) (bs : List Byte) : State := (s.loupeStackLand none a bs.length).stkWrite a bs

/-! ### The load engines' ports (R208, R225) -/

/-- Write requests with the bytes they carry, in flits of 128. -/
def fillRequests : List StackReq → List Byte → List StackReq
  | [], _ => []
  | r :: rest, bs =>
    let fs := ((List.range r.flits).map (fun i => (bs.drop (128 * i)).take 128)).filter (fun b => !b.isEmpty)
    { r with data := some (fs.map (fun b => { bytes := b })) } :: fillRequests rest (bs.drop (128 * r.flits))

/-- A load engine writes bytes: its requests join the direct port of a stack of its own memory field, the mesh port of any
other (R208, R225). -/
def State.engineWrite (s : State) (e a : Nat) (bs : List Byte) : State :=
  (fillRequests (splitRequests .engine true (bs.length + 1) a ((bs.length + 127) / 128)) bs).foldl (fun s r =>
    let k := stackOf r.addr
    let x := s.stack k
    s.setStack k (if k / 4 = e then { x with direct := x.direct ++ [r] } else { x with queue := x.queue ++ [r] })) s

/-- Whether a load engine's write to a byte range still waits at its stack. -/
def State.writeWaits (s : State) (a n : Nat) : Bool :=
  s.mem.stackUnits.any (fun e => (e.2.direct ++ e.2.queue).any (fun r =>
    r.who == .engine && r.data.isSome && decide (r.addr < a + n) && decide (a < r.addr + 128 * r.flits)))

/-- An access that a command completes whole, of `n` requests: each that finds no free tag is counted (R209). DESIGN CHOICE
(notes/assumptions/163.md). -/
def State.tagWait (s : State) (k n : Nat) : State :=
  if 2048 ≤ (s.stack k).busy.length then s.bumpBy aMemTagWaitCnt n else s

/-- The outcome of a read in the stack's ECC (R210, R370): a corrected one and an uncorrectable one are counted against their
row, and an uncorrectable one is logged with the tile and domain that read. -/
def State.eccNote (s : State) (a : Nat) (ecc : Ecc) (tile dom : Option Nat) : State :=
  let k := stackOf a
  if s.stackOffline k then (s.bump aMemEccUncorrCnt).fault 4 tile dom k
  else
    match ecc with
    | .uncorrectable => ((s.bump aMemEccUncorrCnt).fault 4 tile dom k).rowError k a true
    | .corrected => (s.bump aMemEccCorrCnt).rowError k a false
    | .clean => s

/-- The data of the stack's oldest accepted read returns and frees its tag (R210). A corrected read is counted; an
uncorrectable one, as every read of a stack that is offline, is delivered with every byte's parity bad, counted and
logged. The result names the request and whether it was uncorrectable. -/
def State.readReturn (s : State) (k : Nat) (ecc : Ecc) : State × Option (StackReq × Bool) :=
  let x := s.stack k
  match x.busy with
  | [] => (s, none)
  | r :: rest =>
    let offline := s.stackOffline k
    let bad := offline || ecc == .uncorrectable
    let s := s.setStack k { x with busy := rest }
    let fs := (List.range r.flits).map (fun i => s.stkRead (r.addr + 128 * i) bad)
    let pd := match r.who with
      | .tile t => (some t, some (s.domOf t))
      | .engine => (none, none)
    let s := s.eccNote r.addr ecc pd.1 pd.2
    match r.who with
    | .tile t => (s.offer (returnPos k t) (fs.map (fun f => { f with src := t })), some (r, bad))
    | .engine => (s, some (r, bad || fs.any (fun f => !f.bad.isEmpty)))

end Sys2Proof.Machine
end

