-- ==== Sys2Proof/Machine/TileControl.lean ====
section
/-! DEFINITION. The control, flag, queue and move instructions of every tile (R181, R185 to R191, R286, R290). -/

namespace Sys2Proof.Machine

/-- The three tile kinds (R181). -/
def allKinds : List Nat := [0, 1, 2]

/-! ### NOP, BAR, LOOP -/

/-- NOP does nothing and moves to the next instruction (R181). -/
def execNop (w : At) (s : State) : Host.Outcome State Fault Refusal :=
  .next (s.onTile w allKinds (fun s => s.retire w.tile.toNat))

/-- Where a tile resumes after a BAR (R185): at NEXT if JUMP is set, else at the following instruction. -/
def barResume (jump : Bool) (next : BitVec 13) (q : Seq) : Seq :=
  if jump then { q with idx := next } else seqNext q

/-- The tile's arrival at its domain's barrier, with its error mark (R161, R164). -/
def State.arrive (s : State) (t : Nat) : State :=
  let d := s.domOf t
  let x := s.dom d
  let m := (s.tile t).mark
  let s := s.setTile t { s.tile t with wait := .barrier, mark := false }
  s.setDom d { x with arrived := natAdd t x.arrived, mark := x.mark || m }

/-- The end of a beat of a tile (R424): its report leaves with its error mark, the start of its next beat is
saved (R428), and the tile goes on if the horizon allows and the frame has not ended (R426). -/
def State.beatEnd (s : State) (t : Nat) (jump : Bool) : State :=
  let x := s.tile t
  let b := s.beat.done
  let n := kvGet 0 t b + 1
  let stay := jump || decide (s.beat.horizon < n + 1)
  let s := s.setTile t { x with mark := false, wait := if stay then .barrier else .no }
  { s with
    beat.done := kvPut 0 t n b
    beat.reports := kvMod [] t (fun l => l ++ [(x.mark, jump)]) s.beat.reports
    beat.snaps := kvMod [] t (fun l => l ++ [x.seq]) s.beat.snaps
    beat.hold := if stay then kvSet t jump s.beat.hold else s.beat.hold }

/-- BAR (R185): with remote operations outstanding the tile waits (R290); else it resumes where the BAR says
once its barrier is released, and its arrival is reported. In beat mode it ends the tile's beat (R424). -/
def execBar (w : At) (jump : Bool) (next : BitVec 13) (s : State) : Host.Outcome State Fault Refusal :=
  let t := w.tile.toNat
  .next (s.onTile w allKinds (fun s =>
    if (s.tile t).seq.remoteOut ≠ 0 then s
    else
      let s := (s.modSeq t (barResume jump next)).retireCount t
      if s.beatOf t = 0 then s.arrive t else s.beatEnd t jump))

/-- LOOP.BEGIN (R186): the innermost level of the loop stack runs the next BODY instructions. -/
def execLoopBegin (w : At) (count : BitVec 16) (body : BitVec 13) (adv : BitVec 16) (s : State) :
    Host.Outcome State Fault Refusal :=
  let t := w.tile.toNat
  .next (s.onTile w allKinds (fun s =>
    (s.modSeq t (fun q =>
      { q with
        idx := q.idx + 1
        loops := { remain := count, start := q.idx.toNat + 1, last := q.idx.toNat + body.toNat, adv := adv } ::
          q.loops })).retireCount t))

/-- LOOP.PSET (R186): Pn.ADDR = ADDR and Pn.STRIDE = STRIDE. -/
def execLoopPset (w : At) (pn : BitVec 4) (addr stride : BitVec 22) (s : State) : Host.Outcome State Fault Refusal :=
  let t := w.tile.toNat
  .next (s.onTile w allKinds (fun s => (s.modSeq t (fun q => seqSetPtr q pn { addr, stride })).retire t))

/-- LOOP.PADD (R186): Pn.ADDR = Pn.ADDR + INC, modulo 2^22. -/
def execLoopPadd (w : At) (pn : BitVec 4) (inc : BitVec 22) (s : State) : Host.Outcome State Fault Refusal :=
  let t := w.tile.toNat
  .next (s.onTile w allKinds (fun s =>
    (s.modSeq t (fun q => seqSetPtr q pn { seqPtr q pn with addr := (seqPtr q pn).addr + inc })).retire t))

/-! ### FLAG -/

/-- FLAG.WAIT (R155, R188, R456): the tile's request goes to the sync block, and the tile waits for its answer. A
tile that the assignment does not name as waiter breaks kind 6. -/
def execFlagWait (w : At) (flag : BitVec 18) (value : BitVec 16) (s : State) : Host.Outcome State Fault Refusal :=
  let t := w.tile.toNat
  .next (s.onTile w allKinds (fun s =>
    let f := s.flag flag.toNat
    if f.cho.isNone || f.waiter != t then s.violate t 6 flag.toNat none
    else (s.setFlag flag.toNat { f with request := some value }).setTile t
      { s.tile t with wait := .flag flag value }))

/-- FLAG.SIGNAL (R155, R456): the instruction is complete once its flit has entered the sync mesh. -/
def execFlagSignal (w : At) (flag : BitVec 18) (value : BitVec 16) (s : State) : Host.Outcome State Fault Refusal :=
  let t := w.tile.toNat
  .next (s.onTile w allKinds (fun s =>
    ({ s with
        wafer.signals := s.wafer.signals ++ [{ tile := t, flag, amount := value, beat := s.beatOf t }] } : State).retire t))

/-- Take the first signal of a tile to a flag out of the signals on their way. -/
def takeSignal (t : Nat) (flag : BitVec 18) : List Signal → Option (Signal × List Signal)
  | [] => none
  | g :: r =>
    if g.tile = t ∧ g.flag = flag then some (g, r)
    else match takeSignal t flag r with
      | none => none
      | some (x, l) => some (x, g :: l)

/-- FLAG_SIGNAL_ARRIVE (R156, R456): the oldest signal of the tile to the flag reaches the sync block, and its
amount is added. -/
def execFlagSignalArrive (tile : TileIx) (flag : BitVec 18) (s : State) : Host.Outcome State Fault Refusal :=
  match takeSignal tile.toNat flag s.wafer.signals with
  | none => .next s
  | some (g, rest) =>
    .next (({ s with wafer.signals := rest }).flagAdd tile.toNat flag.toNat g.amount.toNat g.beat)

/-- FLAG_WAIT_ANSWER (R155, R456): once the count is at least the value asked for, the sync block subtracts it and
answers, and the WAIT is complete. -/
def execFlagWaitAnswer (tile : TileIx) (flag : BitVec 18) (s : State) : Host.Outcome State Fault Refusal :=
  let t := tile.toNat
  let f := s.flag flag.toNat
  match f.request with
  | none => .next s
  | some v =>
    if f.waiter = t ∧ (s.tile t).wait = .flag flag v ∧ v.toNat ≤ f.count.toNat then
      let beat := s.beatOf t
      let s := (s.setFlag flag.toNat { f with count := f.count - v, request := none }).beatNote beat
        (.flag flag.toNat (-(v.toNat : Int)))
      .next ((s.setTile t { s.tile t with wait := .no }).retire t)
    else .next s

/-! ### QUEUE -/

/-- The flit count of an N field: N holds the flits minus 1. -/
def flitsOf (n : BitVec 12) : Nat := n.toNat + 1

/-- Release slots of a queue and note it for a beat. -/
def State.queueDrop (s : State) (t h n : Nat) (q : Queue) : State :=
  let beat := s.beatOf t
  (s.setQueue h (queueRelease q n)).beatNote beat (.head h n)

/-- QUEUE.TAKE (R189): waits until the queue holds N flits, copies them in ring order to Pn with their stored
parity, and releases them. -/
def execQueueTake (w : At) (pn : BitVec 4) (n : BitVec 12) (queue : BitVec 16) (s : State) :
    Host.Outcome State Fault Refusal :=
  let t := w.tile.toNat
  .next (s.onTile w allKinds (fun s =>
    s.asConsumer t queue.toNat (fun q =>
      if queueHolds q < flitsOf n then s
      else s.guarded t [wrAcc (s.ptr128 t pn) (128 * flitsOf n)] (fun s =>
        ((s.takeCopy t q q.head (s.ptr128 t pn) (flitsOf n)).queueDrop t queue.toNat (flitsOf n) q).retire t))))

/-- QUEUE.PEEK (R189): waits until N flits are present and points Pn at the head flit. -/
def execQueuePeek (w : At) (pn : BitVec 4) (n : BitVec 12) (queue : BitVec 16) (s : State) :
    Host.Outcome State Fault Refusal :=
  let t := w.tile.toNat
  .next (s.onTile w allKinds (fun s =>
    s.asConsumer t queue.toNat (fun q =>
      if queueHolds q < flitsOf n then s
      else (s.modSeq t (fun x =>
        seqSetPtr x pn { seqPtr x pn with addr := BitVec.ofNat 22 (queueSlot q q.head) })).retire t)))

/-- QUEUE.RELEASE (R189): waits until the queue holds N flits and releases N flits from the head. -/
def execQueueRelease (w : At) (n : BitVec 12) (queue : BitVec 16) (s : State) : Host.Outcome State Fault Refusal :=
  let t := w.tile.toNat
  .next (s.onTile w allKinds (fun s =>
    s.asConsumer t queue.toNat (fun q =>
      if queueHolds q < flitsOf n then s
      else (s.queueDrop t queue.toNat (flitsOf n) q).retire t)))

/-! ### MOVE -/

/-- Offer flits at the tile's router; the instruction finishes when the last flit is taken (R191). -/
def State.sendFlits (s : State) (t : Nat) (fs : List Flit) : State :=
  let s := s.offer t fs
  s.setTile t { s.tile t with wait := .sending }

/-- MOVE.SEND (R190): offers N flits from Pn to the router's local input, in address order. -/
def execMoveSend (w : At) (pn : BitVec 4) (n : BitVec 12) (s : State) : Host.Outcome State Fault Refusal :=
  let t := w.tile.toNat
  .next (s.onTile w allKinds (fun s =>
    s.guarded t [cpAcc (s.ptr128 t pn) (128 * flitsOf n)] (fun s =>
      s.sendFlits t (s.flitsAt t (s.ptr128 t pn) (flitsOf n) .plain))))

/-- MOVE.RECV (R190): takes the next N flits that the local output delivers with DEL 0 and writes them to Pn in
arrival order. -/
def execMoveRecv (w : At) (pn : BitVec 4) (n : BitVec 12) (s : State) : Host.Outcome State Fault Refusal :=
  let t := w.tile.toNat
  .next (s.onTile w allKinds (fun s =>
    s.guarded t [wrAcc (s.ptr128 t pn) (128 * flitsOf n)] (fun s =>
      s.setTile t { s.tile t with wait := .recv (s.ptr128 t pn) (flitsOf n) })))

/-- MOVE.PUT (R190): as SEND, by a producer of the queue. -/
def execMovePut (w : At) (pn : BitVec 4) (n : BitVec 12) (queue : BitVec 16) (s : State) :
    Host.Outcome State Fault Refusal :=
  let t := w.tile.toNat
  .next (s.onTile w allKinds (fun s =>
    s.asProducer t queue.toNat (s.guarded t [cpAcc (s.ptr128 t pn) (128 * flitsOf n)] (fun s =>
      s.sendFlits t (s.flitsAt t (s.ptr128 t pn) (flitsOf n) .plain)))))

/-- The module stack address in the 8-byte record at PX (R190), aligned down to a flit. -/
def State.stackRecord (s : State) (t : Nat) (px : BitVec 4) : Nat :=
  leNat (s.scr t (s.ptr16 t px) 8) % 2 ^ 48 / 128 * 128

/-- Run `k` when the tile's tenant may access the stack range; else it breaks kind 4 (R137, R212). -/
def State.onStack (s : State) (t a n : Nat) (k : State) : State :=
  if s.stackAllows (s.tile t).tenant.toNat a n then k else s.violate t 4 a none

/-- Queue requests, each at the stack of its address. -/
def State.stackAsk (s : State) (rs : List StackReq) (coming : Bool) : State :=
  rs.foldl (fun s r =>
    let k := stackOf r.addr
    let x := s.stack k
    s.setStack k (if coming then { x with coming := x.coming ++ [r] } else { x with queue := x.queue ++ [r] })) s

/-- MOVE.SRD (R190, R191): reads N flits from the stack address in the record at PX; the data lands at Pn in
read-return turns. -/
def execMoveSrd (w : At) (pn px : BitVec 4) (n : BitVec 12) (s : State) : Host.Outcome State Fault Refusal :=
  let t := w.tile.toNat
  .next (s.onTile w allKinds (fun s =>
    s.guarded t [rdAcc (s.ptr16 t px) 8, wrAcc (s.ptr128 t pn) (128 * flitsOf n)] (fun s =>
      let a := s.stackRecord t px
      s.onStack t a (128 * flitsOf n)
        ((((s.loupeStackRead t a (128 * flitsOf n)).stackAsk (splitRequests (.tile t) false (flitsOf n) a (flitsOf n)) false).setTile t
          { s.tile t with
            reads := (s.tile t).reads ++ [{ addr := s.ptr128 t pn, left := flitsOf n }] }).retire t))))

/-- MOVE.SWR (R190): writes N flits from Pn to the stack address in the record at PX; the flits go to the stack
over the mesh. -/
def execMoveSwr (w : At) (pn px : BitVec 4) (n : BitVec 12) (s : State) : Host.Outcome State Fault Refusal :=
  let t := w.tile.toNat
  .next (s.onTile w allKinds (fun s =>
    s.guarded t [rdAcc (s.ptr16 t px) 8, cpAcc (s.ptr128 t pn) (128 * flitsOf n)] (fun s =>
      let a := s.stackRecord t px
      s.onStack t a (128 * flitsOf n) (s.loupeStackWrite t a (128 * flitsOf n) (fun s =>
        (s.stackAsk (splitRequests (.tile t) true (flitsOf n) a (flitsOf n)) true).sendFlits t
          (s.flitsAt t (s.ptr128 t pn) (flitsOf n) .plain))))))

/-! ### Remote operations (R286 to R290) -/

/-- This module's number: rack × 16 + slot (R307). -/
def State.modNumber (s : State) : Nat := s.rfld aFabModId 9 0

/-- The 32-byte record of a remote operation at PX. -/
def State.remoteRecord (s : State) (t : Nat) (px : BitVec 4) : List Word := wordsOf (s.scr t (s.ptr16 t px) 32)

/-- Whether a record breaks kind 8 (R286): own DEST, misaligned OFFSET, reserved bits set. -/
def recordBad (own : Nat) (r : List Word) : Bool :=
  recFld r 0 9 0 == own || recFld r 1 39 0 % 128 != 0 || recFld r 0 63 24 != 0 || recFld r 1 63 40 != 0 ||
    recFld r 2 63 20 != 0 || wordAt r 3 != 0

/-- The lowest number from `k` that an ascending list does not hold. -/
def firstGap (k : Nat) : List Nat → Nat
  | [] => k
  | i :: r => if i = k then firstGap (k + 1) r else k

/-- The entries in use of an edge group's completion table (R290), ascending. -/
def State.ctabOf (s : State) (edge : Nat) : List Nat := (s.fab.ctab.map Prod.fst).filter (fun k => k / 32768 == edge)

/-- The bytes of a header flit (R288). -/
def headerBytes (h : Header) : List Byte :=
  natLe 8 (pack [(0, h.op.toNat), (4, h.dest.toNat), (14, h.src.toNat), (24, h.tenant.toNat), (32, h.window.toNat),
    (44, h.edge.toNat), (46, h.len.toNat)]) ++
  natLe 8 h.offset.toNat ++
  natLe 8 (pack [(0, h.tag.toNat), (17, h.srcTile.toNat), (32, h.status.toNat), (40, h.value.toNat), (48, h.flag.toNat)]) ++
  List.replicate 104 0

/-- Issue a remote operation (R287, R290): a record that breaks R286 is a violation of kind 8; with the edge
group's table full the tile waits and is counted once; else the operation takes the lowest free entry, its timer starts (R351),
and its header and data flits go out. `op` is 1 RWR, 2 RRD, 3 RFLAG. Until the port is known the table is that of the record's
EDGE, the group of the ports wired to it (R297). DEDUCED (notes/assumptions/14.md). -/
def State.remoteIssue (s : State) (t op len : Nat) (px : BitVec 4) (data : List Flit) (land : List ReadBuf) : State :=
  let r := s.remoteRecord t px
  let edge := recFld r 0 11 10
  let used := s.ctabOf edge
  if recordBad s.modNumber r then s.violate t 8 (s.ptr16 t px) none
  else if 32768 ≤ used.length then
    if (s.tile t).ctabWait then s
    else (s.setTile t { s.tile t with ctabWait := true }).bump aFabCtabWaitCnt
  else
    let s := s.applyReg aFabRcompTmo
    let tag := firstGap (edge * 32768) used
    let x := s.tile t
    let e : Ctab := {
      tile := t, op := BitVec.ofNat 4 op, owner := BitVec.ofNat 10 (recFld r 0 9 0)
      window := BitVec.ofNat 12 (recFld r 0 23 12), edge := BitVec.ofNat 2 edge
      tenant := x.tenant, since := s.clock, limit := s.rfld aFabRcompTmo 9 0, kept := false }
    let h : Header := {
      op := BitVec.ofNat 4 op, dest := e.owner, src := BitVec.ofNat 10 s.modNumber, tenant := x.tenant
      window := e.window, edge := e.edge, len := BitVec.ofNat 12 len
      offset := BitVec.ofNat 40 (recFld r 1 39 0), tag := BitVec.ofNat 17 tag
      srcTile := BitVec.ofNat 14 t, status := 0
      value := if op = 3 then BitVec.ofNat 8 (recFld r 2 19 12) else 0
      flag := if op = 3 then BitVec.ofNat 12 (recFld r 2 11 0) else 0 }
    let s := { s with fab.ctab := kvSet tag e s.fab.ctab }
    let s := s.setTile t { x with
      ctabWait := false, reads := x.reads ++ land
      seq := { x.seq with remoteOut := x.seq.remoteOut + 1 } }
    s.sendFlits t ({ bytes := headerBytes h, src := t, kind := .header, beat := s.beatOf t } :: data)

/-- Run a remote operation of a tile: a frozen remote channel issues nothing (R296). -/
def State.onRemote (s : State) (t : Nat) (accs : List Access) (k : State → State) : State :=
  if s.frozenAt 1 t then s else s.guarded t accs k

/-- MOVE.RRD (R190, R287): a remote read of N flits into Pn; the data lands in read-return turns. -/
def execMoveRrd (w : At) (pn px : BitVec 4) (n : BitVec 12) (s : State) : Host.Outcome State Fault Refusal :=
  let t := w.tile.toNat
  .next (s.onTile w allKinds (fun s =>
    s.onRemote t [rdAcc (s.ptr16 t px) 32, wrAcc (s.ptr128 t pn) (128 * flitsOf n)] (fun s =>
      s.remoteIssue t 2 n.toNat px [] [{ addr := s.ptr128 t pn, left := flitsOf n }])))

/-- MOVE.RWR (R190, R287): a remote write of N flits from Pn. -/
def execMoveRwr (w : At) (pn px : BitVec 4) (n : BitVec 12) (s : State) : Host.Outcome State Fault Refusal :=
  let t := w.tile.toNat
  .next (s.onTile w allKinds (fun s =>
    s.onRemote t [rdAcc (s.ptr16 t px) 32, cpAcc (s.ptr128 t pn) (128 * flitsOf n)] (fun s =>
      s.remoteIssue t 1 n.toNat px (s.flitsAt t (s.ptr128 t pn) (flitsOf n) .remote) [])))

/-- MOVE.RFLAG (R190, R287): a remote flag signal. -/
def execMoveRflag (w : At) (px : BitVec 4) (s : State) : Host.Outcome State Fault Refusal :=
  let t := w.tile.toNat
  .next (s.onTile w allKinds (fun s =>
    s.onRemote t [rdAcc (s.ptr16 t px) 32] (fun s => s.remoteIssue t 3 0 px [] [])))

end Sys2Proof.Machine
end

