-- ==== Sys2Proof/Machine/FabCore.lean ====
section
/-! DEFINITION. The tensor ports and the control slot as every unit uses them (R275 to R285, R297 to R299): wiring, queues of control messages, and sending a message to a module. -/

namespace Sys2Proof.Machine

/-! ### Ports -/

/-- A tensor port. -/
def State.port (s : State) (t : Nat) : Port := kvGet {} t s.fab.ports

/-- Replace a tensor port. -/
def State.setPort (s : State) (t : Nat) (x : Port) : State := { s with fab.ports := kvPut {} t x s.fab.ports }

/-- Whether a port is in STATE 2 or 3 (R299). -/
def portUp (p : Port) : Bool := p.state == 2 || p.state == 3

/-- Whether a port carries frames: up, or with a lane fault pending (R282). -/
def portCarries (p : Port) : Bool := p.state == 2 || p.state == 3 || p.state == 4

/-- Whether a port is an uplink (R297). -/
def portUplink (t : Nat) : Bool := decide (15 ≤ t % 24)

/-- The slot of a module number. -/
def slotOf (m : Nat) : Nat := m % 16

/-- The rack of a module number. -/
def rackOf (m : Nat) : Nat := m / 16

/-- The slot that port t of the module in a slot is wired to (R297). -/
def wiredSlot (slot t : Nat) : Nat := (slot + 1 + t % 24) % 16

/-- The peer port that port t is wired to. -/
def wiredPort (t : Nat) : Nat := t / 24 * 24 + (14 - t % 24)

/-- The ports wired toward a module, in T-number order: those of its slot, or the uplinks for another rack. -/
def portsTo (own dest : Nat) : List Nat :=
  (List.range 96).filter (fun t =>
    if rackOf own = rackOf dest then !portUplink t && wiredSlot (slotOf own) t == slotOf dest else portUplink t)

/-! ### Control messages (R283) -/

/-- The priority class of a message. -/
def msgClass : CtrlMsg → Nat
  | .barArrive _ | .barRelease _ | .hold _ _ => 0
  | .freeze _ | .winClose _ | .winCloseAck _ | .lane .. => 1
  | .sync .. | .syncRes .. | .heartbeat .. | .join .. => 2

/-- The module a message is for. -/
def msgDest : CtrlMsg → Nat
  | .barArrive m | .barRelease m | .hold m _ => m.dest.toNat
  | .freeze m | .winClose m | .winCloseAck m => m.dest.toNat
  | .sync _ d .. | .syncRes _ d _ | .lane _ d .. | .heartbeat _ d .. | .join _ d .. => d.toNat

/-- The queue of a class at a port. -/
def portQueue (p : Port) : Nat → List CtrlMsg
  | 0 => p.class0
  | 1 => p.class1
  | _ => p.class2

/-- A message at the end of its class's queue. -/
def portPut (p : Port) (m : CtrlMsg) : Port :=
  match msgClass m with
  | 0 => { p with class0 := p.class0 ++ [m] }
  | 1 => { p with class1 := p.class1 ++ [m] }
  | _ => { p with class2 := p.class2 ++ [m] }

/-- Whether the queues of 64 messages have room for messages of one class that go together. -/
def portRoom (p : Port) (l : List CtrlMsg) : Bool := l.all (fun m => decide ((portQueue p (msgClass m)).length + l.length ≤ 64))

/-- The producer of messages waits (R283). -/
def State.ctrlHold (s : State) (port : Option Nat) (msgs : List CtrlMsg) : State :=
  { s with fab.stalled := s.fab.stalled ++ [{ port, msgs }] }

/-- Queue messages together at a named port, or keep their producer waiting for it. -/
def State.ctrlSendOn (s : State) (t : Nat) (l : List CtrlMsg) : State :=
  if portRoom (s.port t) l then s.setPort t (l.foldl portPut (s.port t)) else s.ctrlHold (some t) l

/-- The first port in T-number order toward a module that is up (R299). -/
def State.portFor (s : State) (dest : Nat) : Option Nat := (portsTo s.modNumber dest).find? (fun t => portUp (s.port t))

/-- Send a message to its module by the first port toward it that is up (R299); with none, or with its queue full,
the producer waits (R283). -/
def State.ctrlSend (s : State) (m : CtrlMsg) : State :=
  match s.portFor (msgDest m) with
  | some t => if portRoom (s.port t) [m] then s.setPort t (portPut (s.port t) m) else s.ctrlHold none [m]
  | none => s.ctrlHold none [m]

/-- Try the waiting messages again, oldest first. -/
def State.ctrlRetry (s : State) : State :=
  let l := s.fab.stalled
  l.foldl (fun s h => match h.port with
    | some t => s.ctrlSendOn t h.msgs
    | none => h.msgs.foldl State.ctrlSend s) { s with fab.stalled := [] }

/-! ### Wavelengths (R275, R282) -/

/-- The wavelengths that carry a fibre's traffic: 0 to 7, or, where one of these has been taken out, the others with the spare
once it is in use. -/
def laneSet (bad : BitVec 9) (spare : Bool) : BitVec 9 :=
  if bad &&& 0xFF = 0 then 0xFF else (if spare then 0x1FF else 0xFF) &&& ~~~bad

/-- The number of wavelengths in a set. -/
def laneCount (l : BitVec 9) : Nat := ((List.range 9).filter (fun i => l.toNat.testBit i)).length

/-- The fewer of the wavelengths that a port's two fibres run on. -/
def portLanes (p : Port) : Nat := min (laneCount (laneSet p.badTx p.spare)) (laneCount (laneSet p.badRx p.spare))

/-- A port that is up on the wavelengths left to it: STATE 2 on 8, 3 on 7 of either fibre (R282, R306). -/
def portStriped (p : Port) : Port :=
  { p with state := if portLanes p < 8 then 3 else 2, lanes := laneSet p.badTx p.spare, faultLane := none, spareReady := false }

/-! ### Completion tables (R290) -/

/-- TAG of a header flit (R288). -/
def flitTag (f : Flit) : Nat := bits (leNat ((f.bytes.drop 16).take 8)) 16 0

/-- A header flit with another TAG. -/
def setTag (f : Flit) (tag : Nat) : Flit :=
  let w := leNat ((f.bytes.drop 16).take 8)
  { f with bytes := f.bytes.take 16 ++ natLe 8 (w - w % 2 ^ 17 + tag) ++ f.bytes.drop 24 }

/-- Whether a flit that reaches a port needs an entry of another edge group's table than it holds: a header whose operation
leaves by this port. -/
def State.tagMoves (s : State) (t : Nat) (f : Flit) : Bool :=
  f.kind == .header && flitTag f / 32768 != t / 24 && (kvFind (flitTag f) s.fab.ctab).isSome

/-- A header flit leaves by a port: its operation holds an entry of the port's edge group from then on (R290). DEDUCED
(notes/assumptions/14.md). -/
def State.tagMove (s : State) (t : Nat) (f : Flit) : State × Flit :=
  match kvFind (flitTag f) s.fab.ctab with
  | some e =>
    if !s.tagMoves t f then (s, f)
    else
      let k := firstGap (t / 24 * 32768) (s.ctabOf (t / 24))
      ({ s with fab.ctab := kvSet k e (kvDel (flitTag f) s.fab.ctab) }, setTag f k)
  | none => (s, f)

/-! ### Windows (R292, R307) -/

/-- Fields of FAB.WIN(g, w). -/
def State.winState (s : State) (g w : Nat) : Nat := s.rfld (aFabWin g w) 1 0
def State.winKind (s : State) (g w : Nat) : Nat := s.rfld (aFabWin g w) 3 2
def State.winRead (s : State) (g w : Nat) : Bool := s.rbit (aFabWin g w) 4
def State.winWrite (s : State) (g w : Nat) : Bool := s.rbit (aFabWin g w) 5
def State.winTenant (s : State) (g w : Nat) : Nat := s.rfld (aFabWin g w) 15 8
def State.winPeer (s : State) (g w : Nat) : Nat := s.rfld (aFabWin g w) 25 16
def State.winPeerTenant (s : State) (g w : Nat) : Nat := s.rfld (aFabWin g w) 33 26
def State.winBase (s : State) (g w : Nat) : Nat := s.rfld (aFabWin g w + 8) 47 0
def State.winLen (s : State) (g w : Nat) : Nat := s.rfld (aFabWin g w + 16) 39 0

/-- The number of a window of an edge group. -/
def winKey (g w : Nat) : Nat := g * 4096 + w

/-- The windows that are not CLOSED, as (edge group, window). -/
def State.liveWindows (s : State) : List (Nat × Nat) :=
  (s.reg.vals.filter (fun e => decide (aFabWin 0 0 ≤ e.1) && decide (e.1 < aFabWin 4 0) && e.1 % 32 == 0 &&
    decide ((e.1 - aFabWin 0 0) % 0x80000 / 0x20 < 4096) && fld e.2 1 0 != 0)).map
    (fun e => ((e.1 - aFabWin 0 0) / 0x80000, (e.1 - aFabWin 0 0) % 0x80000 / 0x20))

/-- Close a window, counted in `cnt`. -/
def State.winClose (s : State) (g w cnt : Nat) : State :=
  let s : State := { s with fab.closing := kvDel (winKey g w) s.fab.closing }
  (s.setRfld (aFabWin g w) 1 0 0).bump cnt

/-- Close at once, without notices, the windows that a condition names (R292, R354). -/
def State.winCloseAll (s : State) (p : State → Nat → Nat → Bool) : State :=
  s.liveWindows.foldl (fun s e => if p s e.1 e.2 then s.winClose e.1 e.2 aFabWinCloseTmoCnt else s) s

/-- Whether a window lies over `n` scratch bytes of a tile. -/
def State.winOverTile (s : State) (t a n g w : Nat) : Bool :=
  let b := s.winBase g w
  s.winKind g w == 0 && bits b 37 24 == t && decide (bits b 21 0 < a + n) && decide (a < bits b 21 0 + s.winLen g w)

/-- Whether a window lies over `n` stack bytes. -/
def State.winOverStack (s : State) (a n g w : Nat) : Bool :=
  s.winKind g w == 1 && decide (s.winBase g w < a + n) && decide (a < s.winBase g w + s.winLen g w)

/-! ### Managers (R301) -/

/-- Whether this module is the rack manager. -/
def State.isManager (s : State) : Bool := s.rfld aFabModId 11 10 == 1

/-- Whether this module is the root manager. -/
def State.isRoot (s : State) : Bool := s.rbit aFabModId 12

/-- The current manager's module number. -/
def State.managerNo (s : State) : Nat := s.rfld aFabMgrState 11 2

/-- TERM. -/
def State.term (s : State) : Nat := s.rfld aFabMgrState 43 12

/-- The directory entry of a spanning domain at a level (R307). -/
def State.rdirFind (s : State) (choId loc level : Nat) : Option Nat :=
  (s.reg.vals.find? (fun e =>
    decide (aFabRdir 0 ≤ e.1) && decide (e.1 < aFabRdir 1024) && e.1 % 16 == 0 &&
      fld e.2 31 0 == choId && fld e.2 37 32 == loc && bit e.2.toNat 38 && fld e.2 40 40 == level)).map
    (fun e => (e.1 - aFabRdir 0) / 16)

/-- MASK of a directory entry, as the numbers of its bits. -/
def State.rdirMask (s : State) (e : Nat) : List Nat :=
  (List.range 64).filter (fun i => bit (s.reg64 (aFabRdir e + 8)).toNat i)

/-- Whether the domain of an entry also spans racks. -/
def State.rdirUpper (s : State) (e : Nat) : Bool := bit (s.reg64 (aFabRdir e)).toNat 39

end Sys2Proof.Machine
end

