-- ==== Sys2Proof/Machine/Repair.lean ====
section
/-! DEFINITION. Restoring a replay domain to its step-start state (R165, R166, R170) and retiring arrays and tiles (R69, R365). -/

namespace Sys2Proof.Machine

/-! ### Mesh objects -/

/-- The number of the link into a router input. -/
def linkKey (pos input : Nat) : Nat := pos * 5 + input
/-- The number of a router output. -/
def outKey (pos output : Nat) : Nat := pos * 5 + output
/-- The position of a router output. -/
def outPos (key : Nat) : Nat := key / 5
/-- The output of a number. -/
def outDir (key : Nat) : Nat := key % 5

/-- The bit of a LINK_RETIRE payload that marks a sync link; R379 gives data and sync links one payload and leaves this bit
unnamed. DESIGN CHOICE (notes/assumptions/155.md). -/
def syncMark : Nat := 17

/-- A link. -/
def State.link (s : State) (k : Nat) : Link := kvGet {} k s.wafer.links
/-- Replace a link. -/
def State.setLink (s : State) (k : Nat) (x : Link) : State := { s with wafer.links := kvPut {} k x s.wafer.links }
/-- A router output. -/
def State.outp (s : State) (k : Nat) : Output := kvGet {} k s.wafer.outputs
/-- Replace a router output. -/
def State.setOutp (s : State) (k : Nat) (x : Output) : State :=
  { s with wafer.outputs := kvPut {} k x s.wafer.outputs }

/-- The outputs that a choreography owns in a replay domain. -/
def State.domOutputs (s : State) (d : Nat) : List Nat :=
  (s.wafer.outputs.filter (fun e => e.2.cho.isSome && e.2.dom.toNat == d)).map Prod.fst

/-- An output at entry 0 of phase 0. -/
def outReset (o : Output) : Output := { o with phase := 0, rep := 0, entry := 0, moved := 0 }

/-- Reset the outputs of a position to phase 0 (R152, R161). -/
def State.routerReset (s : State) (pos : Nat) : State :=
  { s with wafer.outputs := kvMap {} (fun k o => if outPos k = pos ∧ o.cho.isSome then outReset o else o) s.wafer.outputs }

/-! ### Step-start state (R165) -/

/-- A domain's flags and queues at their step-start values: flags and queue pointers restored, uncommitted gated
flits and releases discarded (R158, R165). -/
def State.restoreSync (s : State) (d : Nat) : State :=
  { s with
    con.flags := kvMap {} (fun _ f =>
      if f.cho.isSome && f.dom.toNat == d then { f with count := f.start, request := none } else f) s.con.flags
    con.queues := kvMap {} (fun _ q =>
      if q.cho.isNone then q
      else if q.gated then
        let q := if q.prodDom.toNat = d then { q with tail := q.pub } else q
        if q.consDom.toNat = d then { q with head := q.free } else q
      else if q.consDom.toNat = d then
        { q with head := q.startHead, free := q.startHead, tail := q.startTail, pub := q.startTail }
      else q) s.con.queues }

/-- A tile at the saved state of its sequencer, with no operation in progress (R116). -/
def restoreTile (x : Tile) : Tile :=
  { x with seq := x.saved, wait := .no, mark := false, outbox := [], reads := [], ctabWait := false, product := none }

/-- The operations of some tiles no longer stand in their counts: the tiles have been restored (R165, R290). Their entries stay
held until the late completions come. -/
def State.ctabStale (s : State) (ts : List Nat) : State :=
  { s with fab.ctab := s.fab.ctab.map (fun e => (e.1, if ts.contains e.2.tile then { e.2 with live := false } else e.2)) }

/-- Whether a flit is of a domain's step: its source tile, or the tile that has asked for it, is a member (R154, R158). DEDUCED
(notes/assumptions/52.md). -/
def State.flitOf (s : State) (d : Nat) (f : Flit) : Bool := (s.tile f.src).dom.isSome && s.domOf f.src == d

/-- Requests that are not a listed tile's. -/
def reqsKeep (ts : List Nat) (l : List StackReq) : List StackReq :=
  l.filter (fun r => match r.who with
    | .tile t => !ts.contains t
    | .engine => true)

/-- The entries of the operations whose header flits of a domain have not left the data mesh (R290). -/
def State.meshTags (s : State) (d : Nat) : List Nat :=
  ((s.wafer.links.flatMap (fun e => e.2.buf ++ e.2.wire) ++ s.wafer.tiles.flatMap (fun e => e.2.outbox)).filter
    (fun f => f.kind == .header && s.flitOf d f)).map flitTag

/-- Flush what the domain's tiles and owned outputs have on their way (R165, R170): the domain's flits wherever they are on the
data mesh with the entries of the operations that never left it, what its outputs have sent, signals, and stack reads whose data
has not returned. -/
def State.flushDom (s : State) (d : Nat) : State :=
  let x := s.dom d
  let away := fun (l : List Flit) => l.filter (fun f => !s.flitOf d f)
  let gone := s.meshTags d
  let s := { s with
    fab.ctab := s.fab.ctab.filter (fun e => !gone.contains e.1)
    wafer.links := kvMap {} (fun _ l => { l with buf := away l.buf, wire := away l.wire }) s.wafer.links
    wafer.tiles := kvMap {} (fun _ t => { t with outbox := away t.outbox }) s.wafer.tiles
    fab.ports := kvMap {} (fun _ p =>
      let l := away p.mesh
      { p with mesh := l, freed := p.freed + BitVec.ofNat 16 (p.mesh.length - l.length) }) s.fab.ports
    wafer.signals := s.wafer.signals.filter (fun g => !x.members.contains g.tile)
    mem.stackUnits := kvMap {} (fun _ k => { k with
      coming := reqsKeep x.members k.coming, queue := reqsKeep x.members k.queue
      busy := reqsKeep x.members k.busy }) s.mem.stackUnits }
  (s.domOutputs d).foldl (fun s k =>
    match neighbour (outPos k) (outDir k) with
    | some p =>
      let lk := linkKey p (opposite (outDir k))
      s.setLink lk { s.link lk with buf := [], wire := [] }
    | none => s) s

/-! ### Beats (R424, R428) -/

/-- Whether a domain is that of the beat choreography. -/
def State.beatDom (s : State) (d : Nat) : Bool :=
  s.beat.cho.isSome && s.beat.cho == some (s.dom d).cho && (s.dom d).state != 0

/-- The beat record of a domain that starts a frame anew after the last committed beat: every tile waits at the barrier. -/
def State.beatAnew (s : State) (d : Nat) : State :=
  let ts := (s.dom d).members
  let n := s.beat.committed
  { s with
    beat.horizon := n
    beat.done := ts.foldl (fun m t => kvPut 0 t n m) []
    beat.reported := ts.foldl (fun m t => kvPut 0 t n m) []
    beat.reports := []
    beat.hold := ts.foldl (fun m t => kvSet t true m) []
    beat.ends := []
    beat.snaps := ts.foldl (fun m t => kvSet t [(s.tile t).seq] m) []
    beat.log := []
    beat.attempt := 0 }

/-- Take back one thing a beat has done. -/
def State.beatUndo (s : State) : BeatOp → State
  | .flag h n =>
    let f := kvGet {} h s.con.flags
    { s with con.flags := kvPut {} h { f with count := BitVec.ofInt 16 ((f.count.toNat : Int) - n) } s.con.flags }
  | .head h n =>
    let q := kvGet {} h s.con.queues
    let p := (q.head + 2 * q.depth - n % (2 * q.depth)) % (2 * q.depth)
    { s with con.queues := kvPut {} h { q with head := p, free := p } s.con.queues }
  | .tail h n =>
    let q := kvGet {} h s.con.queues
    let p := (q.tail + 2 * q.depth - n % (2 * q.depth)) % (2 * q.depth)
    { s with con.queues := kvPut {} h { q with tail := p, pub := p } s.con.queues }
  | .out k phase rep entry moved => s.setOutp k { s.outp k with phase, rep, entry, moved }

/-- A tile at the start of a beat. -/
def beatTile (x : Tile) (q : Seq) : Tile :=
  { x with seq := q, wait := .no, mark := false, outbox := [], reads := [], ctabWait := false, product := none }

/-- Restore a beat domain to the start of beat `b` (R428): tiles that have started it, flags, queue pointers and turn-table
positions; what later beats have on its way is discarded. A tile that has not reached the beat goes on. DEDUCED
(notes/assumptions/29.md). -/
def State.beatRestore (s : State) (d b : Nat) : State :=
  let x := s.dom d
  let started := x.members.filter (fun t => decide (b ≤ kvGet 0 t s.beat.done + 1))
  let late : Flit → Bool := fun f => decide (b ≤ f.beat)
  let keep : Nat → Bool := fun t => !started.contains t
  let undo := (s.beat.log.filter (fun e => decide (b ≤ e.1))).reverse
  let s := undo.foldl (fun s e => s.beatUndo e.2) s
  let s : State := { s with
    wafer.signals := s.wafer.signals.filter (fun g => decide (g.beat < b) || !x.members.contains g.tile)
    wafer.links := kvMap {} (fun _ l => { l with
      buf := l.buf.filter (fun f => !late f), wire := l.wire.filter (fun f => !late f) }) s.wafer.links
    con.flags := kvMap {} (fun _ f => if started.contains f.waiter && f.cho == some x.cho then { f with request := none } else f) s.con.flags
    mem.stackUnits := kvMap {} (fun _ k => { k with
      coming := reqsKeep started k.coming, queue := reqsKeep started k.queue
      busy := reqsKeep started k.busy }) s.mem.stackUnits }
  let s := started.foldl (fun s t =>
    match (kvGet [] t s.beat.snaps)[b - s.beat.committed - 1]? with
    | some q => s.setTile t (beatTile (s.tile t) q)
    | none => s) (s.ctabStale started)
  let s : State := { s with
    beat.horizon := b
    beat.done := started.foldl (fun m t => kvPut 0 t (b - 1) m) s.beat.done
    beat.reported := started.foldl (fun m t => kvPut 0 t (min (kvGet 0 t m) (b - 1)) m) s.beat.reported
    beat.reports := s.beat.reports.filterMap (fun e =>
      let n := b - 1 - min (b - 1) (kvGet 0 e.1 s.beat.reported)
      if keep e.1 then some e else if n = 0 then none else some (e.1, e.2.take n))
    beat.hold := s.beat.hold.filter (fun e => keep e.1)
    beat.ends := s.beat.ends.filter (fun e => decide (e.1 < b))
    beat.snaps := s.beat.snaps.map (fun e => if keep e.1 then e else (e.1, e.2.take (b - s.beat.committed)))
    beat.log := s.beat.log.filter (fun e => decide (e.1 < b)) }
  s.setDom d { s.dom d with events := (s.dom d).events.filter (fun e => decide (e.beat < b)), mark := false }

/-- Restore a domain to its step-start state at once: sequencers, flags, queues and outputs (R166, R170). -/
def State.restoreDom (s : State) (d : Nat) : State :=
  let beat := s.beatDom d
  let x := s.dom d
  let s := ((s.flushDom d).restoreSync d).ctabStale x.members
  let s := x.members.foldl (fun s t => s.setTile t (restoreTile (s.tile t))) s
  let s := (s.domOutputs d).foldl (fun s k => s.setOutp k (outReset (s.outp k))) s
  let s := s.setDom d { x with
    arrived := [], await := [], mark := false, events := [], violated := false
    waiting := false, replaying := false, awaitRelease := false }
  if beat then s.beatAnew d else s

/-- A restored domain stops as an abort (R166), with STATE 4, counted and logged. The detail of
the fault is not stated bit by bit, a free value (notes/assumptions/21.md). -/
def State.abortStop (s : State) (d : Nat) : State :=
  let s := s.bump aChoAbortCnt
  let s := s.setDom d { s.dom d with attempt := 0, stopReq := false }
  let s := (s.fault 1 none (some d) (Config.fresh s.freeCtr).toNat).tickFree
  s.stopDom d 4

/-- The abort of a step: the domain is restored to its step-start state, then stops. -/
def State.abortDom (s : State) (d : Nat) : State := (s.restoreDom d).abortStop d

/-! ### Tiles (R365) -/

/-- The spare of a tile's kind in its field, the lowest position first. DESIGN CHOICE (notes/assumptions/22.md). -/
def State.spareTile (s : State) (t : Nat) : Option Nat :=
  ((List.range 256).map (fun i => posIn (fieldOf t) (i % 16) (i / 16))).find? (fun u =>
    tileKind u == tileKind t && s.mapOf u == 1)

/-- The SPARE_LEFT field of a kind in REP.FIELD_STATE. -/
def spareField (kind : Nat) : Nat × Nat :=
  match kind with
  | 0 => (11, 8)
  | 1 => (14, 12)
  | _ => (15, 15)

/-- A domain of a choreography that names a retired position is restored and stops with STATE 4 and RETIRED_REF
(R365). -/
def State.refStop (s : State) (d : Nat) : State :=
  if (s.dom d).state = 0 then s
  else
    let ran := (s.dom d).state == 2 || (s.dom d).state == 3
    let s := s.restoreDom d
    let s := s.setDom d { s.dom d with retiredRef := true, attempt := 0 }
    let s := if ran then (s.fault 1 none (some d) (Config.fresh s.freeCtr).toNat).tickFree else s
    s.stopDom d 4

/-- Retire a tile (R365), by cause: 1 parity, 2 residue, 3 lockstep, 4 arrays exhausted, 5 third repair. The field map has a
new generation whether or not a spare is left (R41). -/
def State.retireTile (s : State) (t cause : Nat) : State :=
  let own := (s.tile t).cho
  let s := (s.setMap t 2).setTile t { s.tile t with repairPending := false, exhausted := false }
  let s := (s.bump aRepTileRetireCnt).journal 0x12 (pack [(0, t), (14, cause)])
  let s := s.setReg aRepMapGen (s.reg64 aRepMapGen + 1)
  let s := match s.spareTile t with
    | none => s
    | some u =>
      let f := spareField (tileKind t)
      let a := aRepFieldState (fieldOf t)
      ((s.setMap u 0).setRfld a f.1 f.2 (s.rfld a f.1 f.2 - 1)).journal 0x13 u
  match own with
  | none => s
  | some c => (s.choDoms c).foldl (fun s d => s.refStop d) s

/-! ### Arrays (R45, R69) -/

/-- The number of a physical array. -/
def arrKey (t p : Nat) : Nat := t * 17 + p

/-- A physical array in the factory map: 0 to 15 bound to the logical array of the same number, 16 the erased
spare. DESIGN CHOICE (notes/assumptions/3.md). -/
def arrFactory (p : Nat) : ArrayRec := if p = 16 then { state := 2, logical := 15, bound := false } else { logical := BitVec.ofNat 4 p }

/-- A physical array. -/
def State.arrayRec (s : State) (t p : Nat) : ArrayRec := kvGet (arrFactory p) (arrKey t p) s.arr.recs

/-- Replace a physical array. -/
def State.setArray (s : State) (t p : Nat) (x : ArrayRec) : State :=
  { s with arr.recs := kvPut (arrFactory p) (arrKey t p) x s.arr.recs }

/-- The physical array bound to a logical array (R45). -/
def State.physOf (s : State) (t l : Nat) : Option Nat :=
  (List.range 17).find? (fun p => (s.arrayRec t p).bound && (s.arrayRec t p).logical.toNat == l)

/-- Whether an array stands in for another until the next step boundary (R45). -/
def State.standsIn (s : State) (t p : Nat) : Bool := (s.arrayRec t p).standIn.isSome

/-- The tile's spare array, if it is unused and sound. -/
def State.spareArray (s : State) (t : Nat) : Option Nat :=
  (List.range 17).find? (fun p => !(s.arrayRec t p).bound && (s.arrayRec t p).state == 2 && !s.standsIn t p)

/-- Whether the domain of a tile is in a step, so that its array map may not change now (R45). -/
def State.tileInStep (s : State) (t : Nat) : Bool :=
  (s.tile t).dom.isSome && (s.dom (s.domOf t)).state == 2 && !(s.dom (s.domOf t)).waiting

/-- Bind a logical array to another physical array (R45). -/
def State.rebind (s : State) (t old new : Nat) : State :=
  let l := (s.arrayRec t old).logical
  let s := s.setArray t old { s.arrayRec t old with bound := false, logical := 15 }
  s.setArray t new { s.arrayRec t new with bound := true, logical := l }

/-- A spare that stands in for an array takes its place; one that needed no programming is committed. -/
def State.bindSpare (s : State) (t old q : Nat) : State :=
  let s := s.rebind t old q
  let x := s.arrayRec t q
  s.setArray t q { x with standIn := none, state := if x.state = 2 then 0 else x.state }

/-- The spares of a domain that stand in for its retired arrays take their places (R45, R69). -/
def State.bindSpares (s : State) (d : Nat) : State :=
  (s.dom d).repairArrays.foldl (fun s e =>
    match (s.arrayRec e.1 e.2).standIn with
    | some old =>
      let s := s.bindSpare e.1 old e.2
      s.setDom d { s.dom d with repairArrays := (s.dom d).repairArrays.filter (fun r => r != e) }
    | none => s) s

/-- A spare is ready to stand in for an array: it takes its place now, or at the next step boundary of the tile's domain. -/
def State.spareReady (s : State) (t q old : Nat) : State :=
  if !s.tileInStep t then s.bindSpare t old q
  else
    let s := s.setArray t q { s.arrayRec t q with standIn := some old }
    let d := s.domOf t
    if (s.dom d).repairArrays.contains (t, q) then s
    else s.setDom d { s.dom d with repairArrays := (t, q) :: (s.dom d).repairArrays }

/-! ### Programming requests (R76) -/

/-- Bytes of a shadow record (R214). -/
def recordLen : Nat := 139264

/-- Address of a shadow record: 139,264 bytes each from the base (R219). -/
def shadowAt (base k : Nat) : Nat := base + 139264 * k

/-- Whether a request fits the limits: 4 arrays of a tile and 768 of a field at once; an array runs one loop at a time. -/
def State.progFits (s : State) (r : ProgReq) : Bool :=
  !s.arr.running.any (fun q => q.tile == r.tile && q.p == r.p) && decide ((s.arr.running.filter (fun q => q.tile == r.tile)).length < 4) &&
    decide ((s.arr.running.filter (fun q => fieldOf q.tile == fieldOf r.tile)).length < 768)

/-- A request starts: the array reads STATE 3, and its record travels into a slot of the tile's target buffer (R215). -/
def State.progStart (s : State) (r : ProgReq) : State :=
  let s := s.setArray r.tile r.p { s.arrayRec r.tile r.p with state := 3 }
  let s : State := { s with arr.waiting := s.arr.waiting.filter (fun q => !(q.tile == r.tile && q.p == r.p && q.why == r.why)) }
  if r.why == .erase then { s with arr.running := s.arr.running ++ [r] }
  else
    let s := s.pagesTouch false r.record recordLen
    { s with arr.running := s.arr.running ++ [{ r with slot := s.stk r.record recordLen }] }

/-- Start the waiting requests that fit, in the order they were requested. DESIGN CHOICE (notes/assumptions/159.md): until a
request starts, an array that is not a spare keeps its STATE. -/
def State.progPump (s : State) : State :=
  s.arr.waiting.foldl (fun s r =>
    if s.progFits r then s.progStart r else s) s

/-- Ask for an array to be programmed or erased. -/
def State.progAsk (s : State) (r : ProgReq) : State :=
  ({ s with arr.waiting := s.arr.waiting ++ [r] } : State).progPump

/-- Whether an array's weights belong to a loaded instance that still has its generation. -/
def State.arrayOwned (s : State) (x : ArrayRec) : Bool :=
  x.gen != 0 && x.state != 5 && (s.inst x.inst.toNat).state != 0

/-- Whether a domain is held at its barrier by a promenade, an unload or a rollback (R229, R237). -/
def State.domHeld (s : State) (d : Nat) : Bool :=
  let x := s.dom d
  match x.holdAfter with
  | some n => x.waiting && decide (n ≤ x.steps.toNat)
  | none => false

/-- The shadow record that a logical array of a tile is programmed from (R233): the job's new record in a held or
released stage of a promenade, else the instance's record. -/
def State.recordOf (s : State) (i t l : Nat) : Option Nat :=
  let x := s.inst i
  let old := (x.placed.find? (fun p => p.tile == t && p.larr == l)).map (fun p => shadowAt x.shadow p.k)
  match s.jobOf i with
  | none => old
  | some k =>
    match s.load.jobs[k]? with
    | none => old
    | some j =>
      let new := (j.placed.find? (fun p => p.tile == t && p.larr == l)).map (fun p =>
        if j.fetched.contains p.shard then shadowAt (descShadow j.desc) p.k else old.getD (shadowAt (descShadow j.desc) p.k))
      if x.state = 1 then new
      else if x.state = 4 ∨ x.state = 6 then
        let d := s.domOf t
        let passed := match s.domStage i d with
          | some g => x.passed.contains g
          | none => false
        if passed || s.domHeld d then new else old
      else old

/-- A tile that has lost its last array (R69): every domain of the choreography that owns it replays its attempt,
and the tile retires at the boundary; a tile of no choreography retires at once. -/
def State.exhaustTile (s : State) (t : Nat) : State :=
  match (s.tile t).cho with
  | none => s.retireTile t 4
  | some c =>
    let s := s.setTile t { s.tile t with exhausted := true }
    (s.choDoms c).foldl (fun s d => s.setDom d { s.dom d with mark := true }) s

/-- A spare that has reached its endurance limit is retired instead of being programmed (R79). -/
def State.spareWorn (s : State) (t q : Nat) : State :=
  let s := s.setArray t q { s.arrayRec t q with state := 4, suspect := none }
  ((s.bump aRepArrayWornCnt).bump aRepArrayRetireCnt).journal 0x10 (pack [(0, t), (14, q), (19, 5)])

/-- Whether a spare is being programmed to stand in for an array, or waits for the boundary to do so. -/
def State.sparePending (s : State) (t p : Nat) : Bool :=
  (s.arr.waiting ++ s.arr.running).any (fun r => r.tile == t && r.why == .spare p) ||
    (List.range 17).any (fun q => (s.arrayRec t q).standIn == some p)

/-- No self-test of an array is awaited any more. -/
def State.testDone (s : State) (t p : Nat) : State :=
  if (s.tile t).dom.isSome then
    let d := s.domOf t
    s.setDom d { s.dom d with tests := (s.dom d).tests.filter (fun e => e != (t, p)) }
  else s

/-- What a retired array's spare is programmed with: the shadow record of its weights and their instance, if they belong to a
loaded instance. -/
def State.ownRecord (s : State) (t : Nat) (x : ArrayRec) : Option (Nat × BitVec 10) :=
  if s.arrayOwned x then (s.recordOf x.inst.toNat t x.logical.toNat).map (fun r => (r, x.inst)) else none

/-- Retire a physical array (R69), by cause: 1 mismatch, 2 patrol, 3 self-test, 4 program failure, 5 worn. `want` is the
record that its spare is programmed from and the instance that asks for it; the spare's programming is requested and its
domain holds for it. With nothing to program the spare takes its place at the next step boundary (R45); with no spare left
the tile is exhausted. DESIGN CHOICE (notes/assumptions/159.md): the spare reads STATE 3 from the request on. -/
def State.retireFor (s : State) (t p cause : Nat) (want : Option (Nat × BitVec 10)) : State :=
  let x := s.arrayRec t p
  let s := (s.setArray t p { x with state := 4, suspect := none, recheck := false }).testDone t p
  let s := (s.bump aRepArrayRetireCnt).journal 0x10 (pack [(0, t), (14, p), (19, cause)])
  if !x.bound then s
  else
    match s.spareArray t with
    | none => s.exhaustTile t
    | some q =>
      match want with
      | none => s.spareReady t q p
      | some (r, i) =>
        if 100000000 ≤ (s.arrayRec t q).cycles.toNat then (s.spareWorn t q).exhaustTile t
        else
          let s := s.setArray t q { s.arrayRec t q with state := 3 }
          let s := s.progAsk { tile := t, p := q, record := r, inst := i, why := .spare p }
          if (s.tile t).dom.isSome then
            let d := s.domOf t
            s.setDom d { s.dom d with repairArrays := (t, q) :: (s.dom d).repairArrays }
          else s

/-- Retire a physical array whose spare takes over its own weights (R69). -/
def State.retireArray (s : State) (t p cause : Nat) : State := s.retireFor t p cause (s.ownRecord t (s.arrayRec t p))

end Sys2Proof.Machine
end

