-- ==== Sys2Proof/Machine/Float.lean ====
section
/-! DEFINITION. IEEE 754 values as exact binary numbers (R118): decoding, rounding to nearest with ties to even, sums, products, and the correctly rounded exp2, log2, reciprocal and reciprocal square root. -/

namespace Sys2Proof.Machine

/-- A floating-point value: `fin neg m e` is ± m × 2^e, and a zero keeps its sign. -/
inductive Fv where
  | nan
  | inf (neg : Bool)
  | fin (neg : Bool) (m : Nat) (e : Int)
  deriving DecidableEq, Repr

/-- A binary format: exponent bits and fraction bits. -/
structure Fmt where
  eb : Nat
  mb : Nat
  deriving DecidableEq, Repr

/-- FP32. -/
def fp32 : Fmt := { eb := 8, mb := 23 }
/-- BF16. -/
def bf16 : Fmt := { eb := 8, mb := 7 }
/-- FP16 (binary16). -/
def fp16 : Fmt := { eb := 5, mb := 10 }

/-- Exponent bias. -/
def fmtBias (f : Fmt) : Int := 2 ^ (f.eb - 1) - 1

/-- Exponent of the last place of a subnormal. -/
def fmtMin (f : Fmt) : Int := 1 - fmtBias f - f.mb

/-- The value of a bit pattern. -/
def fdec (f : Fmt) (b : Nat) : Fv :=
  let s := b.testBit (f.eb + f.mb)
  let ex := b / 2 ^ f.mb % 2 ^ f.eb
  let fr := b % 2 ^ f.mb
  if ex = 2 ^ f.eb - 1 then (if fr = 0 then .inf s else .nan)
  else if ex = 0 then .fin s fr (fmtMin f)
  else .fin s (2 ^ f.mb + fr) (fmtMin f + (ex : Int) - 1)

/-- m × 2^(e − q) rounded to an integer, to nearest with ties to even. -/
def rneScale (m : Nat) (e q : Int) : Nat :=
  if q ≤ e then m * 2 ^ (e - q).toNat
  else
    let d := 2 ^ (q - e).toNat
    let k := m / d
    let r := m % d
    if 2 * r < d then k else if d < 2 * r then k + 1 else k + k % 2

/-- The bit pattern of a sign. -/
def signBits (f : Fmt) (neg : Bool) : Nat := if neg then 2 ^ (f.eb + f.mb) else 0

/-- The quiet NaN 0x7FC0_0000, 0x7FC0 or its like (R93). -/
def qnan (f : Fmt) : Nat := (2 ^ f.eb - 1) * 2 ^ f.mb + 2 ^ (f.mb - 1)

/-- Infinity. -/
def infBits (f : Fmt) (neg : Bool) : Nat := signBits f neg + (2 ^ f.eb - 1) * 2 ^ f.mb

/-- The largest finite value. -/
def maxBits (f : Fmt) (neg : Bool) : Nat := signBits f neg + (2 ^ f.eb - 1) * 2 ^ f.mb - 1

/-- The magnitude bits of m × 2^e rounded to a format; at or above the infinity pattern it overflows. -/
def roundMag (f : Fmt) (m : Nat) (e : Int) : Nat :=
  if m = 0 then 0
  else
    let q := max ((Nat.log2 m : Int) + e - f.mb) (fmtMin f)
    (q - fmtMin f).toNat * 2 ^ f.mb + rneScale m e q

/-- The bit pattern of a value rounded to nearest, ties to even. -/
def fenc (f : Fmt) : Fv → Nat
  | .nan => qnan f
  | .inf n => infBits f n
  | .fin n m e =>
    let k := roundMag f m e
    if (2 ^ f.eb - 1) * 2 ^ f.mb ≤ k then infBits f n else signBits f n + k

/-- As `fenc`, but a finite value beyond the largest finite value becomes that value (R93, R195); and whether
it did. -/
def fencSat (f : Fmt) : Fv → Nat × Bool
  | .fin n m e =>
    let k := roundMag f m e
    if (2 ^ f.eb - 1) * 2 ^ f.mb ≤ k then (maxBits f n, true) else (signBits f n + k, false)
  | v => (fenc f v, false)

/-- Round a value to a format. -/
def fround (f : Fmt) (v : Fv) : Fv := fdec f (fenc f v)

/-- The sign of a value. -/
def fneg : Fv → Bool
  | .nan => false
  | .inf n => n
  | .fin n _ _ => n

/-- Change the sign. -/
def fopp : Fv → Fv
  | .nan => .nan
  | .inf n => .inf (!n)
  | .fin n m e => .fin (!n) m e

/-- Magnitude. -/
def fabs : Fv → Fv
  | .nan => .nan
  | .inf _ => .inf false
  | .fin _ m e => .fin false m e

/-- The integer ± m × 2^(e − q) for q at most e. -/
def scaleInt (n : Bool) (m : Nat) (e q : Int) : Int :=
  let k : Int := (m * 2 ^ (e - q).toNat : Nat)
  if n then -k else k

/-- Exact sum; an exact zero sum of unlike signs is +0. -/
def fadd : Fv → Fv → Fv
  | .nan, _ => .nan
  | _, .nan => .nan
  | .inf a, .inf b => if a = b then .inf a else .nan
  | .inf a, _ => .inf a
  | _, .inf b => .inf b
  | .fin n m e, .fin n' m' e' =>
    let q := min e e'
    let k := scaleInt n m e q + scaleInt n' m' e' q
    if k = 0 then .fin (n && n') 0 q else .fin (decide (k < 0)) k.natAbs q

/-- Exact product. -/
def fmul : Fv → Fv → Fv
  | .nan, _ => .nan
  | _, .nan => .nan
  | .inf a, .inf b => .inf (a != b)
  | .inf a, .fin n m _ => if m = 0 then .nan else .inf (a != n)
  | .fin n m _, .inf b => if m = 0 then .nan else .inf (n != b)
  | .fin n m e, .fin n' m' e' => .fin (n != n') (m * m') (e + e')

/-- a × b + c with no rounding in between. -/
def ffma (a b c : Fv) : Fv := fadd (fmul a b) c

/-- a < b for numbers; −0 counts as below +0. DEDUCED (notes/assumptions/16.md). -/
def fless : Fv → Fv → Bool
  | .nan, _ => false
  | _, .nan => false
  | .inf a, .inf b => a && !b
  | .inf a, _ => a
  | _, .inf b => !b
  | .fin n m e, .fin n' m' e' =>
    let q := min e e'
    let k := scaleInt n m e q
    let k' := scaleInt n' m' e' q
    decide (k < k') || (k == k' && k == 0 && n && !n')

/-- The larger of two numbers; a NaN wins. -/
def fmax (a b : Fv) : Fv :=
  match a, b with
  | .nan, _ => .nan
  | _, .nan => .nan
  | _, _ => if fless a b then b else a

/-- The smaller of two numbers; a NaN wins. -/
def fmin (a b : Fv) : Fv :=
  match a, b with
  | .nan, _ => .nan
  | _, .nan => .nan
  | _, _ => if fless b a then b else a

/-- ± m × 2^e rounded to an integer, to nearest with ties to even. -/
def frint (n : Bool) (m : Nat) (e : Int) : Int :=
  let k : Int := (rneScale m e 0 : Nat)
  if n then -k else k

/-- An integer as a value. -/
def fofInt (k : Int) : Fv := .fin (decide (k < 0)) k.natAbs 0

/-! ### The functions of R118 -/

/-- Bits of working precision: far beyond what a result's rounding needs. -/
def fracBits : Nat := 320

/-- ln 2 × 2^fracBits by Σ 1 / (k × 2^k), from k = n down. -/
def ln2Sum : Nat → Nat
  | 0 => 0
  | n + 1 => 2 ^ fracBits / ((n + 1) * 2 ^ (n + 1)) + ln2Sum n

/-- ln 2 in fixed point. -/
def ln2Fix : Nat := ln2Sum 330

/-- Σ y^k / k! in fixed point, for the `n` terms from k on, `t` being the k-th term. -/
def expSum (y : Nat) : Nat → Nat → Nat → Nat
  | 0, _, _ => 0
  | n + 1, k, t => t + expSum y n (k + 1) (t * y / 2 ^ fracBits / (k + 1))

/-- 2^x, correctly rounded by what rounds it next (R118). -/
def fexp2 : Fv → Fv
  | .nan => .nan
  | .inf n => if n then .fin false 0 0 else .inf false
  | .fin n m e =>
    if m = 0 then .fin false 1 0
    else if 10 ≤ (Nat.log2 m : Int) + e then (if n then .fin false 1 (-400) else .fin false 1 400)
    else
      let x := scaleInt n m e (-(fracBits : Int))
      let k := x / 2 ^ fracBits
      let r := (x % 2 ^ fracBits).toNat
      if r = 0 then .fin false 1 k
      else .fin false (expSum (r * ln2Fix / 2 ^ fracBits) 90 0 (2 ^ fracBits)) (k - fracBits)

/-- Σ u^(2k+1) / (2k+1) in fixed point, for `n` terms, `t` being u^(2k+1). -/
def atanhSum (u2 : Nat) : Nat → Nat → Nat → Nat
  | 0, _, _ => 0
  | n + 1, k, t => t / (2 * k + 1) + atanhSum u2 n (k + 1) (t * u2 / 2 ^ fracBits)

/-- log2 x (R118). -/
def flog2 : Fv → Fv
  | .nan => .nan
  | .inf n => if n then .nan else .inf false
  | .fin n m e =>
    if m = 0 then .inf true
    else if n then .nan
    else
      let l := Nat.log2 m
      if m = 2 ^ l then fofInt ((l : Int) + e)
      else
        let u := (m - 2 ^ l) * 2 ^ fracBits / (m + 2 ^ l)
        let ln := 2 * atanhSum (u * u / 2 ^ fracBits) 110 0 u
        let t := ((l : Int) + e) * 2 ^ fracBits + (ln * 2 ^ fracBits / ln2Fix : Nat)
        .fin (decide (t < 0)) t.natAbs (-(fracBits : Int))

/-- 1 / x (R118), with a last bit that says whether the quotient goes on. -/
def frcp : Fv → Fv
  | .nan => .nan
  | .inf n => .fin n 0 0
  | .fin n m e =>
    if m = 0 then .inf n
    else
      let k := Nat.log2 m + 200
      let q := 2 ^ k / m
      .fin n (2 * q + (if q * m = 2 ^ k then 0 else 1)) (-(k : Int) - 1 - e)

/-- The integer square root, bit by bit from bit `n − 1` down. -/
def isqrt (x : Nat) : Nat → Nat → Nat
  | 0, r => r
  | n + 1, r =>
    let c := r + 2 ^ n
    isqrt x n (if c * c ≤ x then c else r)

/-- 1 / √x (R118); rsqrt(−0) is −Inf. -/
def frsqrt : Fv → Fv
  | .nan => .nan
  | .inf n => if n then .nan else .fin false 0 0
  | .fin n m e =>
    if m = 0 then .inf n
    else if n then .nan
    else
      let m' := if e % 2 = 0 then m else 2 * m
      let e' := if e % 2 = 0 then e else e - 1
      let k := Nat.log2 m' + 100
      let r := isqrt (2 ^ (2 * k) / m') (k + 1) 0
      .fin false (2 * r + (if r * r * m' = 2 ^ (2 * k) then 0 else 1)) (-(k : Int) - 1 - e' / 2)

end Sys2Proof.Machine
end

