-- ==== Sys2Proof/Machine/Formats.lean ====
section
/-! DEFINITION. The narrow formats: A4B and A8B blocks, their encoder and decoder (R85 to R94), W4S codes (R88), and outlier detection (R98, R99). -/

namespace Sys2Proof.Machine

/-! ### Blocks (R85 to R87) -/

/-- The bytes of a block of 32 elements: 17 for A4B, 33 for A8B. -/
def blkLen (a8 : Bool) : Nat := if a8 then 33 else 17

/-- The block exponent. -/
def blkExp (bs : List Byte) : Nat := (bs.getD 0 0).toNat

/-- Code i of a block. -/
def blkCode (a8 : Bool) (bs : List Byte) (i : Nat) : Int :=
  if a8 then (bs.getD (1 + i) 0).toInt
  else sext 4 ((bs.getD (1 + i / 2) 0).toNat / 16 ^ (i % 2) % 16)

/-- The value of a code at a block exponent (R86). -/
def codeVal (exp : Nat) (c : Int) : Fv :=
  if exp = 0 then .fin false 0 0
  else if exp = 255 then .nan
  else .fin (decide (c < 0)) c.natAbs ((exp : Int) - 127)

/-- Element i of a block. -/
def blkVal (a8 : Bool) (bs : List Byte) (i : Nat) : Fv := codeVal (blkExp bs) (blkCode a8 bs i)

/-- An 8-bit two's-complement code as a byte. -/
def codeByte (c : Int) : Byte := BitVec.ofInt 8 c

/-- Two 4-bit codes in a byte, the lower-indexed one in bits [3:0] (R85, R88). -/
def nibbles (c d : Int) : Byte := BitVec.ofNat 8 ((c % 16).toNat + 16 * (d % 16).toNat)

/-- Pack 4-bit codes, two to a byte. -/
def packNibbles : List Int → List Byte
  | c :: d :: r => nibbles c d :: packNibbles r
  | [c] => [nibbles c 0]
  | [] => []

/-- The bytes of a block. -/
def blkBytes (a8 : Bool) (exp : Nat) (codes : List Int) : List Byte :=
  BitVec.ofNat 8 exp :: (if a8 then codes.map codeByte else packNibbles codes)

/-- A block as a writer stores it: the codes of an exact zero or poison block are zero (R86). -/
def blkClean (a8 : Bool) (bs : List Byte) : List Byte :=
  if blkExp bs = 0 ∨ blkExp bs = 255 then bs.take 1 ++ List.replicate (blkLen a8 - 1) 0 else bs

/-! ### The encoder (R89 to R92) -/

/-- What an encoder made of a block, and the events it counts. -/
structure Encoded where
  exp    : Nat
  codes  : List Int
  zero   : Bool := false
  sat    : Bool := false
  poison : Bool := false
  deriving DecidableEq, Repr

/-- Lowest code of a format. -/
def codeLo (a8 : Bool) : Int := if a8 then -128 else -8
/-- Highest code of a format. -/
def codeHi (a8 : Bool) : Int := if a8 then 127 else 7
/-- The top of a format: the largest magnitude is put in [2^top, 2^(top+1)). -/
def codeTop (a8 : Bool) : Int := if a8 then 6 else 2

/-- The rounded quotient of a value by 2^(exp − 127). -/
def codeAt (exp : Int) : Fv → Int
  | .nan => 0
  | .inf n => if n then -(2 ^ 30) else 2 ^ 30
  | .fin n m e =>
    let k : Int := (rneScale m e (exp - 127) : Nat)
    if n then -k else k

/-- floor(log2 |v|) of a value that is not zero. -/
def floorLog : Fv → Option Int
  | .nan => none
  | .inf _ => some 4096
  | .fin _ m e => if m = 0 then none else some ((Nat.log2 m : Int) + e)

/-- The largest floor(log2 |v|) of the listed values. -/
def topLog : List Fv → Option Int
  | [] => none
  | v :: r =>
    match floorLog v, topLog r with
    | some a, some b => some (max a b)
    | some a, none => some a
    | none, b => b

/-- Whether a code is outside a format's range. -/
def codeOut (a8 : Bool) (c : Int) : Bool := decide (c < codeLo a8) || decide (codeHi a8 < c)

/-- Clamp a code to a format's range. -/
def codeClamp (a8 : Bool) (c : Int) : Int := max (codeLo a8) (min (codeHi a8) c)

/-- The NaN test. -/
def isNan : Fv → Bool
  | .nan => true
  | _ => false

/-- The poison block. -/
def poisonBlock : Encoded := { exp := 255, codes := List.replicate 32 0, poison := true }

/-- The procedure of R89 with the exponent taken over the values `own`; every value of `vs` rounds at that
exponent, and a code outside the range that is not an own value's clamps (R98). -/
def encodeOver (a8 : Bool) (own vs : List Fv) : Encoded :=
  match topLog own with
  | none => { exp := 0, codes := vs.map (fun _ => 0) }
  | some l =>
    let e := min (max (l + 127 - codeTop a8) 1) 254
    let beyond := own.any (fun v => codeOut a8 (codeAt e v))
    let e' := if beyond && decide (e < 254) then e + 1 else e
    let codes := vs.map (fun v => codeClamp a8 (codeAt e' v))
    if codes.all (fun c => c == 0) then { exp := 0, codes := codes, zero := true }
    else { exp := e'.toNat, codes := codes, sat := beyond && decide (e = 254) }

/-- encode_block (R89): a NaN makes the block poison. -/
def encodeBlock (a8 : Bool) (vs : List Fv) : Encoded :=
  if vs.any isNan then poisonBlock else encodeOver a8 vs vs

/-- Cut a list into pieces of n. -/
def chunks {α : Type} (n : Nat) : Nat → List α → List (List α)
  | 0, _ => []
  | _ + 1, [] => []
  | k + 1, l => l.take n :: chunks n k (l.drop n)

/-- Encode a run of whole blocks. -/
def encodeRun (a8 : Bool) (vs : List Fv) : List Encoded := (chunks 32 vs.length vs).map (encodeBlock a8)

/-- The bytes of encoded blocks, packed (R183). -/
def runBytes (a8 : Bool) (es : List Encoded) : List Byte := (es.map (fun e => blkBytes a8 e.exp e.codes)).flatten

/-- Count a run's events for a layer slot (R104). -/
def State.encEvents (s : State) (t : Nat) (slot : BitVec 12) (es : List Encoded) : State :=
  let s := s.numEvent t slot 2 (es.countP (fun e => e.zero))
  let s := s.numEvent t slot 3 (es.countP (fun e => e.sat))
  s.numEvent t slot 5 (es.countP (fun e => e.poison))

/-- The elements of a run of n blocks. -/
def runVals (a8 : Bool) (bs : List Byte) (n : Nat) : List Fv :=
  (List.range n).flatMap (fun b =>
    let blk := (bs.drop (blkLen a8 * b)).take (blkLen a8)
    (List.range 32).map (blkVal a8 blk))

/-! ### Outlier detection (R98, R99) -/

/-- An activation entry of the sidestep path (R99). -/
structure ActEntry where
  chan : Nat
  exp  : Nat
  code : Int
  deriving DecidableEq, Repr

/-- The sum of magnitudes, exact. -/
def sumAbs : List Fv → Fv
  | [] => .fin false 0 0
  | v :: r => fadd (fabs v) (sumAbs r)

/-- Which elements of a block of 32 are outliers: |v| > T_a × mean, compared exactly (R98). DEDUCED
(notes/assumptions/17.md). -/
def outliers (ta : Fv) (vs : List Fv) : List Bool :=
  if vs.any isNan then vs.map (fun _ => false)
  else vs.map (fun v => fless (fmul ta (sumAbs vs)) (fmul (.fin false 32 0) (fabs v)))

/-- The entry of an outlier: R89 applied to the single value with A8B limits (R99). -/
def actEntry (chan : Nat) (v : Fv) : ActEntry :=
  let e := encodeOver true [v] [v]
  { chan := chan, exp := e.exp, code := e.codes.headD 0 }

/-- The bytes of an entry. -/
def entryBytes (a : ActEntry) : List Byte := natLe 4 (pack [(0, a.chan), (16, (a.code % 256).toNat), (24, a.exp)])

/-- The null entry. -/
def nullEntry : ActEntry := { chan := 0, exp := 0, code := 0 }

/-- Read an entry. -/
def entryOf (bs : List Byte) : ActEntry :=
  let v := leNat bs
  { chan := bits v 8 0, exp := bits v 31 24, code := sext 8 (bits v 23 16) }

/-- The bytes of one block's entry list: C_a entries, padded to whole flits (R193). -/
def listLen (ca : Nat) : Nat := (4 * ca + 127) / 128 * 128

/-- Encode one 512-row block of a layer input (R98): the A4B blocks, the entries taken, and the excess. An outlier of at most
2^-127 is taken with EXP 0x00 and its CHAN, reads as null, and counts no block. DEDUCED (notes/assumptions/167.md). -/
def encodeLayer (ta : Fv) (ca : Nat) (vs : List Fv) : List Encoded × List ActEntry × Nat :=
  let marks := if ca = 0 then vs.map (fun _ => false) else (chunks 32 16 vs).flatMap (outliers ta)
  let chans := (List.range 512).filter (fun i => marks.getD i false)
  let taken := chans.take ca
  let blocks := (List.range 16).map (fun b =>
    let at_ (i : Nat) : Fv := vs.getD (32 * b + i) (.fin false 0 0)
    let ix := List.range 32
    let whole := ix.map at_
    if whole.any isNan then poisonBlock
    else
      let rest := ix.map (fun i => if taken.contains (32 * b + i) then .fin false 0 0 else at_ i)
      let plain := (ix.filter (fun i => !marks.getD (32 * b + i) false)).map at_
      let own := match topLog plain with
        | some _ => plain
        | none => rest
      encodeOver false own rest)
  (blocks, taken.map (fun i => actEntry i (vs.getD i (.fin false 0 0))), chans.length - taken.length)

end Sys2Proof.Machine
end

