-- ==== Sys2Proof/Machine/Vector.lean ====
section
/-! DEFINITION. The SIMD unit (R117, R118, R195) and the attention engine (R119, R120, R196) of the vector tiles, with the residue check of their results (R123, R124). -/

namespace Sys2Proof.Machine

/-! ### Element formats (R195) -/

/-- The bytes of n elements of a format: 0 FP32, 1 BF16, 2 INT8, 3 A4B, 4 A8B. -/
def elemLen (fmt n : Nat) : Nat :=
  match fmt with
  | 0 => 4 * n
  | 1 => 2 * n
  | 2 => n
  | 3 => 17 * (n / 32)
  | _ => 33 * (n / 32)

/-- The elements a format allows in one instruction. -/
def elemMax (fmt : Nat) : Nat :=
  match fmt with
  | 0 => 128
  | 1 => 256
  | 2 => 512
  | 3 => 512
  | 4 => 256
  | _ => 0

/-- The count rules of R195: the limits of both formats, whole blocks. -/
def countOk (fmt dfmt n : Nat) : Bool :=
  decide (n ≤ elemMax fmt) && decide (n ≤ elemMax dfmt) &&
    (!(decide (3 ≤ fmt) || decide (3 ≤ dfmt)) || n % 32 == 0)

/-- Bit patterns of consecutive values of `size` bytes. -/
def patterns (size : Nat) (bs : List Byte) : List Nat := (chunks size bs.length bs).map leNat

/-- The value of an element's bits. -/
def elemVal (fmt b : Nat) : Fv :=
  match fmt with
  | 0 => fdec fp32 b
  | 1 => fdec bf16 b
  | _ => fofInt (sext 8 b)

/-- The values of n elements; a block's elements take their values of R86. -/
def elemVals (fmt n : Nat) (bs : List Byte) : List Fv :=
  match fmt with
  | 0 => (patterns 4 bs).map (fdec fp32)
  | 1 => (patterns 2 bs).map (fdec bf16)
  | 2 => (patterns 1 bs).map (fun b => fofInt (sext 8 b))
  | 3 => runVals false bs (n / 32)
  | _ => runVals true bs (n / 32)

/-- A value rounded to an integer and saturated to INT8 (R118); a NaN is 0. -/
def toInt8 : Fv → Int
  | .nan => 0
  | .inf n => if n then -128 else 127
  | .fin n m e => max (-128) (min 127 (frint n m e))

/-- The NaN result of an operation: the quiet NaN of the format for a NaN operand (R93, R94), else a quiet NaN
whose other bits IEEE 754 leaves open. -/
def nanBits (fmt : Nat) (nanIn : Bool) (pay : BitVec 32) : Nat :=
  if fmt = 0 then (if nanIn then 0x7FC00000 else (0x7FC00000 ||| pay).toNat)
  else (if nanIn then 0x7FC0 else 0x7FC0 ||| (pay.toNat % 65536))

/-- The bytes of a result element. -/
def elemBytes (fmt : Nat) (nanIn : Bool) (pay : BitVec 32) (v : Fv) : List Byte :=
  match fmt with
  | 0 => natLe 4 (match v with
    | .nan => nanBits 0 nanIn pay
    | v => fenc fp32 v)
  | 1 => natLe 2 (match v with
    | .nan => nanBits 1 nanIn pay
    | v => fenc bf16 v)
  | _ => [codeByte (toInt8 v)]

/-! ### The frame of a vector operation -/

/-- The operation is done: it counts, and a residue mismatch withholds its result and marks the step (R124). -/
def State.vecDone (s : State) (w : At) (cnt n : Nat) (write : State → State) : State :=
  let t := w.tile.toNat
  let s := s.bumpBy cnt n
  (if w.fault then s.residue t else write s).retire t

/-- The scratch offset of a scale constant of the layer slot that an instruction reads with another value than
its record gives (R175, check 6). -/
def State.scaleBad (s : State) (t : Nat) (slot : BitVec 12) (reads : List Access) : Option Nat :=
  if !(s.dom (s.domOf t)).loupe then none
  else
    match s.choOf (s.dom (s.domOf t)).cho with
    | none => none
    | some c =>
      (c.image.scales.find? (fun r =>
        let n := if r.bf16 then 2 else 4
        r.tile == t && r.slot == slot &&
          reads.any (fun a => decide (a.addr ≤ r.off) && decide (r.off + n ≤ a.addr + a.len)) &&
          leNat (s.scr t r.off n) != r.value.toNat % 2 ^ (8 * n))).map (fun r => r.off)

/-- A SIMD operation with its accesses: operands read, then the result's bytes written (R117). -/
def State.vecRun (s : State) (w : At) (slot : BitVec 12) (reads : List Access) (dst : BitVec 4) (len : Nat)
    (result : State → List Byte) (count : State → State) : State :=
  let t := w.tile.toNat
  let d := s.ptr16 t dst
  match s.scaleBad t slot reads with
  | some off => s.hazard 6 t (s.domOf t) 0 off
  | none =>
    s.guarded t (reads ++ [wrAcc d len]) (fun s =>
      s.vecDone w (aVecwSimdOpCnt t) 1 (fun s => count (s.scrWrite t d (result s))))

/-- Elements of an instruction. -/
def vecCount (o : VecOps) : Nat := o.elems.toNat + 1

/-- The read of an operand of n elements in the source format. -/
def State.vecRead (s : State) (t : Nat) (o : VecOps) (p : BitVec 4) (n : Nat) : Access :=
  rdAcc (s.ptr16 t p) (elemLen o.fmt.toNat n)

/-- Bit patterns of an operand of n elements in FP32, BF16 or INT8. -/
def State.vecBits (s : State) (t : Nat) (o : VecOps) (p : BitVec 4) (n : Nat) : List Nat :=
  let f := o.fmt.toNat
  patterns (elemLen f 1) (s.scr t (s.ptr16 t p) (elemLen f n))

/-- Run an instruction whose formats and count the load check admits (R180, R195). No tile holds another. -/
def State.vecForm (s : State) (w : At) (fmts : List Nat) (o : VecOps) (same : Bool) (k : State → State) : State :=
  s.onTile w [1] (fun s =>
    if fmts.contains o.fmt.toNat && countOk o.fmt.toNat o.dfmt.toNat (vecCount o) && (!same || o.dfmt == o.fmt)
    then k s else s)

/-- An element-wise operation on A, B and C in FP32, BF16 or INT8; `first` reads C[0] for every element. `f` forms
the exact result. -/
def State.vecMap (s : State) (w : At) (o : VecOps) (fmts : List Nat) (useB useC first : Bool) (code : Nat)
    (f : Fv → Fv → Fv → Fv) : State :=
  let t := w.tile.toNat
  s.vecForm w fmts o true (fun s =>
    let n := vecCount o
    let fm := o.fmt.toNat
    let rs := [s.vecRead t o o.srcA n] ++ (if useB then [s.vecRead t o o.srcB n] else []) ++
      (if useC then [s.vecRead t o o.srcC (if first then 1 else n)] else [])
    s.vecRun w o.lslot rs o.dst (elemLen fm n) (fun s =>
      let as_ := s.vecBits t o o.srcA n
      let bs := if useB then s.vecBits t o o.srcB n else []
      let cs := if useC then s.vecBits t o o.srcC (if first then 1 else n) else []
      (List.range n).flatMap (fun i =>
        let a := as_.getD i 0
        let b := bs.getD i 0
        let c := cs.getD (if first then 0 else i) 0
        let nanIn := isNan (elemVal fm a) || (useB && isNan (elemVal fm b)) || (useC && isNan (elemVal fm c))
        elemBytes fm nanIn (Config.nanPayload (code + 64 * c) (BitVec.ofNat 32 a) (BitVec.ofNat 32 b))
          (f (elemVal fm a) (elemVal fm b) (elemVal fm c))))
      id)

/-- A reduction (R195): from the seed C[0], the elements in ascending index, each step rounded to FP32; an INT8
reduction is exact. The result is rounded once to the format. -/
def State.vecReduce (s : State) (w : At) (o : VecOps) (code : Nat) (f : Fv → Fv → Fv) : State :=
  let t := w.tile.toNat
  s.vecForm w [0, 1, 2] o true (fun s =>
    let n := vecCount o
    let fm := o.fmt.toNat
    s.vecRun w o.lslot [s.vecRead t o o.srcA n, s.vecRead t o o.srcC 1] o.dst (elemLen fm 1) (fun s =>
      let as_ := s.vecBits t o o.srcA n
      let c := (s.vecBits t o o.srcC 1).getD 0 0
      let vs := as_.map (elemVal fm)
      let nanIn := isNan (elemVal fm c) || vs.any isNan
      let pay := as_.foldl (fun p a => Config.nanPayload code p (BitVec.ofNat 32 a)) (BitVec.ofNat 32 c)
      let one (acc v : Fv) : Fv := if fm = 2 then f acc v else fround fp32 (f acc v)
      elemBytes fm nanIn pay (vs.foldl one (elemVal fm c)))
      id)

/-! ### VEC (R195) -/

/-- VEC.COPY: D = A, the bits as they are; blocks move whole, with the codes of an exact zero or poison block
written as zero (R86). -/
def execVecCopy (w : At) (o : VecOps) (s : State) : Host.Outcome State Fault Refusal :=
  let t := w.tile.toNat
  .next (s.vecForm w [0, 1, 2, 3, 4] o true (fun s =>
    let n := vecCount o
    let fm := o.fmt.toNat
    let len := elemLen fm n
    s.vecRun w o.lslot [s.vecRead t o o.srcA n] o.dst len (fun s =>
      let bs := s.scr t (s.ptr16 t o.srcA) len
      if fm < 3 then bs else ((chunks (blkLen (fm == 4)) n bs).map (blkClean (fm == 4))).flatten)
      id))

/-- VEC.ADD: D = A + B. -/
def execVecAdd (w : At) (o : VecOps) (s : State) : Host.Outcome State Fault Refusal :=
  .next (s.vecMap w o [0, 1, 2] true false false 1 (fun a b _ => fadd a b))

/-- VEC.SUB: D = A − B. -/
def execVecSub (w : At) (o : VecOps) (s : State) : Host.Outcome State Fault Refusal :=
  .next (s.vecMap w o [0, 1, 2] true false false 2 (fun a b _ => fadd a (fopp b)))

/-- VEC.MUL: D = A × B. -/
def execVecMul (w : At) (o : VecOps) (s : State) : Host.Outcome State Fault Refusal :=
  .next (s.vecMap w o [0, 1, 2] true false false 3 (fun a b _ => fmul a b))

/-- VEC.FMA: D = A × B + C, one rounding. -/
def execVecFma (w : At) (o : VecOps) (s : State) : Host.Outcome State Fault Refusal :=
  .next (s.vecMap w o [0, 1, 2] true true false 4 (ffma))

/-- VEC.MAX: D = max(A, B). -/
def execVecMax (w : At) (o : VecOps) (s : State) : Host.Outcome State Fault Refusal :=
  .next (s.vecMap w o [0, 1, 2] true false false 5 (fun a b _ => fmax a b))

/-- VEC.MIN: D = min(A, B). -/
def execVecMin (w : At) (o : VecOps) (s : State) : Host.Outcome State Fault Refusal :=
  .next (s.vecMap w o [0, 1, 2] true false false 6 (fun a b _ => fmin a b))

/-- VEC.ABS: D = abs(A). -/
def execVecAbs (w : At) (o : VecOps) (s : State) : Host.Outcome State Fault Refusal :=
  .next (s.vecMap w o [0, 1, 2] false false false 7 (fun a _ _ => fabs a))

/-- VEC.SCALE: D = A × C[0]. -/
def execVecScale (w : At) (o : VecOps) (s : State) : Host.Outcome State Fault Refusal :=
  .next (s.vecMap w o [0, 1, 2] false true true 8 (fun a _ c => fmul a c))

/-- VEC.EXP2: D = 2^A, correctly rounded (R118). -/
def execVecExp2 (w : At) (o : VecOps) (s : State) : Host.Outcome State Fault Refusal :=
  .next (s.vecMap w o [0] false false false 16 (fun a _ _ => fexp2 a))

/-- VEC.LOG2: D = log2 A, correctly rounded (R118). -/
def execVecLog2 (w : At) (o : VecOps) (s : State) : Host.Outcome State Fault Refusal :=
  .next (s.vecMap w o [0] false false false 17 (fun a _ _ => flog2 a))

/-- VEC.RCP: D = 1 / A, correctly rounded (R118). -/
def execVecRcp (w : At) (o : VecOps) (s : State) : Host.Outcome State Fault Refusal :=
  .next (s.vecMap w o [0] false false false 18 (fun a _ _ => frcp a))

/-- VEC.RSQRT: D = 1 / √A, correctly rounded (R118). -/
def execVecRsqrt (w : At) (o : VecOps) (s : State) : Host.Outcome State Fault Refusal :=
  .next (s.vecMap w o [0] false false false 19 (fun a _ _ => frsqrt a))

/-- VEC.SUMRED: D[0] = C[0] + Σ A. -/
def execVecSumred (w : At) (o : VecOps) (s : State) : Host.Outcome State Fault Refusal :=
  .next (s.vecReduce w o 24 (fadd))

/-- VEC.MAXRED: D[0] = max(C[0], max A). -/
def execVecMaxred (w : At) (o : VecOps) (s : State) : Host.Outcome State Fault Refusal :=
  .next (s.vecReduce w o 25 (fmax))

/-- VEC.SQSUMRED: D[0] = C[0] + Σ A², each step fused. -/
def execVecSqsumred (w : At) (o : VecOps) (s : State) : Host.Outcome State Fault Refusal :=
  .next (s.vecReduce w o 26 (fun acc a => ffma a a acc))

/-- The bytes of one element converted to a format (R195), and whether a finite value saturated. -/
def cvtBytes (dfmt : Nat) (v : Fv) : List Byte × Bool :=
  match dfmt with
  | 0 => (natLe 4 (fencSat fp32 v).1, (fencSat fp32 v).2)
  | 1 => (natLe 2 (fencSat bf16 v).1, (fencSat bf16 v).2)
  | _ =>
    let sat := match v with
      | .fin n m e => decide (frint n m e < -128) || decide (127 < frint n m e)
      | _ => false
    ([codeByte (toInt8 v)], sat)

/-- VEC.CVT: D = A converted from FMT to DFMT with round to nearest even and saturation. -/
def execVecCvt (w : At) (o : VecOps) (s : State) : Host.Outcome State Fault Refusal :=
  let t := w.tile.toNat
  .next (s.vecForm w [0, 1, 2] o false (fun s =>
    if 2 < o.dfmt.toNat then s
    else
      let n := vecCount o
      let vs := (s.vecBits t o o.srcA n).map (elemVal o.fmt.toNat)
      let rs := vs.map (cvtBytes o.dfmt.toNat)
      s.vecRun w o.lslot [s.vecRead t o o.srcA n] o.dst (elemLen o.dfmt.toNat n) (fun _ => (rs.map Prod.fst).flatten)
        (fun s =>
          let s := if rs.any Prod.snd then s.numEvent t o.lslot 3 1 else s
          if o.dfmt.toNat = 2 ∧ vs.any isNan then s.numEvent t o.lslot 5 1 else s)))

/-- VEC.ENC: A in FP32 or BF16 encoded by R89 into A4B or A8B. -/
def execVecEnc (w : At) (o : VecOps) (s : State) : Host.Outcome State Fault Refusal :=
  let t := w.tile.toNat
  .next (s.vecForm w [0, 1] o false (fun s =>
    if o.dfmt.toNat = 3 ∨ o.dfmt.toNat = 4 then
      let n := vecCount o
      let a8 := o.dfmt.toNat == 4
      let es := encodeRun a8 ((s.vecBits t o o.srcA n).map (elemVal o.fmt.toNat))
      s.vecRun w o.lslot [s.vecRead t o o.srcA n] o.dst (elemLen o.dfmt.toNat n) (fun _ => runBytes a8 es)
        (fun s => s.encEvents t o.lslot es)
    else s))

/-- VEC.DEC: A in A4B or A8B decoded by R93 into FP32 or BF16; a block with a saturated element counts once. -/
def execVecDec (w : At) (o : VecOps) (s : State) : Host.Outcome State Fault Refusal :=
  let t := w.tile.toNat
  .next (s.vecForm w [3, 4] o false (fun s =>
    if o.dfmt.toNat ≤ 1 then
      let n := vecCount o
      let fm := o.fmt.toNat
      let vs := elemVals fm n (s.scr t (s.ptr16 t o.srcA) (elemLen fm n))
      let rs := vs.map (cvtBytes o.dfmt.toNat)
      s.vecRun w o.lslot [s.vecRead t o o.srcA n] o.dst (elemLen o.dfmt.toNat n) (fun _ => (rs.map Prod.fst).flatten)
        (fun s => s.numEvent t o.lslot 3 ((chunks 32 n rs).countP (fun c => c.any Prod.snd)))
    else s))

/-! ### The attention engine (R119, R120, R196) -/

/-- The pitch of a row of an operand of DOT. -/
def dotPitch (ofmt kc : Nat) : Nat :=
  let raw := kc * (match ofmt with
    | 0 => 32
    | 1 => 33
    | _ => 17)
  (raw + 15) / 16 * 16

/-- The 32 codes of a chunk, and its exponent (128, which means nothing, for plain INT8). -/
def dotChunk (ofmt : Nat) (row : List Byte) (c : Nat) : Nat × List Int :=
  match ofmt with
  | 0 => (128, ((row.drop (32 * c)).take 32).map (fun b => b.toInt))
  | 1 =>
    let blk := (row.drop (33 * c)).take 33
    (blkExp blk, (List.range 32).map (blkCode true blk))
  | _ =>
    let blk := (row.drop (17 * c)).take 17
    (blkExp blk, (List.range 32).map (blkCode false blk))

/-- The exact chunk sum. -/
def dotSum : List Int → List Int → Int
  | a :: r, b :: r' => a * b + dotSum r r'
  | _, _ => 0

/-- An accumulator after one chunk (R120): plain INT8 saturates as INT32, the block formats add in FP32. -/
def dotStep (ofmt : Nat) (acc : Half) (a b : Nat × List Int) : Half :=
  let p := dotSum a.2 b.2
  if ofmt = 0 then BitVec.ofInt 32 (max (-(2 ^ 31)) (min (2 ^ 31 - 1) (acc.toInt + p)))
  else if a.1 = 255 ∨ b.1 = 255 then BitVec.ofNat 32 (qnan fp32)
  else if a.1 = 0 ∨ b.1 = 0 then acc
  else
    let q : Fv := .fin (decide (p < 0)) p.natAbs ((a.1 : Int) + b.1 - 254)
    BitVec.ofNat 32 (fenc fp32 (fadd (fdec fp32 acc.toNat) q))

/-- An accumulator after the chunks from c on. -/
def dotChunks (ofmt : Nat) (rowA rowB : List Byte) (acc : Half) (c : Nat) : Nat → Half
  | 0 => acc
  | n + 1 => dotChunks ofmt rowA rowB (dotStep ofmt acc (dotChunk ofmt rowA c) (dotChunk ofmt rowB c)) (c + 1) n

/-- The accumulators after a DOT, by 64 × i + j. -/
def dotAcc (o : DotOps) (rowsA rowsB : List (List Byte)) (acc : KV Half) : KV Half :=
  ((List.range 4096).map (fun k =>
    let a0 : Half := if o.clr then 0 else kvGet 0 k acc
    (k, dotChunks o.ofmt.toNat (rowsA.getD (k / 64) []) (rowsB.getD (k % 64) []) a0 0 (o.kc.toNat + 1)))).filter
    (fun e => e.2 != 0)

/-- The bytes of an accumulator in the write-back format: 1 FP32, 2 BF16, 3 INT32. -/
def accBytes (ofmt wfmt : Nat) (a : Half) : List Byte :=
  let v := if ofmt = 0 then fofInt a.toInt else fdec fp32 a.toNat
  match wfmt with
  | 1 => natLe 4 (fenc fp32 v)
  | 2 => natLe 2 (fenc bf16 v)
  | _ => natLe 4 a.toNat

/-- The bytes a write-back stores. -/
def accLen (wfmt : Nat) : Nat :=
  match wfmt with
  | 0 => 0
  | 2 => 8192
  | _ => 16384

/-- Accumulators after a residue mismatch of a DOT: the spec does not say what they hold. -/
def accFree (n : Nat) : KV Half :=
  ((List.range 4096).map (fun k => (k, (Config.dotAcc n k)))).filter (fun e => e.2 != 0)

/-- DOT: the attention engine over KC + 1 chunks of 64 rows of A and 64 of B, and the write-back (R120). -/
def execDot (w : At) (o : DotOps) (s : State) : Host.Outcome State Fault Refusal :=
  let t := w.tile.toNat
  .next (s.onTile w [1] (fun s =>
    if o.ofmt = 3 ∨ (o.wfmt = 3 ∧ o.ofmt ≠ 0) then s
    else
      let pitch := dotPitch o.ofmt.toNat (o.kc.toNat + 1)
      let a := s.ptr16 t o.srcA
      let b := s.ptr16 t o.srcB
      let d := s.ptr16 t o.dst
      let len := accLen o.wfmt.toNat
      s.guarded t [rdAcc a (64 * pitch), rdAcc b (64 * pitch), wrAcc d len] (fun s =>
        let row (base i : Nat) : List Byte := s.scr t (base + pitch * i) pitch
        let acc := dotAcc o ((List.range 64).map (row a)) ((List.range 64).map (row b)) (s.tile t).seq.acc
        let acc := if w.fault then accFree s.freeCtr else acc
        let s := (s.modSeq t (fun q => { q with acc := acc })).tickFree
        s.vecDone w (aVecwDotChunkCnt t) (o.kc.toNat + 1) (fun s =>
          if len = 0 then s
          else s.scrWrite t d ((List.range 4096).flatMap (fun k =>
            accBytes o.ofmt.toNat o.wfmt.toNat (kvGet 0 k acc)))))))

end Sys2Proof.Machine
end

