-- ==== Sys2Proof/Machine/Sidestep.lean ====
section
/-! DEFINITION. The sidestep path on the vector tile (R96 to R102, R193): SIDE.ENC, SIDE.WADD and SIDE.AADD. -/

namespace Sys2Proof.Machine

/-- A sidestep operation of the SIMD unit: how many SIMD cycles it counts is not stated, a free value
(notes/assumptions/18.md). -/
def State.sideDone (s : State) (w : At) (write : State → State) : State :=
  s.tickFree.vecDone w (aVecwSimdOpCnt w.tile.toNat) (Config.fresh s.freeCtr).toNat write

/-- SIDE.ENC (R98): encodes NBLK 512-row blocks with outlier detection into packed A4B blocks and entry lists. -/
def execSideEnc (w : At) (o : EncOps) (s : State) : Host.Outcome State Fault Refusal :=
  let t := w.tile.toNat
  .next (s.onTile w [1] (fun s =>
    let n := o.nblk.toNat + 1
    let ca := o.ca.toNat
    let size := if o.sfmt then 2 else 4
    let src := s.ptr16 t o.srcP
    let out := s.ptr16 t o.outP
    let lst := s.ptr16 t o.listP
    let bad := match s.recipe t o.lslot with
      | some r => r.ta != o.ta || r.ca != ca
      | none => false
    s.recipeGuard t bad <| s.guarded t [rdAcc src (512 * n * size), wrAcc out (272 * n), wrAcc lst (listLen ca * n)] (fun s =>
      let vs := (patterns size (s.scr t src (512 * n * size))).map (fdec (if o.sfmt then bf16 else fp32))
      let rs := (chunks 512 n vs).map (encodeLayer (fdec fp16 o.ta.toNat) ca)
      s.sideDone w (fun s =>
        let s := s.scrWrite t out ((rs.map (fun r => runBytes false r.1)).flatten)
        let s := s.scrWrite t lst ((rs.map (fun r =>
          let b := (r.2.1.map entryBytes).flatten
          b ++ List.replicate (listLen ca - b.length) 0)).flatten)
        let s := (rs.map (fun r => r.1)).foldl (fun s es => s.encEvents t o.lslot es) s
        s.numEvent t o.lslot 4 ((rs.map (fun r => r.2.2)).foldl (· + ·) 0)))))

/-- A weight entry (R96): row, column and two's-complement weight. -/
structure WEntry where
  row : Nat
  col : Nat
  val : Nat
  deriving DecidableEq, Repr

/-- Read a weight entry. -/
def wEntryOf (bs : List Byte) : WEntry :=
  let v := leNat bs
  { row := bits v 8 0, col := bits v 17 9, val := bits v 25 18 }

/-- The activation entries of block k of the lists at an address. -/
def State.actList (s : State) (t a ca k : Nat) : List ActEntry :=
  (chunks 4 ca (s.scr t (a + listLen ca * k) (4 * ca))).map entryOf

/-- Replace an element of a list of outputs. -/
def setOut (ys : List Fv) (i : Nat) (v : Fv) : List Fv := ys.set i v

/-- y + a × W × SCALE in FP32, each operation rounded. DEDUCED (notes/assumptions/17.md). -/
def sideAdd (y a w sc : Fv) : Fv := fround fp32 (fadd y (fround fp32 (fmul (fround fp32 (fmul a w)) sc)))

/-- Add the weight entries of one array (R97): `val` gives the value of the row's input channel. -/
def addWeights (val : Nat → Fv) (scale : Nat → Fv) : List WEntry → List Fv → List Fv
  | [], ys => ys
  | e :: r, ys =>
    if e.val = 0 then addWeights val scale r ys
    else
      let y := ys.getD e.col .nan
      let y' := if e.val = 128 then Fv.nan else sideAdd y (val e.row) (fofInt (sext 8 e.val)) (scale e.col)
      addWeights val scale r (setOut ys e.col y')

/-- The value of a channel of chain position k: its A8B value if the channel took the sidestep, else its A4B
value (R97). -/
def channelVal (acts : List ActEntry) (input : List Byte) (row : Nat) : Fv :=
  match acts.find? (fun a => a.exp != 0 && a.chan == row) with
  | some a => codeVal a.exp a.code
  | none => blkVal false ((input.drop (17 * (row / 32))).take 17) (row % 32)

/-- SIDE.WADD (R97, R102): adds the weight entries, in list order, to the 512 FP32 outputs at Y_P. An entry with
VAL 0x80 makes its column poison, and the product counts as made poison, though its MVM may have counted it. DESIGN CHOICE
(notes/assumptions/168.md). -/
def execSideWadd (w : At) (o : WaddOps) (s : State) : Host.Outcome State Fault Refusal :=
  let t := w.tile.toNat
  .next (s.onTile w [1] (fun s =>
    let n := o.nch.toNat + 1
    let ca := o.ca.toNat
    let cw := o.cw.toNat
    let y := s.ptr16 t o.yP
    let wp := s.ptr16 t o.wP
    let inp := s.ptr16 t o.inP
    let act := s.ptr16 t o.actP
    let differs := match s.recipe t o.lslot with
      | some r => r.ca != ca || r.cw != cw
      | none => false
    s.recipeGuard t differs <| s.guarded t [rdAcc y 2048, rdAcc wp (1024 + 4 * cw * n), rdAcc inp (272 * n), rdAcc act (listLen ca * n),
        wrAcc y 2048] (fun s =>
      let ys := (patterns 4 (s.scr t y 2048)).map (fdec fp32)
      let scales := (patterns 2 (s.scr t wp 1024)).map (fdec fp16)
      let lists := (List.range n).map (fun k =>
        (chunks 4 cw (s.scr t (wp + 1024 + 4 * cw * k) (4 * cw))).map wEntryOf)
      let ys' := (List.range n).foldl (fun ys k =>
        addWeights (channelVal (s.actList t act ca k) (s.scr t (inp + 272 * k) 272)) (fun c => scales.getD c .nan)
          (lists.getD k []) ys) ys
      let bad := lists.any (fun l => l.any (fun e => e.val == 128))
      s.sideDone w (fun s =>
        let s := s.scrWrite t y (ys'.flatMap (fun v => natLe 4 (fenc fp32 v)))
        s.numEvent t o.lslot 5 (b2n bad)))))

/-- Add one activation entry to every output (R101). -/
def addRow (v : Fv) (codes : List Int) (scales ys : List Fv) : List Fv :=
  (List.range 512).map (fun c =>
    sideAdd (ys.getD c .nan) v (fofInt (codes.getD c 0)) (scales.getD c .nan))

/-- The 512 W4S codes of two row flits (R88, R100). -/
def rowCodes (bs : List Byte) : List Int := (List.range 512).map (fun i =>
  sext 4 ((bs.getD (i / 2) 0).toNat / 16 ^ (i % 2) % 16))

/-- The bytes of `n` flits of a queue from its head, in ring order. -/
def State.queueBytes (s : State) (t : Nat) (q : Queue) : Nat → Nat → List Byte
  | _, 0 => []
  | p, n + 1 => s.scr t (queueSlot q p) 128 ++ s.queueBytes t q (ringStep q.depth p 1) n

/-- The reads of `n` flits of a queue from its head. -/
def queueReads (q : Queue) : Nat → Nat → List Access
  | _, 0 => []
  | p, n + 1 => rdAcc (queueSlot q p) 128 :: queueReads q (ringStep q.depth p 1) n

/-- SIDE.AADD (R101, R102): waits until the queue holds the row flits of NBLK × C_a slots, takes them, and adds
the activation entries, in list order, block by block, to the outputs at Y_P. -/
def execSideAadd (w : At) (o : AaddOps) (s : State) : Host.Outcome State Fault Refusal :=
  let t := w.tile.toNat
  .next (s.onTile w [1] (fun s =>
    let n := o.nblk.toNat + 1
    let ca := o.ca.toNat
    let h := o.queue.toNat
    let y := s.ptr16 t o.yP
    let wp := s.ptr16 t o.wP
    let act := s.ptr16 t o.actP
    s.asConsumer t h (fun q =>
      let differs := match s.recipe t o.lslot with
        | some r => r.ca != ca
        | none => false
      if queueHolds q < 2 * n * ca then s
      else s.recipeGuard t differs <| s.guarded t [rdAcc y 2048, rdAcc wp 1024, rdAcc act (listLen ca * n), wrAcc y 2048] (fun s =>
        let s := s.touch t (queueReads q q.head (2 * n * ca))
        let ys := (patterns 4 (s.scr t y 2048)).map (fdec fp32)
        let scales := (patterns 2 (s.scr t wp 1024)).map (fdec fp16)
        let entries := (List.range n).flatMap (fun k => s.actList t act ca k)
        let rows := chunks 256 entries.length (s.queueBytes t q q.head (2 * n * ca))
        let ys' := (entries.zip rows).foldl (fun ys e =>
          if e.1.exp = 0 then ys else addRow (codeVal e.1.exp e.1.code) (rowCodes e.2) scales ys) ys
        let beat := s.beatOf t
        let s := (s.setQueue h (queueRelease q (2 * n * ca))).beatNote beat (.head h (2 * n * ca))
        s.sideDone w (fun s => s.scrWrite t y (ys'.flatMap (fun v => natLe 4 (fenc fp32 v))))))))

end Sys2Proof.Machine
end

