-- ==== Sys2Proof/Machine/Arrays.lean ====
section
/-! DEFINITION. The compute-in-memory arrays (02_compute_in_memory_arrays.md): products, passes and their checks, row fetches, converter self-tests, patrols and refreshes. -/

namespace Sys2Proof.Machine

/-! ### Cells and the converter code (R42, R52, R53, R67) -/

/-- The weight in a cell pair of a physical array. -/
def State.cell (s : State) (t p r c : Nat) : Int := (kvGet 0 ((arrKey t p * 512 + r) * 512 + c) s.arr.cells).toInt

/-- num / den rounded to the nearest integer, ties away from zero. -/
def roundAway (num : Int) (den : Nat) : Int :=
  let k : Int := ((2 * num.natAbs + den) / (2 * den) : Nat)
  if num < 0 then -k else k

/-- Clamp to ±m. -/
def clampTo (m : Int) (k : Int) : Int := max (-m) (min m k)

/-- The converter error of R53 and R67, from −2 to +2: a free value. -/
def convErr (n k : Nat) : Int := (Config.convError n k % 5 : Nat) - 2

/-- Whether a column's charge of x product units clips at a gain (R53, R55): at 129.5 LSB and above, never up to
127 LSB, open between. DEDUCED (notes/assumptions/157.md). -/
def clips (n k gain : Nat) (x : Int) : Bool :=
  if 259 * 2 ^ gain ≤ 4 * x.natAbs then true
  else if 4 * x.natAbs ≤ 254 * 2 ^ gain then false
  else Config.clipBand n k

/-- The converter that serves column (row) c (R44): converter c / 8, or the spare that last took over its eight columns. -/
def convOf (swaps : List Nat) (c : Nat) : Nat :=
  match (swaps.zipIdx.filter (fun e => e.1 == c / 8)).getLast? with
  | some e => 64 + e.2
  | none => c / 8

/-- The code of column (row) c for x product units (R52, R53) as its converter delivers it, and the clip bit of its range
comparator. A fault of one leaves the other as the charge sets it. -/
def convert (n gain : Nat) (swaps : List Nat) (st : Stuck) (c : Nat) (x : Int) : Int × Bool :=
  let clip := clips n c gain x
  let code := if clip then (if x < 0 then -127 else 127) else clampTo 127 (roundAway (2 * x) (2 ^ gain) + convErr n c)
  (match st.convs.find? (fun e => e.1 == convOf swaps c) with
    | some e => clampTo 127 e.2
    | none => code,
   match st.comps.find? (fun e => e.1 == c) with
    | some e => e.2
    | none => clip)

/-- The code of mirror m for x product units (R67). -/
def mirrorCode (n m gain : Nat) (stuck : List (Nat × Int)) (x : Int) : Int :=
  match stuck.find? (fun e => e.1 == m) with
  | some e => clampTo 2047 e.2
  | none => clampTo 2047 (roundAway x (2 ^ (gain + 2)) + convErr n (512 + m))

/-- Sum of a list of integers. -/
def sumInt : List Int → Int
  | [] => 0
  | a :: r => a + sumInt r

/-- Mirror m of 0 to 3 over the 512 delivered codes (R68): a difference above TOL, unless its block has a clipped
column. -/
def mirrorBad (n gain tol : Nat) (st : Stuck) (xs : List Int) (codes : List (Int × Bool)) (m : Nat) : Bool :=
  let block := (codes.drop (128 * m)).take 128
  if block.any Prod.snd then false
  else
    let q := mirrorCode n m gain st.mirrors (sumInt ((xs.drop (128 * m)).take 128))
    decide (tol < (8 * q - sumInt (block.map Prod.fst)).natAbs)

/-! ### Passes -/

/-- The rows of a group that are driven, with their codes. -/
def driven (codes : List Int) (k r0 h : Nat) : List (Nat × Int) :=
  ((List.range h).map (fun i => (r0 + i, codes.getD (512 * k + r0 + i) 0))).filter (fun e => e.2 != 0)

/-- The 512 column sums of a forward pass, or row sums of a transpose pass. -/
def State.passSums (s : State) (t p : Nat) (transpose : Bool) (rows : List (Nat × Int)) : List Int :=
  (List.range 512).map (fun i =>
    sumInt (rows.map (fun e => e.2 * (if transpose then s.cell t p i e.1 else s.cell t p e.1 i))))

/-- One pass of an array is counted toward the 1,000 passes of R69 and as its last use (R71). -/
def State.passNote (s : State) (t p : Nat) : State :=
  let x := s.arrayRec t p
  s.setArray t p { x with
    lastUse := s.clock
    suspect := match x.suspect with
      | some n => if n + 1 ≥ 1000 then none else some (n + 1)
      | none => none }

/-- A mismatch of an array (R69): the first marks it suspect, a second within 1,000 passes retires it; a retired array that
still runs passes is only counted. `prior` is the suspect count before the pass. DESIGN CHOICE (notes/assumptions/160.md): a
pass counts one mismatch however many of its mirrors fail, a patrol one though both its passes do, and a spare's code beyond
2 counts too. -/
def State.mismatch (s : State) (t p : Nat) (prior : Option Nat) (cause : Nat) : State :=
  let s := (s.bump (aCimwMirrorMismatchCnt t)).bump aRepMirrorMismatchCnt
  if (s.arrayRec t p).state = 4 then s
  else match prior with
  | some _ => s.retireArray t p cause
  | none => (s.setArray t p { s.arrayRec t p with suspect := some 0 }).bump aRepArraySuspectCnt

/-- A mismatch in a pass of a step program: the step is marked for replay, and a first mismatch has the array
self-tested at the boundary (R69). -/
def State.stepMismatch (s : State) (t p : Nat) (prior : Option Nat) : State :=
  let live := (s.arrayRec t p).state != 4
  let s := (s.markTile t).mismatch t p prior 1
  if live && prior.isNone && (s.tile t).dom.isSome then
    let d := s.domOf t
    s.setDom d { s.dom d with tests := (s.dom d).tests ++ [(t, p)] }
  else s

/-! ### Products (R46 to R49, R64, R72, R192) -/

/-- The group size of GSEL. -/
def groupSize (gsel : Nat) : Nat := 16 * 2 ^ gsel

/-- An aligned code (R46): a / 2^k, ties to even. -/
def alignCode (a : Int) (k : Nat) : Int :=
  let m : Int := (rneScale a.natAbs 0 (k : Int) : Nat)
  if a < 0 then -m else m

/-- The input blocks: exponent and the 32 codes. -/
def inputBlocks (bs : List Byte) (n : Nat) : List (Nat × List Int) :=
  (List.range n).map (fun b =>
    let blk := (bs.drop (17 * b)).take 17
    (blkExp blk, (List.range 32).map (blkCode false blk)))

/-- The largest exponent, zero when every block is exact zero. -/
def maxExp (bs : List (Nat × List Int)) : Nat := bs.foldl (fun m b => max m b.1) 0

/-- The aligned codes of the whole input (R46). -/
def alignAll (eMax : Nat) (bs : List (Nat × List Int)) : List Int :=
  bs.flatMap (fun b => if b.1 = 0 then List.replicate 32 0 else b.2.map (fun a => alignCode a (eMax - b.1)))

/-- The row groups of the chain in order (R49, R51). -/
def chainGroups (n g : Nat) : List (Nat × Nat × Nat) :=
  (List.range n).flatMap (fun k => (List.range (512 / g)).map (fun j => (k, j * g, g)))

/-- The bytes of an output in OFMT. -/
def outLen (ofmt : Nat) : Nat :=
  match ofmt with
  | 0 => 272
  | 1 => 528
  | 2 => 1024
  | _ => 2048

/-- An encoded block whose poison counts nothing. -/
def noPoison (e : Encoded) : Encoded := { e with poison := false }

/-- Store the 512 outputs of a product in OFMT and move on (R66, R192). A product with a poison column counts once
in POISON_CNT, and its poison blocks add nothing (R104). -/
def State.productStore (s : State) (t : Nat) (o : ProdOps) (ys : List Fv) : State :=
  let out := s.ptr16 t o.outP
  let a8 := o.ofmt == 1
  let s := s.numEvent t o.lslot 5 (b2n (ys.any isNan))
  let s :=
    match o.ofmt.toNat with
    | 2 => s.scrWrite t out (ys.flatMap (fun y => natLe 2 (fenc bf16 y)))
    | 3 => s.scrWrite t out (ys.flatMap (fun y => natLe 4 (fenc fp32 y)))
    | _ =>
      let es := (encodeRun a8 ys).map noPoison
      (s.scrWrite t out (runBytes a8 es)).encEvents t o.lslot es
  (s.setTile t { s.tile t with wait := .no, product := none }).retire t

/-- The FP16 scale of a column of a physical array. -/
def State.scaleOf (s : State) (t p c : Nat) : Fv := fdec fp16 (kvGet 0 (arrKey t p * 512 + c) s.arr.scales).toNat

/-- One output value (R64, R66, R72). -/
def State.outputVal (s : State) (t : Nat) (pr : Product) (p : Option Nat) (col : Nat) : Fv :=
  let a := fmul (fofInt (pr.acc.getD col 0)) (.fin false 1 ((pr.eMax : Int) - 128))
  if pr.transpose then fround fp32 a
  else
    match p with
    | none => .nan
    | some p =>
      match s.scaleOf t p col with
      | .fin n m e => fround fp32 (fmul (.fin n m e) a)
      | _ => .nan

/-- The product is complete: form the outputs. -/
def State.productFinish (s : State) (t : Nat) (pr : Product) : State :=
  let p := s.physOf t pr.ops.arr.toNat
  s.productStore t pr.ops ((List.range 512).map (s.outputVal t pr p))

/-- Whether an array holds weights (a generation other than 0, R378) that a step program of a tenant may not use: a nonzero
tenant other than the one recorded with them (R137, R239). -/
def State.arrayClosed (s : State) (t p tag : Nat) : Bool :=
  tag != 0 && (s.arrayRec t p).gen != 0 && (s.arrayRec t p).tenant.toNat != tag

/-- A product stops at a violation of kind 4 by its tile, for an array that holds another tenant's weights (R137, R239). -/
def State.productStop (s : State) (t p : Nat) : State :=
  (s.setTile t { s.tile t with wait := .no, product := none }).violate t 4 (aTile t + 0x8000 + 8 * p) (some t)

/-- Run on through the groups (R62, R64): a group with no driven row is skipped and counted, the next group's pass
is issued to its array. A pass for a tenant other than the array's is a violation of kind 4 (R239). -/
def State.productGo (s : State) (t : Nat) (pr : Product) : List (Nat × Nat × Nat) → State
  | [] => s.productFinish t { pr with groups := [] }
  | (k, r0, h) :: rest =>
    if (driven pr.codes k r0 h).isEmpty then (s.bump (aCimwZskipCnt t)).productGo t pr rest
    else
      let tag := (s.tile t).tenant.toNat
      match s.physOf t (pr.ops.arr.toNat + k) with
      | some p =>
        if s.arrayClosed t p tag then s.productStop t p
        else s.setTile t { s.tile t with wait := .product, product := some { pr with groups := (k, r0, h) :: rest } }
      | none => s.setTile t { s.tile t with wait := .product, product := some { pr with groups := (k, r0, h) :: rest } }

/-- Whether a product differs from its recipe or breaks R56 for the recorded bound factor (R175, check 6). -/
def State.recipeBad (s : State) (t : Nat) (o : ProdOps) : Bool :=
  match s.recipe t o.lslot with
  | none => false
  | some r =>
    r.gain != o.gain.toNat || r.gsel != o.gsel.toNat || r.autoSplit != b2n o.autoSplit ||
      fless (fofInt (127 * 2 ^ o.gain.toNat)) (fmul (fofInt (112 * groupSize o.gsel.toNat)) (fdec fp16 r.bound.toNat))

/-- Whether a sum exceeds the recorded bound factor times G × 56 (R55; R175, check 6). -/
def State.boundBad (s : State) (t : Nat) (o : ProdOps) (xs : List Int) : Bool :=
  match s.recipe t o.lslot with
  | none => false
  | some r => xs.any (fun x => fless (fmul (fofInt (56 * groupSize o.gsel.toNat)) (fdec fp16 r.bound.toNat)) (fofInt x.natAbs))

/-- AUTO_SPLIT as the product runs: beat mode ignores it (R60), and the arrays of a product in beat mode note 0. DESIGN CHOICE
(notes/assumptions/158.md). -/
def State.splits (s : State) (t : Nat) (o : ProdOps) : Bool := o.autoSplit && s.beatOf t == 0

/-- Start a product (R46, R47, R64): align the input, or make every output poison for a poison block. DESIGN CHOICE
(notes/assumptions/158.md): the product last run is the one whose passes were to start, so that a poison product leaves GAIN
and AUTO_SPLIT of its arrays, and one that a violation stops has set them in its whole chain. -/
def State.productStart (s : State) (t : Nat) (o : ProdOps) (transpose : Bool) : State :=
  let n := o.nch.toNat + 1
  if 4 < o.gsel.toNat ∨ 15 < o.arr.toNat + o.nch.toNat then s
  else
    s.recipeGuard t (s.recipeBad t o) <|
      s.guarded t [rdAcc (s.ptr16 t o.inP) (272 * n), wrAcc (s.ptr16 t o.outP) (outLen o.ofmt.toNat)] (fun s =>
        let bs := inputBlocks (s.scr t (s.ptr16 t o.inP) (272 * n)) (16 * n)
        if bs.any (fun b => b.1 == 255) then s.productStore t o (List.replicate 512 .nan)
        else
          let s := (List.range n).foldl (fun s k =>
            match s.physOf t (o.arr.toNat + k) with
            | some p => s.setArray t p { s.arrayRec t p with gain := o.gain, autoSplit := s.splits t o }
            | none => s) s
          let e := maxExp bs
          let pr : Product := { ops := o, transpose, eMax := e, codes := alignAll e bs, acc := List.replicate 512 0, groups := [] }
          s.productGo t pr (chainGroups n (groupSize o.gsel.toNat)))

/-- MVM (R64, R192): one product through a chain of logical arrays. -/
def execMvm (w : At) (o : ProdOps) (s : State) : Host.Outcome State Fault Refusal :=
  .next (s.onTile w [0] (fun s => s.productStart w.tile.toNat o false))

/-- TMVM (R72, R192): one transpose product. -/
def execTmvm (w : At) (o : ProdOps) (s : State) : Host.Outcome State Fault Refusal :=
  .next (s.onTile w [0] (fun s => s.productStart w.tile.toNat o true))

/-- The pass a tile's product waits for, and the physical array that runs it: the tile's domain runs, its master is
not frozen, and the array is not being programmed (R78). -/
def State.passOf (s : State) (t : Nat) (transpose : Bool) : Option (Product × Nat × (Nat × Nat × Nat)) :=
  match (s.tile t).product with
  | none => none
  | some pr =>
    match pr.groups with
    | [] => none
    | g :: _ =>
      match s.physOf t (pr.ops.arr.toNat + g.1) with
      | none => none
      | some p =>
        if pr.transpose == transpose && (s.tile t).wait == .product && (s.dom (s.domOf t)).state == 2 &&
            !s.frozenAt 0 t && (s.arrayRec t p).state != 3 then some (pr, p, g)
        else none

/-- What follows a pass (R58 to R60, R64): a clip is counted, and the pass is replaced by its halves, lower half
first, or its codes are accumulated. -/
def State.passResult (s : State) (t : Nat) (pr : Product) (codes : List (Int × Bool)) (g : Nat × Nat × Nat) : State :=
  let o := pr.ops
  let h := g.2.2
  let rest := pr.groups.drop 1
  let clip := codes.any Prod.snd
  let s := if clip then (s.bump (aCimwClipCnt t)).numEvent t o.lslot 0 1 else s
  if clip && s.splits t o && decide (16 < h) then
    (s.bump (aCimwSplitCnt t)).productGo t pr ((g.1, g.2.1, h / 2) :: (g.1, g.2.1 + h / 2, h / 2) :: rest)
  else
    let s := if clip then (s.bump (aCimwClipFinalCnt t)).numEvent t o.lslot 1 1 else s
    let acc := (List.range 512).map (fun i => pr.acc.getD i 0 + (codes.getD i (0, false)).1 * 2 ^ o.gain.toNat)
    s.productGo t { pr with acc := acc } rest

/-- ARRAY_PASS_COMPLETE (R50, R58 to R60, R68, R69): the tile's forward pass ends; its codes are mirror-checked,
then accumulated or split. -/
def execArrayPassComplete (tile : TileIx) (st : Stuck) (s : State) : Host.Outcome State Fault Refusal :=
  let t := tile.toNat
  .next (match s.passOf t false with
    | none => s
    | some (pr, p, g) =>
      if s.arrayClosed t p (s.tile t).tenant.toNat then s.productStop t p else
      let gain := pr.ops.gain.toNat
      let xs := s.passSums t p false (driven pr.codes g.1 g.2.1 g.2.2)
      let n := s.freeCtr
      s.recipeGuard t (g.2.2 == groupSize pr.ops.gsel.toNat && s.boundBad t pr.ops xs)
        (let x := s.arrayRec t p
         let codes := xs.zipIdx.map (fun e => convert n gain x.colSwaps st e.2 e.1)
         let s := (s.tickFree.bump (aCimwPassCnt t)).passNote t p
         let bad := (List.range 4).any (mirrorBad n gain x.tol.toNat st xs codes)
         let s := if bad then s.stepMismatch t p x.suspect else s
         s.passResult t pr codes g))

/-- TRANSPOSE_PASS_COMPLETE (R72, R74): the tile's transpose pass ends; its codes are checked against the column
weight sums. -/
def execTransposePassComplete (tile : TileIx) (st : Stuck) (s : State) : Host.Outcome State Fault Refusal :=
  let t := tile.toNat
  .next (match s.passOf t true with
    | none => s
    | some (pr, p, g) =>
      if s.arrayClosed t p (s.tile t).tenant.toNat then s.productStop t p else
      let gain := pr.ops.gain.toNat
      let cols := driven pr.codes g.1 g.2.1 g.2.2
      let xs := s.passSums t p true cols
      let n := s.freeCtr
      s.recipeGuard t (g.2.2 == groupSize pr.ops.gsel.toNat && s.boundBad t pr.ops xs)
        (let x := s.arrayRec t p
         let codes := xs.zipIdx.map (fun e => convert n gain x.rowSwaps st e.2 e.1)
         let s := (s.tickFree.bump (aCimwTpassCnt t)).passNote t p
         let e := roundAway (2 * sumInt (cols.map (fun c => c.2 * (kvGet 0 (arrKey t p * 512 + c.1) s.arr.ksums).toInt))) (2 ^ gain)
         let bad := !codes.any Prod.snd && decide (4 * x.tol.toNat < (e - sumInt (codes.map Prod.fst)).natAbs)
         let s := if bad then s.stepMismatch t p x.suspect else s
         s.passResult t pr codes g))

/-! ### Row fetches (R100) -/

/-- The two row flits of a slot: the 512 W4S codes of the row, packed, or zero codes for a null entry. -/
def State.rowFlits (s : State) (t : Nat) (p : Option Nat) (e : ActEntry) : List Flit :=
  let codes := match p with
    | some p => if e.exp = 0 then List.replicate 512 0 else (List.range 512).map (s.cell t p e.chan)
    | none => List.replicate 512 0
  (chunks 128 2 (packNibbles codes)).map (fun b => { bytes := b, src := t, beat := s.beatOf t })

/-- The arrays that the fetches of a block list read. -/
def State.fetchArrays (s : State) (t : Nat) (o : FetchOps) (lst : Nat) : List (Option Nat × List ActEntry) :=
  (List.range (o.nblk.toNat + 1)).map (fun b =>
    (s.physOf t (o.arr.toNat + b), s.actList t lst o.ca.toNat b))

/-- SIDE.FETCH (R100, R193): reads the rows of the activation outliers and sends two row flits for every slot to the
queue, by a producer of it. A fetch from an array of another tenant is a violation of kind 4 (R239); an array that is
being programmed makes it wait. -/
def execSideFetch (w : At) (o : FetchOps) (s : State) : Host.Outcome State Fault Refusal :=
  let t := w.tile.toNat
  .next (s.onTile w [0] (fun s =>
    if 15 < o.arr.toNat + o.nblk.toNat then s
    else
      let lst := s.ptr16 t o.listP
      s.asProducer t o.queue.toNat
        (let fs := s.fetchArrays t o lst
         let live := fs.filter (fun f => f.2.any (fun e => e.exp != 0))
         let tag := (s.tile t).tenant.toNat
         let clash := live.find? (fun f => match f.1 with
           | some p => s.arrayClosed t p tag
           | none => false)
         if live.any (fun f => match f.1 with
           | some p => (s.arrayRec t p).state == 3
           | none => true) then s
         else
           match clash with
           | some f => s.violate t 4 (aTile t + 0x8000 + 8 * f.1.getD 0) (some t)
           | none =>
             s.guarded t [rdAcc lst (listLen o.ca.toNat * (o.nblk.toNat + 1))] (fun s =>
               let out := fs.flatMap (fun f => f.2.flatMap (s.rowFlits t f.1))
               if out.isEmpty then s.retire t
               else (s.offer t out).setTile t { (s.offer t out).tile t with wait := .sending }))))

/-! ### Self-test and patrol (R69 to R71) -/

/-- The converter whose eight columns (rows) a converter serves (R44): its own, or those a spare in use has taken over; none for
one that serves no columns, replaced or not in use. -/
def convServes (swaps : List Nat) (k : Nat) : Option Nat :=
  (List.range 64).find? (fun i => convOf swaps (8 * i) == k)

/-- A converter out of limit (R44, R69): a spare of its kind takes over its eight columns (rows) and the suspect mark clears; a
mirror converter, or no spare left, retires the array. One that serves no columns changes nothing. DEDUCED
(notes/assumptions/161.md). -/
def State.convBad (s : State) (t p : Nat) (c : Conv) : State :=
  let x := s.arrayRec t p
  if x.state = 4 then s
  else
    match c.kind with
    | .mirror => s.retireArray t p 3
    | .column =>
      match convServes x.colSwaps c.number with
      | none => s
      | some k =>
        if 2 ≤ x.colSwaps.length then s.retireArray t p 3
        else ((s.setArray t p { x with colSwaps := x.colSwaps ++ [k], suspect := none }).bump aRepConvSwapCnt).journal 0x11
          (pack [(0, t), (14, p), (20, k), (26, x.colSwaps.length)])
    | .row =>
      match convServes x.rowSwaps c.number with
      | none => s
      | some k =>
        if 2 ≤ x.rowSwaps.length then s.retireArray t p 3
        else ((s.setArray t p { x with rowSwaps := x.rowSwaps ++ [k], suspect := none }).bump aRepConvSwapCnt).journal 0x11
          (pack [(0, t), (14, p), (19, 1), (20, k), (26, x.rowSwaps.length)])

/-- The outcome of a converter self-test. -/
def State.selfTest (s : State) (t p : Nat) (bad : List Conv) : State := bad.foldl (fun s c => s.convBad t p c) s

/-- CONVERTER_SELF_TEST (R69, R70): the self-test of an array ends with the converters out of limit. -/
def execConverterSelfTest (tile : TileIx) (p : BitVec 5) (bad : List Conv) (s : State) :
    Host.Outcome State Fault Refusal :=
  let t := tile.toNat
  let x := s.arrayRec t p.toNat
  if tileKind t ≠ 0 ∨ 17 ≤ p.toNat then .next s
  else if x.state = 3 ∨ x.state = 4 then .next (s.testDone t p.toNat)
  else .next ((s.selfTest t p.toNat bad).testDone t p.toNat)

/-- One patrol pass over half the rows, code +1 on each, at GAIN 7 (R71), and whether it mismatches. -/
def State.patrolPass (s : State) (t p r0 : Nat) (st : Stuck) : State × Bool :=
  let xs := s.passSums t p false ((List.range 256).map (fun i => (r0 + i, (1 : Int))))
  let n := s.freeCtr
  let x := s.arrayRec t p
  let codes := xs.zipIdx.map (fun e => convert n 7 x.colSwaps st e.2 e.1)
  let mirrors := (List.range 4).map (fun m => mirrorCode n m 7 st.mirrors (sumInt ((xs.drop (128 * m)).take 128)))
  let spareBad := x.state == 2 &&
    (codes.any (fun c => decide (2 < c.1.natAbs)) || mirrors.any (fun q => decide (2 < q.natAbs)))
  let bad := (List.range 4).any (mirrorBad n 7 x.tol.toNat st xs codes) || codes.any Prod.snd || spareBad
  ((s.tickFree.bump (aCimwPassCnt t)).passNote t p, bad)

/-- One patrol: the self-test, then two passes. -/
def State.patrolOnce (s : State) (t p : Nat) (run : PatrolRun) : State × Bool :=
  let s := ((s.bump aRepPatrolCnt).bump (aCimwPatrolCnt t)).selfTest t p run.bad
  if (s.arrayRec t p).state = 4 then (s, false)
  else
    let a := s.patrolPass t p 0 run.st
    let b := a.1.patrolPass t p 256 run.st
    (b.1, a.2 || b.2)

/-- Whether an array is due for a patrol: it has made no pass in the preceding 30 s (R71), or the start is at order 10, where
every array is patrolled once (R345). DEDUCED (notes/assumptions/183.md). -/
def State.arrayIdle (s : State) (t p : Nat) : Bool :=
  s.rfld aKeepState 4 0 == 10 || decide ((s.arrayRec t p).lastUse + 30000000 ≤ s.clock)

/-- PATROL (R71, R345, R362): the self-test and two passes of an array that has made no pass for 30 s, or at order 10. A mismatch marks the array
suspect and repeats the patrol at once; a second retires it. -/
def execPatrol (tile : TileIx) (p : BitVec 5) (first again : PatrolRun) (s : State) :
    Host.Outcome State Fault Refusal :=
  let t := tile.toNat
  let x := s.arrayRec t p.toNat
  if tileKind t ≠ 0 ∨ 17 ≤ p.toNat ∨ x.state = 3 ∨ x.state = 4 ∨ s.mapOf t = 2 ∨ !s.rbit aRepCtrl 0 ∨ !s.fieldOn (fieldOf t) ∨
      s.inCal (fieldOf t) ∨ !s.arrayIdle t p.toNat then
    .next s
  else
    let a := s.patrolOnce t p.toNat first
    if !a.2 then .next a.1
    else
      let s := a.1.mismatch t p.toNat x.suspect 2
      if (s.arrayRec t p.toNat).state = 4 then .next s
      else
        let b := s.patrolOnce t p.toNat again
        if b.2 then .next (b.1.mismatch t p.toNat (some 0) 2) else .next b.1

/-! ### Weights -/

/-- Replace the entries of a table from `k` on, `n` numbers, by the values of a list that are not zero. -/
def kvBlock {α : Type} [DecidableEq α] (d : α) (k n : Nat) (l : List α) (m : KV α) : KV α :=
  m.filter (fun e => decide (e.1 < k)) ++ (((List.range n).map (fun i => k + i)).zip l).filter (fun e => decide (e.2 ≠ d)) ++
    m.filter (fun e => decide (k + n ≤ e.1))

/-- The cells of an array at the levels of the weight codes of a shadow record (R214). -/
def State.putCells (s : State) (t p : Nat) (record : List Byte) : State :=
  let codes := (record.drop 0x2000).flatMap (fun b => [BitVec.ofNat 4 b.toNat, BitVec.ofNat 4 (b.toNat / 16)])
  { s with arr.cells := kvBlock 0 (arrKey t p * 262144) 262144 codes s.arr.cells }

/-- The weights of a shadow record in an array, with the column scales and sums (R75, R214). -/
def State.putWeights (s : State) (t p : Nat) (record : List Byte) : State :=
  let k := arrKey t p
  let halves : List Byte → List (BitVec 16) := fun bs => (patterns 2 bs).map (BitVec.ofNat 16)
  { s.putCells t p record with
    arr.scales := kvBlock 0 (k * 512) 512 (halves ((record.drop 0x800).take 1024)) s.arr.scales
    arr.ksums := kvBlock 0 (k * 512) 512 (halves ((record.drop 0xC00).take 1024)) s.arr.ksums }

/-- An array without weights. -/
def State.dropWeights (s : State) (t p : Nat) : State :=
  let k := arrKey t p
  { s with
    arr.cells := kvBlock 0 (k * 262144) 262144 [] s.arr.cells
    arr.scales := kvBlock 0 (k * 512) 512 [] s.arr.scales
    arr.ksums := kvBlock 0 (k * 512) 512 [] s.arr.ksums }

/-! ### Jobs -/

/-- The placement entry that an array of a job stands for. -/
def jobEntry (j : Job) (x : Inst) (t l : Nat) : Option Nat :=
  (if j.phase == .rollback then x.placed else j.placed).findIdx? (fun e => e.tile == t && e.larr == l)

/-- An array of the running job of an instance holds the weights of a generation: programmed, which R240 counts, or
refreshed (R82). Its placement entry is done if that is the generation the job installs, or a rollback restores. -/
def State.jobArrayDone (s : State) (i t l gen : Nat) (programmed : Bool) : State :=
  match s.jobOf i with
  | none => s
  | some n =>
    match s.load.jobs[n]? with
    | none => s
    | some j =>
      match jobEntry j (s.inst i) t l with
      | none => s
      | some k =>
        if gen = (if j.phase == .rollback then (s.inst i).gen.toNat else descGen j.desc) ∧ (j.busy.contains k || j.todo.contains k) then
          s.setJob n { j with
            busy := j.busy.filter (fun x => x != k), todo := j.todo.filter (fun x => x != k), arrays := j.arrays + b2n programmed }
        else s

/-! ### Refresh (R80, R81) -/

/-- Whether an array waits for programming or erasing. -/
def State.progAsked (s : State) (t p : Nat) : Bool :=
  (s.arr.waiting ++ s.arr.running).any (fun r => r.tile == t && r.p == p)

/-- Whether a refresh of an array is due (R81, R82): 24 h after its last verify, or when the repertoire load has asked for it. -/
def State.refreshDue (s : State) (x : ArrayRec) : Bool := x.recheck || decide (x.verify.toNat + 86400 ≤ s.calendar)

/-- REFRESH (R81): the verify of a loaded array against its shadow copy ends, `touched` cells having taken pulses, and its cells
are at the levels of the copy; a cell that did not return fails the array under R77, which REP.REFRESH_CNT does not count.
DESIGN CHOICE (notes/assumptions/162.md). An array that waits for programming, or whose record is on a stack that is offline,
is skipped (R233, R370). -/
def execRefresh (tile : TileIx) (p : BitVec 5) (touched : Nat) (cellFailed : Bool) (s : State) :
    Host.Outcome State Fault Refusal :=
  let t := tile.toNat
  let x := s.arrayRec t p.toNat
  let src := s.recordOf x.inst.toNat t x.logical.toNat
  let usable := match src with
    | some a => !s.stackOffline (stackOf a)
    | none => false
  if tileKind t ≠ 0 ∨ 17 ≤ p.toNat ∨ x.state ≠ 0 ∨ !x.bound ∨ !s.arrayOwned x ∨ !usable ∨ s.progAsked t p.toNat ∨
      !s.fieldOn (fieldOf t) ∨ s.inCal (fieldOf t) ∨ !s.refreshDue x then .next s
  else
    let s := s.bumpBy (aCimwTouchCnt t) touched
    if cellFailed then .next ((s.bump (aCimwProgFailCnt t)).retireArray t p.toNat 4)
    else
      let s := match src with
        | some a => (s.pagesTouch false a recordLen).putCells t p.toNat (s.stk a recordLen)
        | none => s
      let s := s.setArray t p.toNat { x with cycles := x.cycles + 1, verify := BitVec.ofNat 32 s.calendar, recheck := false }
      let s := (s.bump aRepRefreshCnt).journal 0x03 (pack [(0, t), (14, p.toNat), (32, touched % 2 ^ 32)])
      .next (s.jobArrayDone x.inst.toNat t x.logical.toNat x.gen.toNat false)

end Sys2Proof.Machine
end

