-- ==== Sys2Proof/Machine/Turn.lean ====
section
/-! DEFINITION. Turn tables (R149 to R153, R199): the fields of an entry, where an output stands, and when a replay domain's traffic is done (R154). -/

namespace Sys2Proof.Machine

/-! ### Entries (R199) -/

/-- INPUT. -/
def entInput (e : BitVec 32) : Nat := bits e.toNat 2 0
/-- OPEN. -/
def entOpen (e : BitVec 32) : Bool := bit e.toNat 3
/-- COUNT. -/
def entCount (e : BitVec 32) : Nat := bits e.toNat 15 4
/-- MSET, as the numbers of its outputs; none for a unicast turn. -/
def entSet (e : BitVec 32) : List Nat := (List.range 5).filter (fun p => bit e.toNat (16 + p))
/-- DEL. -/
def entDel (e : BitVec 32) : Nat := bits e.toNat 22 21
/-- QIDX. -/
def entQidx (e : BitVec 32) : Nat := bits e.toNat 28 23

/-! ### Where an output stands (R152) -/

/-- The entry of an owned output's turn; none once its last phase is done. -/
def outEntry (o : Output) : Option (BitVec 32) :=
  match o.table[o.phase]? with
  | some p => p.entries[o.entry]?
  | none => none

/-- Whether an output has finished the last repeat of its last phase (R154). -/
def outDone (o : Output) : Bool := decide (o.table.length ≤ o.phase)

/-- The output at the next entry: the phase's entries in order, then its next repeat, then the next phase. -/
def outAdvance (o : Output) : Output :=
  match o.table[o.phase]? with
  | none => o
  | some p =>
    if o.entry + 1 < p.entries.length then { o with entry := o.entry + 1, moved := 0 }
    else if o.rep + 1 < p.repeats then { o with entry := 0, rep := o.rep + 1, moved := 0 }
    else { o with entry := 0, rep := 0, phase := o.phase + 1, moved := 0 }

/-! ### Inputs -/

/-- The flits an input of a position holds and can give: its 2-flit buffer, or what is offered locally. -/
def State.inputFlits (s : State) (pos input : Nat) : List Flit :=
  if input = 4 then (s.tile pos).outbox else (s.link (linkKey pos input)).buf

/-- A router output with the table in force: its choreography's, or that of the base schedule (R37). -/
def State.outNow (s : State) (k : Nat) : Output :=
  let o := s.outp k
  if o.cho.isSome then o else { o with table := kvGet [] k s.wafer.base }

/-- Whether an output may carry flits now: its field is powered and its link in service; an owned output only in a step of
its domain. -/
def State.outRuns (s : State) (k : Nat) : Bool :=
  let o := s.outp k
  let d := o.dom.toNat
  let x := s.dom d
  s.fieldOn (fieldOf (outPos k)) &&
    (match neighbour (outPos k) (outDir k) with
     | some p => !(decide (outDir k < 4) && (s.link (linkKey p (opposite (outDir k)))).retired)
     | none => true) &&
    (o.cho.isNone || (x.state == 2 && !x.waiting && !x.await.contains (outPos k)))

/-- The tensor port at the outward port of a position, by direction. -/
def State.portInputFlits (s : State) (pos input : Nat) : List Flit :=
  match tensorPortAt pos input with
  | some t => (s.port t).mesh
  | none => s.inputFlits pos input

/-- The queue that an entry's QIDX names. -/
def State.entQueue (s : State) (pos : Nat) (e : BitVec 32) : Option Nat := ((s.tile pos).inq[entQidx e]?).map (·.toNat)

/-- Whether a tile can take a flit of a local turn: an RECV waits, the queue has a free slot, or a read is outstanding
(R190, R191). -/
def State.tileTakes (s : State) (pos : Nat) (e : BitVec 32) : Bool :=
  match entDel e with
  | 0 => match (s.tile pos).wait with
    | .recv _ _ => true
    | _ => false
  | 1 => match s.entQueue pos e with
    | some h => (s.queue h).cho.isSome && decide (0 < queueFree (s.queue h))
    | none => false
  | 2 => !(s.tile pos).reads.isEmpty
  | _ => false

/-- Whether the next stage of an output accepts a flit (R25). A port takes as many flits as one frame carries ahead of its
frames, and a header only with an entry free in its group's table (R290). DESIGN CHOICE (notes/assumptions/28.md). -/
def State.outTakes (s : State) (pos output : Nat) (e : BitVec 32) (f : Flit) : Bool :=
  if output = 4 then
    if tileKind pos != 3 then s.tileTakes pos e
    else (stackAt pos).isSome || (engineAt pos).isSome || (clusterAt pos).isSome
  else
    match neighbour pos output with
    | some p =>
      let x := s.link (linkKey p (opposite output))
      decide (x.buf.length + x.wire.length < 2)
    | none =>
      match tensorPortAt pos output with
      | some t => f.kind == .plain || (portCarries (s.port t) && decide ((s.port t).tx.length < 63) &&
        !(s.tagMoves t f && decide (32768 ≤ (s.ctabOf (t / 24)).length)))
      | none => otherPortAt pos output

/-- The outputs of a turn: the entry's multicast set, or the output alone. -/
def turnSet (output : Nat) (e : BitVec 32) : List Nat := if (entSet e).isEmpty then [output] else entSet e

/-- A flit moved by an owned output is progress of the output's domain (R170). -/
def State.progressOut (s : State) (o : Output) : State := if o.cho.isSome then s.progress o.dom.toNat else s

/-- Whether an output of a turn stands at a matching entry, as far as the output that leads (R153). -/
def State.turnMatches (s : State) (pos lead p : Nat) (e : BitVec 32) : Bool :=
  let o := s.outNow (outKey pos p)
  s.outRuns (outKey pos p) && o.moved == (s.outNow (outKey pos lead)).moved &&
    match outEntry o with
    | some x => entInput x == entInput e && entCount x == entCount e && entSet x == entSet e
    | none => false

/-- The entry an output stands at. -/
def State.entAt (s : State) (pos p : Nat) : BitVec 32 := (outEntry (s.outNow (outKey pos p))).getD 0

/-! ### The traffic of a domain (R154) -/

/-- The router output that feeds an input, if the input is a link of the mesh. -/
def feedOf (pos input : Nat) : Option Nat :=
  match neighbour pos input with
  | some p => if input < 4 then some (outKey p (opposite input)) else none
  | none => none

/-- The positions at which flits of a domain stand, wherever on the mesh, without having been delivered (R154). -/
def State.domStrays (s : State) (d : Nat) : List Nat :=
  (s.wafer.links.filter (fun e => (e.2.buf ++ e.2.wire).any (s.flitOf d))).map (fun e => e.1 / 5) ++
  (s.wafer.tiles.filter (fun e => e.2.outbox.any (s.flitOf d))).map Prod.fst ++
  (s.fab.ports.filter (fun e => e.2.mesh.any (s.flitOf d))).map (fun e => (tensorPortPos e.1).1)

/-- The owned outputs of a domain that have FIXED entries left. -/
def State.domUnfinished (s : State) (d : Nat) : List Nat := (s.domOutputs d).filter (fun k => !outDone (s.outp k))

/-- The positions whose owned outputs are in a domain. -/
def State.domPositions (s : State) (d : Nat) : List Nat := ((s.domOutputs d).map outPos).eraseDups

/-- Whether an output can move a flit now, or end an OPEN entry. -/
def State.outCan (s : State) (k : Nat) : Bool :=
  let pos := outPos k
  match outEntry (s.outNow k) with
  | none => false
  | some e => s.outRuns k &&
    match s.portInputFlits pos (entInput e) with
    | [] => entOpen e
    | f :: _ => (turnSet (outDir k) e).all (fun p => s.turnMatches pos (outDir k) p e && s.outTakes pos p (s.entAt pos p) f)

/-- Whether the entry of an output waits for flits that an output of another domain sends on (R158). -/
def State.outAwaits (s : State) (d k : Nat) : Bool :=
  match (outEntry (s.outNow k)).bind (fun e => feedOf (outPos k) (entInput e)) with
  | some f => (s.outp f).cho.isSome && (s.outp f).dom.toNat != d
  | none => false

/-- Whether the traffic of a domain stands still for good (R154, R177): it is not all done, nothing of it is on a wire or due
from a stack, no output of the domain can move, and none of it waits for another domain. -/
def State.domStuck (s : State) (d : Nat) : Bool :=
  let strays := s.domStrays d
  let left := s.domUnfinished d
  let mine := s.domPositions d
  let due := fun (r : StackReq) => match r.who with
    | .tile t => (s.dom d).members.contains t
    | .engine => false
  !(left.isEmpty && strays.isEmpty) &&
    !s.wafer.links.any (fun e => e.2.wire.any (s.flitOf d)) &&
    !s.mem.stackUnits.any (fun e => (e.2.coming ++ e.2.queue ++ e.2.busy).any due) &&
    !(s.domOutputs d).any s.outCan && strays.all (fun p => mine.contains p) && !left.any (s.outAwaits d)

/-- HAZ_ADDR of a turn-table entry (R178): position, output, phase and entry. -/
def turnAddr (k : Nat) (o : Output) : Nat := pack [(0, outPos k), (14, outDir k), (17, o.phase), (20, o.entry)]

end Sys2Proof.Machine
end

