-- ==== Sys2Proof/Machine/ChoParse.lean ====
section
/-! DEFINITION. The choreography image (R199, R201 to R205): its bytes read into records, and whether it is well formed. -/

namespace Sys2Proof.Machine

/-! ### Bytes -/

/-- The little-endian number of `n` bytes at an offset of a byte string. -/
def leAt (bs : List Byte) (off n : Nat) : Nat := leNat ((bs.drop off).take n)

/-- `n` bytes at an offset, if the byte string holds them. -/
def cut (bs : List Byte) (off n : Nat) : Option (List Byte) :=
  if off + n ≤ bs.length then some ((bs.drop off).take n) else none

/-- Read `n` records one after another, as far as they are well formed; the result says whether all of them are. -/
def readMany {α : Type} (f : List Byte → Option (α × List Byte)) : Nat → List Byte → List α × Bool
  | 0, _ => ([], true)
  | n + 1, bs =>
    match f bs with
    | none => ([], false)
    | some (a, rest) =>
      let r := readMany f n rest
      (a :: r.1, r.2)

/-- A record of a fixed size. -/
def fixedRec {α : Type} (size : Nat) (f : List Byte → Option α) (bs : List Byte) : Option (α × List Byte) :=
  if bs.length < size then none
  else match f (bs.take size) with
    | none => none
    | some a => some (a, bs.drop size)

/-- A length rounded up to a multiple of 8. -/
def pad8 (n : Nat) : Nat := (n + 7) / 8 * 8

/-- Whether `n` bytes at an offset are zero, as reserved bytes and padding are (R179). -/
def zeroAt (bs : List Byte) (off n : Nat) : Bool := ((bs.drop off).take n).all (fun b => b == 0)

/-- Numbers of 2 bytes. -/
def halves (bs : List Byte) (n : Nat) : List Nat := (List.range n).map (fun i => leAt bs (2 * i) 2)

/-! ### Records (R205) -/

/-- Type 1: a tile. -/
def readTileRec (bs : List Byte) : Option (TileRec × List Byte) :=
  let n := leAt bs 4 2
  let q := leAt bs 6 1
  let size := 16 + pad8 (2 * q) + 8 * n
  if bs.length < 16 ∨ bs.length < size ∨ n = 0 ∨ 8192 < n ∨ 64 < q ∨ positions ≤ leAt bs 0 2 ∨ 63 < leAt bs 3 1 ∨
      !zeroAt bs 7 9 ∨ !zeroAt bs (16 + 2 * q) (pad8 (2 * q) - 2 * q) then none
  else some ({
    tile := leAt bs 0 2
    tenant := BitVec.ofNat 8 (leAt bs 2 1)
    dom := leAt bs 3 1
    inq := (halves (bs.drop 16) q).map (BitVec.ofNat 16)
    code := (wordsOf ((bs.drop (16 + pad8 (2 * q))).take (8 * n))) }, bs.drop size)

/-- Whether an entry of output `o` has its fields in range (R199). -/
def entryOk (o : Nat) (e : BitVec 32) : Bool :=
  decide (entInput e < 5) && decide (1 ≤ entCount e) && decide (entDel e < 3) && (o == 4 || entDel e == 0) &&
    bits e.toNat 31 29 == 0 && ((entSet e).isEmpty || (entSet e).contains o)

/-- A phase: its header and entries, padded to a multiple of 8. -/
def readPhase (o : Nat) (bs : List Byte) : Option (Phase × List Byte) :=
  let h := leAt bs 0 4
  let n := bits h 5 0 + 1
  let size := pad8 (4 + 4 * n)
  if bs.length < 4 ∨ bs.length < size ∨ bits h 31 22 ≠ 0 ∨ !zeroAt bs (4 + 4 * n) (size - (4 + 4 * n)) then none
  else
    let es : List (BitVec 32) := (List.range n).map (fun i => BitVec.ofNat 32 (leAt bs (4 + 4 * i) 4))
    if es.all (entryOk o) then some ({ repeats := bits h 21 6 + 1, entries := es }, bs.drop size) else none

/-- The phases of a router record, with what follows them. -/
def readPhases (o : Nat) : Nat → List Byte → Option (List Phase × List Byte)
  | 0, bs => some ([], bs)
  | n + 1, bs =>
    match readPhase o bs with
    | none => none
    | some (p, rest) =>
      match readPhases o n rest with
      | none => none
      | some (l, rest) => some (p :: l, rest)

/-- Type 2: a router output. -/
def readRouterRec (bs : List Byte) : Option (RouterRec × List Byte) :=
  let pos := leAt bs 0 2
  let o := leAt bs 2 1
  let n := leAt bs 3 1
  if bs.length < 8 ∨ positions ≤ pos ∨ 4 < o ∨ n = 0 ∨ 8 < n ∨ 63 < leAt bs 4 1 ∨ !zeroAt bs 5 3 then none
  else
    match readPhases o n (bs.drop 8) with
    | none => none
    | some (l, rest) => some ({ pos, output := o, dom := leAt bs 4 1, table := l }, rest)

/-- Type 3: a domain. -/
def readDomainRec (bs : List Byte) : Option DomainRec :=
  if 63 < leAt bs 0 1 ∨ 1 < leAt bs 1 1 ∨ positions ≤ leAt bs 2 2 ∨ leAt bs 9 1 < leAt bs 8 1 ∨ 111 < leAt bs 9 1 ∨
      leAt bs 11 1 < leAt bs 10 1 ∨ 111 < leAt bs 11 1 ∨ !zeroAt bs 6 2 ∨ !zeroAt bs 12 4 then none
  else some {
    dom := leAt bs 0 1, spans := leAt bs 1 1 == 1, root := leAt bs 2 2, parts := leAt bs 4 2
    x0 := leAt bs 8 1, x1 := leAt bs 9 1, y0 := leAt bs 10 1, y1 := leAt bs 11 1 }

/-- Type 4: a flag (R202). -/
def readFlagRec (bs : List Byte) : Option FlagRec :=
  let h := leAt bs 0 4
  let d : Word := BitVec.ofNat 64 (leAt bs 8 8)
  if 2 ^ 18 ≤ h ∨ 49 ≤ h / 4096 ∨ fld d 31 30 ≠ 0 ∨ fld d 63 54 ≠ 0 ∨ !zeroAt bs 4 4 then none
  else some { handle := BitVec.ofNat 18 h, desc := d }

/-- Type 5: a queue (R203). -/
def readQueueRec (bs : List Byte) : Option QueueRec :=
  let h := leAt bs 0 4
  let d0 : Word := BitVec.ofNat 64 (leAt bs 8 8)
  let d1 : Word := BitVec.ofNat 64 (leAt bs 16 8)
  if 2 ^ 16 ≤ h ∨ 49 ≤ h / 1024 ∨ fld d0 27 27 ≠ 0 ∨ fld d0 63 50 ≠ 0 ∨ fld d0 49 28 % 128 ≠ 0 ∨ fld d1 63 22 ≠ 0 ∨ !zeroAt bs 4 4 then none
  else some { handle := BitVec.ofNat 16 h, desc0 := d0, desc1 := d1 }

/-- Type 6: a piece of a field's list store. -/
def readListRec (bs : List Byte) : Option (ListRec × List Byte) :=
  let n := leAt bs 2 2
  let size := 8 + pad8 (2 * n)
  if bs.length < 8 ∨ bs.length < size ∨ 48 < leAt bs 0 2 ∨ (halves (bs.drop 8) n).any (fun t => decide (positions ≤ t)) ∨
      !zeroAt bs 6 2 ∨ !zeroAt bs (8 + 2 * n) (pad8 (2 * n) - 2 * n) then none
  else some ({ field := leAt bs 0 2, first := leAt bs 4 2, tiles := halves (bs.drop 8) n }, bs.drop size)

/-- Type 7: a layer slot. -/
def readSlotRec (bs : List Byte) : Option SlotRec :=
  if 4095 < leAt bs 0 2 ∨ 6 < leAt bs 2 1 ∨ !zeroAt bs 3 5 then none
  else some { slot := BitVec.ofNat 12 (leAt bs 0 2), cluster := leAt bs 2 1, lthr := BitVec.ofNat 64 (leAt bs 8 8) }

/-- Type 8: a multicast declaration (R201). -/
def readMcastRec (bs : List Byte) : Option McastRec :=
  let r := leAt bs 4 4
  if positions ≤ leAt bs 0 2 ∨ bits r 13 7 < bits r 6 0 ∨ bits r 27 21 < bits r 20 14 ∨ 111 < bits r 13 7 ∨ 111 < bits r 27 21 ∨
      bits r 31 31 ≠ 0 ∨ !zeroAt bs 2 2 ∨ !zeroAt bs 8 8 then none
  else some { src := leAt bs 0 2, rect := BitVec.ofNat 32 r }

/-- Type 9: a recipe. -/
def readRecipeRec (bs : List Byte) : Option RecipeRec :=
  if 4095 < leAt bs 0 2 then none
  else some {
    slot := BitVec.ofNat 12 (leAt bs 0 2), gain := leAt bs 2 1, gsel := leAt bs 3 1, autoSplit := leAt bs 4 1
    bound := BitVec.ofNat 16 (leAt bs 6 2), ta := BitVec.ofNat 16 (leAt bs 8 2), ca := leAt bs 10 1, cw := leAt bs 12 2 }

/-- Type 10: an allocation. -/
def readAllocRec (bs : List Byte) : Option AllocRec :=
  if positions ≤ leAt bs 0 2 then none
  else some { tile := leAt bs 0 2, start := leAt bs 4 4, len := leAt bs 8 4, first := leAt bs 12 2, last := leAt bs 14 2 }

/-- Type 11: a flow. -/
def readFlowRec (bs : List Byte) : Option FlowRec :=
  if positions ≤ leAt bs 0 2 ∨ positions ≤ leAt bs 2 2 then none
  else some { src := leAt bs 0 2, dst := leAt bs 2 2, queue := BitVec.ofNat 16 (leAt bs 4 2), flits := leAt bs 8 4 }

/-- Type 12: a scale constant. -/
def readScaleRec (bs : List Byte) : Option ScaleRec :=
  if positions ≤ leAt bs 0 2 ∨ 4095 < leAt bs 2 2 ∨ 1 < leAt bs 12 1 then none
  else some {
    tile := leAt bs 0 2, slot := BitVec.ofNat 12 (leAt bs 2 2), off := leAt bs 4 4
    value := BitVec.ofNat 32 (leAt bs 8 4), bf16 := leAt bs 12 1 == 1 }

/-! ### The image (R204) -/

/-- The records of a section that only Loupe reads (R175, R205): the load ignores them, so one out of range is left out.
DEDUCED (notes/assumptions/63.md). -/
def readLoupe {α : Type} (size : Nat) (f : List Byte → Option α) : Nat → List Byte → List α
  | 0, _ => []
  | n + 1, bs =>
    if bs.length < size then []
    else match f (bs.take size) with
      | none => readLoupe size f n (bs.drop size)
      | some a => a :: readLoupe size f n (bs.drop size)

/-- Add the records of one section to an image, as far as they are well formed; the result says whether the section is. An
unknown type is not. -/
def readSection (type count : Nat) (bs : List Byte) (im : ChoImage) : ChoImage × Bool :=
  match type with
  | 1 => let r := readMany readTileRec count bs; ({ im with tiles := im.tiles ++ r.1 }, r.2)
  | 2 => let r := readMany readRouterRec count bs; ({ im with routers := im.routers ++ r.1 }, r.2)
  | 3 => let r := readMany (fixedRec 16 readDomainRec) count bs; ({ im with domains := im.domains ++ r.1 }, r.2)
  | 4 => let r := readMany (fixedRec 16 readFlagRec) count bs; ({ im with flags := im.flags ++ r.1 }, r.2)
  | 5 => let r := readMany (fixedRec 24 readQueueRec) count bs; ({ im with queues := im.queues ++ r.1 }, r.2)
  | 6 => let r := readMany readListRec count bs; ({ im with lists := im.lists ++ r.1 }, r.2)
  | 7 => let r := readMany (fixedRec 16 readSlotRec) count bs; ({ im with slots := im.slots ++ r.1 }, r.2)
  | 8 => let r := readMany (fixedRec 16 readMcastRec) count bs; ({ im with mcasts := im.mcasts ++ r.1 }, r.2)
  | 9 => ({ im with recipes := im.recipes ++ readLoupe 16 readRecipeRec count bs }, true)
  | 10 => ({ im with allocs := im.allocs ++ readLoupe 16 readAllocRec count bs }, true)
  | 11 => ({ im with flows := im.flows ++ readLoupe 16 readFlowRec count bs }, true)
  | 12 => ({ im with scales := im.scales ++ readLoupe 16 readScaleRec count bs }, true)
  | _ => (im, false)

/-- Read the sections of the section table, `n` left from entry `k`. -/
def readSections (bs : List Byte) (len : Nat) : Nat → Nat → ChoImage × Bool → ChoImage × Bool
  | 0, _, im => im
  | n + 1, k, (im, ok) =>
    let e := 0x40 + 16 * k
    let off := leAt bs (e + 8) 4
    let size := leAt bs (e + 12) 4
    if len < e + 16 ∨ off % 8 ≠ 0 ∨ len < off + size ∨ !zeroAt bs (e + 2) 2 then readSections bs len n (k + 1) (im, false)
    else
      let r := readSection (leAt bs e 2) (leAt bs (e + 4) 4) ((bs.drop off).take size) im
      readSections bs len n (k + 1) (r.1, ok && r.2)

/-- CHO_ID of a choreography image. -/
def choIdOf (bs : List Byte) : Half := BitVec.ofNat 32 (leAt bs 0x10 4)

/-- The records of a choreography image, as far as they can be read, and whether header, section table and records are well
formed; none where the header names no image. -/
def readCho (bs : List Byte) : Option (ChoImage × Bool) :=
  let len := leAt bs 8 8
  if bs.length < 64 ∨ leAt bs 0 4 ≠ 0x43484F52 ∨ leAt bs 4 2 ≠ 1 ∨ 1 < leAt bs 6 1 ∨ leAt bs 7 1 = 0 ∨ 16 < leAt bs 7 1 ∨
      bs.length < len then none
  else some (readSections bs len (leAt bs 7 1) 0 ({ choId := choIdOf bs, beat := leAt bs 6 1 == 1 }, zeroAt bs 0x14 44))

/-- A choreography image, unless it is malformed. -/
def parseCho (bs : List Byte) : Option ChoImage :=
  match readCho bs with
  | some (im, true) => some im
  | _ => none

end Sys2Proof.Machine
end

