-- ==== Sys2Proof/Machine/Domains.lean ====
section
/-! DEFINITION. Replay domains (R160 to R171, R178): barriers, commits, replays, aborts, repair holds, the barriers of domains that span modules (R301, R302), the conditions for starting a stage's step (R229, R230, R253), and DOM_CTRL. -/

namespace Sys2Proof.Machine

/-! ### Numerics at commit (R104, R105) -/

/-- Store NUM.LFLAG of a slot with its summaries (R108). -/
def State.setLflag (s : State) (slot flags : Nat) : State :=
  let s := s.setReg (aNumLflag slot) (BitVec.ofNat 64 flags)
  let s := s.setRfld (aNumFlagSummary (slot / 64)) (slot % 64) (slot % 64) (b2n (flags != 0))
  s.setRfld aNumStatus 0 0 (b2n ((List.range 64).any (fun j => s.reg64 (aNumFlagSummary j) != 0)))

/-- A W1C write to NUM.LFLAG of a slot (R105): each set flag of `bits` clears, and its growth count restarts from the counter. -/
def State.lflagClear (s : State) (slot bits : Nat) : State :=
  let old := s.rfld (aNumLflag slot) 5 0
  let hit := (List.range 6).filter (fun k => old.testBit k && bits.testBit k)
  let s : State := { s with
    con.numBase := hit.foldl (fun m k => kvPut 0 (slot * 8 + k) (s.reg64 (aNumCnt slot k)) m) s.con.numBase }
  s.setLflag slot (hit.foldl (fun m k => m - 2 ^ k) old)

/-- Set the flags of a slot whose counters have grown by their thresholds; from all clear to any set, a notice goes
to the slot's control cluster (R105). -/
def State.numCheck (s : State) (slot : Nat) : State :=
  let thr := s.reg64 (aNumLthr slot)
  let old := s.rfld (aNumLflag slot) 5 0
  let new := (List.range 6).foldl (fun m k =>
    let th := fld thr (10 * k + 9) (10 * k) * 2 ^ fld thr 63 60
    let grown := (s.reg64 (aNumCnt slot k)).toNat - (kvGet 0 (slot * 8 + k) s.con.numBase).toNat
    if th ≠ 0 ∧ th ≤ grown then m ||| 2 ^ k else m) old
  if new = old then s
  else
    let s := s.setLflag slot new
    if old ≠ 0 then s
    else
      let s := s.setRfld aNumStatus 15 4 slot
      let s := { s with con.notices := kvSet slot (BitVec.ofNat 6 new) s.con.notices }
      s.trace 5 4 0 0x3FFF (BitVec.ofNat 64 (pack [(0, slot), (12, new)])) 0

/-- Add one event of a committed step to NUM; nothing is counted in a slot that no loaded choreography declares
(R148). -/
def State.numAdd (s : State) (e : NumEvent) : State :=
  if kvGet 0 e.slot.toNat s.con.numSlot = 0 then s else s.bumpBy (aNumCnt e.slot.toNat e.kind) e.amount

/-- The layer slots of a domain's choreography. -/
def State.domSlots (s : State) (d : Nat) : List Nat :=
  match s.choOf (s.dom d).cho with
  | some c => c.image.slots.map (fun r => r.slot.toNat)
  | none => []

/-- NUM at a commit: the step's counts are added, staged thresholds apply, and flags set (R104, R105, R108). -/
def State.numCommit (s : State) (d : Nat) (evs : List NumEvent) : State :=
  let s := evs.foldl State.numAdd s
  ((s.domSlots d) ++ evs.map (fun e => e.slot.toNat)).eraseDups.foldl
    (fun s l => (s.applyReg (aNumLthr l)).numCheck l) s

/-! ### Asynchronous items (R159) -/

/-- Apply a signal: a count above 65,535 leaves the flag as it is. The result says whether the signal did. -/
def State.asyncSignal (s : State) (flag : BitVec 18) (amount : BitVec 8) : State × Bool :=
  let f := s.flag flag.toNat
  if 65535 < f.count.toNat + amount.toNat then (s, false)
  else (s.setFlag flag.toNat { f with count := BitVec.ofNat 16 (f.count.toNat + amount.toNat) }, true)

/-- A signal of an asynchronous source that overflows is a violation of kind 5 in the flag's domain, with TILE the
flag's waiting tile; no master freezes. -/
def State.asyncViolate (s : State) (flag : BitVec 18) : State :=
  let f := s.flag flag.toNat
  let d := f.dom.toNat
  let s := s.recordViol 5 (s.tile f.waiter).tenant.toNat f.waiter d flag.toNat
  s.trace 3 2 d f.waiter (s.reg64 aChoViolInfo) (s.reg64 aChoViolAddr)

/-- Append an entry of an asynchronous source at a queue's tail; it is visible at once. -/
def State.asyncEntry (s : State) (queue : Nat) (bs : List Byte) : State :=
  let q := s.queue queue
  let s := (s.scrWrite q.consumer (queueSlot q q.tail) bs).loupeTouch q.consumer (wrAcc (queueSlot q q.tail) bs.length)
  let t := ringStep q.depth q.tail 1
  s.setQueue queue { q with tail := t, pub := if q.pub = q.tail then t else q.pub }

/-- Bytes that land in the tiles of a domain before an item of it arrives are announced by that item (R159, R175). -/
def State.loupeAnnounce (s : State) (d : Nat) (a : AsyncItem) : State :=
  let mine := fun (k : Nat) => (s.dom d).members.contains (k / 2 ^ 22)
  let ks := s.dbg.loupe.landed.filter mine
  if ks.isEmpty then s
  else { s with
    dbg.loupe.landed := s.dbg.loupe.landed.filter (fun k => !mine k)
    dbg.loupe.announced := s.dbg.loupe.announced ++ [(a, ks)] }

/-- An item has been applied: the bytes it announces may be read. -/
def State.loupeApply (s : State) (a : AsyncItem) : State :=
  { s with dbg.loupe.announced := s.dbg.loupe.announced.eraseP (fun e => e.1 == a) }

/-- Apply the held items of a domain in arrival order. An entry for a full queue stays held. The result says whether a
signal overflowed. -/
def State.applyHeld (s : State) (d : Nat) : List AsyncItem → State × Bool
  | [] => (s, false)
  | .signal h n :: rest =>
    if (s.flag h.toNat).cho.isSome ∧ (s.flag h.toNat).dom.toNat = d then
      let r := s.asyncSignal h n
      if r.2 then (r.1.loupeApply (.signal h n)).applyHeld d rest
      else
        let a := (r.1.asyncViolate h).applyHeld d rest
        (a.1, true)
    else
      let a := s.applyHeld d rest
      ({ a.1 with con.held := .signal h n :: a.1.con.held }, a.2)
  | .entry q bs :: rest =>
    let x := s.queue q.toNat
    if x.cho.isSome ∧ x.consDom.toNat = d ∧ 0 < queueFree x then ((s.asyncEntry q.toNat bs).loupeApply (.entry q bs)).applyHeld d rest
    else
      let a := s.applyHeld d rest
      ({ a.1 with con.held := .entry q bs :: a.1.con.held }, a.2)

/-- Whether a domain has a step that has begun and not committed, running or to be run again, so that asynchronous items for it
are held (R159). -/
def State.inStep (s : State) (d : Nat) : Bool := !(s.dom d).between

/-- The domain's flags and queue pointers become its step-start state (R162). -/
def State.noteStart (s : State) (d : Nat) : State :=
  { s with
    con.flags := kvMap {} (fun _ f => if f.cho.isSome && f.dom.toNat == d then { f with start := f.count } else f) s.con.flags
    con.queues := kvMap {} (fun _ q =>
      if q.cho.isSome && q.consDom.toNat == d then { q with startHead := q.head, startTail := q.tail } else q) s.con.queues }

/-- A signal or entry of an asynchronous source is held while the domain is in a step, else applied at once (R159). One
that names no assigned flag or queue is dropped. -/
def State.asyncArrive (s : State) (a : AsyncItem) : State :=
  let known := match a with
    | .signal h _ => if (s.flag h.toNat).cho.isSome then some (s.flag h.toNat).dom.toNat else none
    | .entry q _ => if (s.queue q.toNat).cho.isSome then some (s.queue q.toNat).consDom.toNat else none
  match known with
  | none => s
  | some d =>
    let s : State := { s.loupeAnnounce d a with con.held := s.con.held ++ [a] }
    if s.inStep d then s
    else
      let r := ({ s with con.held := [] } : State).applyHeld d s.con.held
      let s := r.1.noteStart d
      if r.2 then s.stopDom d 6 else s

/-- ASYNC_SIGNAL_ARRIVE (R159). -/
def execAsyncSignalArrive (a : AsyncItem) (s : State) : Host.Outcome State Fault Refusal := .next (s.asyncArrive a)

/-! ### Starting a step (R229, R230, R253) -/

/-- Steps committed by stage `k` of an instance. -/
def State.stageSteps (s : State) (i k : Nat) : Nat :=
  match s.stageDom i k with
  | some d => (s.dom d).steps.toNat
  | none => 0

/-- The conditions of R253 for starting the next step of stage `k`. -/
def State.stageReady (s : State) (i k : Nat) : Bool :=
  let x := s.inst i
  let n := s.stageSteps i k + 1
  match x.stages[k]? with
  | none => true
  | some st =>
    (if k = 0 then decide (s.ifaceB i ≤ queueHolds (s.queue (s.ifaceInQ i)))
     else decide (n ≤ s.stageSteps i 0 + st.lag)) &&
    (if k + 1 < x.stages.length then decide (st.qstep ≤ queueFree (s.queue st.outQ.toNat))
     else decide (n ≤ x.readN + s.ifaceDepth i))

/-- Whether the next step of a domain may start now (R229, R230, R253). -/
def State.stepReady (s : State) (d : Nat) : Bool :=
  let x := s.dom d
  let held := match x.holdAfter with
    | some n => decide (n ≤ x.steps.toNat)
    | none => false
  !held &&
    match s.domInst d with
    | none => true
    | some i =>
      if (s.inst i).state = 0 ∨ (s.inst i).state = 1 then true
      else match s.domStage i d with
        | some k => s.stageReady i k
        | none => true

/-- Every participant of a domain, ascending. -/
def domParts (x : Domain) : List Nat := x.routers.foldl (fun l p => natAdd p l) x.members

/-- Loupe's shadow tags when a step starts: the step has read and written nothing yet (R175). -/
def State.loupeStep (s : State) (d : Nat) : State :=
  let keep := fun (k : Nat) => !(s.dom d).members.contains (k / 2 ^ 22)
  { s with
    dbg.loupe.stackRead := s.dbg.loupe.stackRead.filter (fun k => k / 2 ^ 48 != d)
    dbg.loupe.stackWritten := s.dbg.loupe.stackWritten.filter (fun k => k / 2 ^ 48 != d)
    dbg.loupe.readNow := s.dbg.loupe.readNow.filter keep
    dbg.loupe.writtenNow := s.dbg.loupe.writtenNow.filter keep }

/-- The release leaves the root (R161, R162). -/
def State.sendRelease (s : State) (d : Nat) (replay : Bool) : State :=
  let x := s.dom d
  ((s.loupeStep d).progress d).setDom d { x with
    await := domParts x, replaying := replay, waiting := false, arrived := [], mark := false, between := false }

/-- The next step starts, or waits at its barrier. -/
def State.proceed (s : State) (d : Nat) : State :=
  if s.stepReady d then s.sendRelease d false else s.setDom d { s.dom d with waiting := true }

/-- A trace record of a barrier decision (R453): source bit 1 commits, 2 replays and stops. -/
def State.traceDom (s : State) (d src : Nat) : State :=
  let x := s.dom d
  s.trace src 1 d x.root.toNat (BitVec.ofNat 64 (pack [(0, x.state.toNat), (4, x.attempt.toNat)])) 0

/-! ### Commit, replay, abort, stop -/

/-- STALL_LIMIT as the last accepted COMMIT left it. -/
def State.stallLimit (s : State) : Nat := fld (s.committedOf aChoStallLimit) 19 0

/-- CHO.STALL_LIMIT applies once every domain in use has taken the committed value at its barrier (R351). -/
def State.limitSettle (s : State) : State :=
  if s.con.doms.all (fun e => e.2.limit == s.stallLimit) then s.applyReg aChoStallLimit else s

/-- Each tile of a domain saves the state of its sequencer (R116). -/
def State.saveTiles (s : State) (d : Nat) : State :=
  (s.dom d).members.foldl (fun s t => s.setTile t { s.tile t with saved := (s.tile t).seq }) s

/-- A gated queue shows what its producers' step added and frees what its consumer's step released (R158). -/
def queuePublish (d : Nat) (q : Queue) : Queue :=
  if q.cho.isSome && q.gated then
    { q with pub := if q.prodDom.toNat = d then q.tail else q.pub
             free := if q.consDom.toNat = d then q.head else q.free }
  else q

/-- What takes effect together when a step commits (R116, R162, R167). The result says whether a held signal overflowed. -/
def State.commitDom (s : State) (d : Nat) : State × Bool :=
  let x := s.dom d
  let s := (s.bump aChoCommitCnt).numCommit d x.events
  let s : State := { s with con.queues := kvMap {} (fun _ q => queuePublish d q) s.con.queues }
  let r := ({ s with con.held := [] } : State).applyHeld d s.con.held
  let s := (r.1.noteStart d).saveTiles d
  ((s.setDom d { s.dom d with
    steps := x.steps + 1, attempt := 0, events := [], mark := false, between := true, limit := s.stallLimit }).limitSettle, r.2)

/-- Commit a step and go on: a signal that overflowed or a pending STOP stops the domain after the commit (R159, R167). -/
def State.commitAct (s : State) (d : Nat) : State :=
  let r := s.commitDom d
  let s := r.1
  if r.2 then ((s.setDom d { s.dom d with stopReq := false }).stopDom d 6).traceDom d 2
  else if (s.dom d).stopReq then ((s.setDom d { s.dom d with stopReq := false }).stopDom d 7).traceDom d 2
  else (s.proceed d).traceDom d 1

/-- Replay a step (R165): flags and queues return to their step-start values at the root, sequencers and outputs as the
release reaches them. -/
def State.replayAct (s : State) (d : Nat) : State :=
  let s := (s.bump aChoReplayCnt).restoreSync d
  let x := s.dom d
  let s := (s.setDom d { x with attempt := x.attempt + 1, events := [], limit := s.stallLimit }).limitSettle
  (s.sendRelease d true).traceDom d 2

/-- Act on a barrier's decision (R161, R301): 0 commit, 1 replay, 2 abort, 3 stop. A stop leaves the step to be run again, in
every part alike (R160). DEDUCED (notes/assumptions/24.md). -/
def State.decisionAct (s : State) (d decision : Nat) : State :=
  let s := s.setDom d { s.dom d with awaitRelease := false }
  match decision with
  | 0 => s.commitAct d
  | 1 => s.replayAct d
  | 2 => (s.abortDom d).traceDom d 2
  | _ =>
    let s := s.restoreDom d
    ((s.setDom d { s.dom d with attempt := 0, stopReq := false }).stopDom d 7).traceDom d 2

/-! ### The manager (R301, R302) -/

/-- The domain of this module that a barrier message names. -/
def State.msgDom (s : State) (choId : Half) (loc : BitVec 6) : Option Nat :=
  match s.con.chos.find? (fun c => c.2.image.choId == choId) with
  | some c => (c.2.doms.find? (fun e => e.1 == loc.toNat)).map (fun e => e.2.toNat)
  | none => none

/-- A part takes the release of its spanning domain: the first one starts its first step unless it stops the domain, later
ones carry the decision of its barrier. -/
def State.partRelease (s : State) (m : BarMsg) : State :=
  match s.msgDom m.choId m.locDom with
  | none => s
  | some d =>
    let x := s.dom d
    if !x.awaitRelease then s
    else if x.state = 1 then
      if m.mark.toNat < 2 then (s.setDom d { x with awaitRelease := false, state := 2, remoteHold := false }).proceed d
      else (s.setDom d { x with remoteHold := false }).decisionAct d m.mark.toNat
    else if x.state = 2 then (s.setDom d { x with remoteHold := false }).decisionAct d m.mark.toNat
    else s.setDom d { x with awaitRelease := false, remoteHold := false }

/-- Send a barrier message to a module: a message for this module itself acts at once. -/
def State.barSend (s : State) (dest : Nat) (m : BarMsg) : State :=
  let m := { m with src := BitVec.ofNat 10 s.modNumber, dest := BitVec.ofNat 10 dest }
  if dest = s.modNumber then s.partRelease m else s.ctrlSend (.barRelease m)

/-- A directory entry's domain is released: its committed changes apply (R307, R351), and it runs unless it stops. -/
def State.entryRelease (s : State) (e decision : Nat) : State :=
  let s : State := { s with
    fab.arrivals := kvDel e s.fab.arrivals
    fab.entryRuns := if decision < 2 then natAdd e s.fab.entryRuns else natDel e s.fab.entryRuns }
  (s.applyReg (aFabRdir e)).applyReg (aFabRdir e + 8)

/-- Release every part of a rack entry. -/
def State.rackRelease (s : State) (e : Nat) (m : BarMsg) : State :=
  let s := s.entryRelease e m.mark.toNat
  (s.rdirMask e).foldl (fun s i => s.barSend (rackOf s.modNumber * 16 + i % 16) m) s

/-- What the manager decides (R301): stop, abort, replay or commit, in that order. Arrivals whose STEP values disagree stop the
domain with a fault whatever their marks: they abort it. DEDUCED (notes/assumptions/24.md). -/
def arrivalsDecide (l : List Arrival) : Nat :=
  let mark := fun (a : Arrival) => if a.mark = 1 ∧ a.attempt = 2 then 2 else a.mark.toNat
  let worst := l.foldl (fun m a => max m (mark a)) 0
  match l with
  | [] => 0
  | a :: _ => if l.any (fun b => b.step != a.step) then 2 else worst

/-- A directory entry takes an arrival; the list of its arrivals is complete once every bit of MASK has one. -/
def State.entryTake (s : State) (e slot : Nat) (m : BarMsg) : State × Option (List Arrival) :=
  let a : Arrival := { slot, src := m.src.toNat, mark := m.mark, attempt := m.attempt, step := m.step }
  let l := (kvGet [] e s.fab.arrivals).filter (fun b => b.slot != slot) ++ [a]
  let s := { s with fab.arrivals := kvSet e l s.fab.arrivals }
  if (s.rdirMask e).all (fun i => l.any (fun b => b.slot == i)) then (s, some l) else (s, none)

/-- A root entry takes a rack's combined arrival. -/
def State.rootArrive (s : State) (e0 : Option Nat) (m : BarMsg) : State :=
  match s.rdirFind m.choId.toNat m.locDom.toNat 1 with
  | none => s
  | some e =>
    match s.entryTake e (rackOf m.src.toNat) m with
    | (s, none) => s
    | (s, some l) =>
      let dec := { m with mark := BitVec.ofNat 2 (arrivalsDecide l) }
      let s := s.entryRelease e dec.mark.toNat
      l.foldl (fun s a =>
        if a.src = s.modNumber then
          match e0 with
          | some k => s.rackRelease k dec
          | none => match s.rdirFind m.choId.toNat m.locDom.toNat 0 with
            | some k => s.rackRelease k dec
            | none => s
        else s.barSend a.src dec) s

/-- The manager takes an arrival (R301): of a slot of its rack, or at the root manager of another rack. A rack that holds
only parts of a wider domain passes its combined arrival up. -/
def State.managerArrive (s : State) (m : BarMsg) : State :=
  if rackOf m.src.toNat ≠ rackOf s.modNumber then s.rootArrive none m
  else
    match s.rdirFind m.choId.toNat m.locDom.toNat 0 with
    | none => s
    | some e =>
      match s.entryTake e (slotOf m.src.toNat) m with
      | (s, none) => s
      | (s, some l) =>
        let dec := { m with mark := BitVec.ofNat 2 (arrivalsDecide l) }
        if !s.rdirUpper e then s.rackRelease e dec
        else
          let up := { dec with src := BitVec.ofNat 10 s.modNumber, dest := BitVec.ofNat 10 (s.rfld aFabTimeCfg 10 1) }
          if s.isRoot then s.rootArrive (some e) up else s.ctrlSend (.barArrive up)

/-- A part sends its arrival to the manager and waits for the release (R301). -/
def State.partArrive (s : State) (d mark : Nat) : State :=
  let x := s.dom d
  let choId := match s.choOf x.cho with
    | some c => c.image.choId
    | none => 0
  let m : BarMsg := {
    src := BitVec.ofNat 10 s.modNumber, dest := BitVec.ofNat 10 s.managerNo, choId, locDom := BitVec.ofNat 6 x.locDom
    mark := BitVec.ofNat 2 mark, attempt := x.attempt, step := BitVec.ofNat 16 x.steps.toNat }
  let s := s.setDom d { x with awaitRelease := true }
  if s.isManager && s.managerNo == s.modNumber then s.managerArrive m else s.ctrlSend (.barArrive m)

/-- Note or clear the hold of a spanning domain's part. -/
def State.partHold (s : State) (m : BarMsg) (begins : Bool) : State :=
  match s.msgDom m.choId m.locDom with
  | some d => s.setDom d { s.dom d with remoteHold := begins }
  | none => s

/-- The manager relays a hold to every part of its rack but the sender, and to the other racks of a wider domain
(R302). -/
def State.managerHold (s : State) (m : BarMsg) (begins : Bool) : State :=
  let own := s.modNumber
  let put := fun (s : State) (dest : Nat) =>
    if dest = own then s.partHold m begins
    else s.ctrlSend (.hold { m with src := BitVec.ofNat 10 own, dest := BitVec.ofNat 10 dest } begins)
  let s := match s.rdirFind m.choId.toNat m.locDom.toNat 0 with
    | none => s
    | some e =>
      let s := ((s.rdirMask e).map (fun i => rackOf own * 16 + i % 16)).foldl
        (fun s t => if t = m.src.toNat then s else put s t) s
      if s.rdirUpper e && rackOf m.src.toNat == rackOf own && !s.isRoot then put s (s.rfld aFabTimeCfg 10 1) else s
  match s.rdirFind m.choId.toNat m.locDom.toNat 1 with
  | none => s
  | some e => (s.rdirMask e).foldl
      (fun s r => if r = rackOf own ∨ r = rackOf m.src.toNat then s else put s (r * 16)) s

/-- A part of a spanning domain that begins or ends a repair hold tells the manager (R302). -/
def State.sendHold (s : State) (d : Nat) (begins : Bool) : State :=
  let x := s.dom d
  if !x.spans then s
  else
    let choId := match s.choOf x.cho with
      | some c => c.image.choId
      | none => 0
    let m : BarMsg := {
      src := BitVec.ofNat 10 s.modNumber, dest := BitVec.ofNat 10 s.managerNo, choId, locDom := BitVec.ofNat 6 x.locDom
      mark := 0, attempt := 0, step := 0 }
    if s.isManager && s.managerNo == s.modNumber then s.managerHold m begins else s.ctrlSend (.hold m begins)

/-! ### The barrier (R161) -/

/-- The mark of a local decision: 0 commit, 1 replay, 2 abort. -/
def domMark (x : Domain) : Nat := if x.mark then (if x.attempt = 2 then 2 else 1) else 0

/-- The mark with which a part of a spanning domain that has stopped on its own arrives, so that all parts stop together (R160,
R301): an abort or a stall aborts, a violation, a request and Loupe stop. DEDUCED (notes/assumptions/24.md). -/
def stoppedMark (x : Domain) : Option Nat :=
  match x.state.toNat with
  | 4 | 5 => some 2
  | 6 | 7 | 8 => some 3
  | _ => none

/-- Decide at the root: a domain of one module acts, a part of a spanning domain sends its arrival. -/
def State.decideDom (s : State) (d : Nat) : State :=
  let x := s.dom d
  if x.spans then s.partArrive d (domMark x) else s.decisionAct d (domMark x)

/-- Enter a repair hold (R69, R167): the watchdog does not run. Spares that have been programmed take their places. -/
def State.enterHold (s : State) (d : Nat) : State :=
  (((s.setDom d { s.dom d with state := 3 }).bump aRepRepairHoldCnt).sendHold d true).bindSpares d

/-- The tiles of a beat domain that wait at the end of a frame. -/
def State.frameHeld (s : State) : Bool := s.beat.hold.any (fun e => e.2)

/-- The repair hold of a domain ends once nothing is left to repair: at a barrier the decision follows, after a RESTART
the step starts, and at a rewind point the beats run on (R430). -/
def State.holdCheck (s : State) (d : Nat) : State :=
  let x := s.dom d
  if x.state ≠ 3 ∨ !x.repairTiles.isEmpty ∨ !x.repairArrays.isEmpty then s
  else
    let s := (s.setDom d { x with state := 2 }).sendHold d false
    if s.beatDom d && !s.frameHeld then s
    else if x.arrived.isEmpty then s.proceed d else s.decideDom d

/-- Hold for the repairs of a domain. -/
def State.holdFor (s : State) (d : Nat) : State := (s.enterHold d).holdCheck d

/-- Loupe's check 5 at the barrier (R175, R177): every tile has arrived, and the traffic stands still with entries left or
flits that have none. -/
def State.loupeBarrier (s : State) (d : Nat) : Option (Nat × Nat) :=
  if !(s.dom d).loupe || !s.domStuck d then none
  else
    match s.domUnfinished d with
    | k :: _ => some (outPos k, turnAddr k (s.outp k))
    | [] =>
      match (s.domOutputs d).find? (fun k => (s.domStrays d).contains (outPos k)) with
      | some k => some (outPos k, turnAddr k (s.outp k))
      | none => none

/-- Whether every member tile has arrived, with no signal of theirs still on its way and no self-test running. -/
def State.tilesArrived (s : State) (d : Nat) : Bool :=
  let x := s.dom d
  x.members.all (fun t => x.arrived.contains t) && x.tests.isEmpty && x.await.isEmpty &&
    !s.wafer.signals.any (fun g => x.members.contains g.tile)

/-- A barrier (R161): once every participant has arrived, the root decides. A tile without arrays retires at this
boundary (R69); repairs run first (R167), but a step that aborts leaves them for RESTART (R364). A part of a spanning domain that
has stopped on its own sends its arrival so marked. -/
def State.barrierDecide (s : State) (d : Nat) : State :=
  let s := if (s.dom d).state = 2 ∧ !(s.dom d).waiting ∧ s.tilesArrived d then s.bindSpares d else s
  let x := s.dom d
  if x.spans && !x.awaitRelease && (stoppedMark x).isSome then s.partArrive d ((stoppedMark x).getD 2)
  else if x.state ≠ 2 ∨ x.waiting ∨ x.awaitRelease ∨ !s.tilesArrived d then s
  else
    match s.loupeBarrier d with
    | some (p, a) =>
      let s := s.setReg aDbgHazInfo (BitVec.ofNat 64 (pack [(0, 5), (16, p), (32, d)]))
      let s := s.setReg aDbgHazAddr (BitVec.ofNat 64 (pack [(0, a), (30, 3), (32, x.steps.toNat)]))
      let s := (s.bump aDbgHazCnt).trace 4 3 d p (s.reg64 aDbgHazInfo) (s.reg64 aDbgHazAddr)
      s.stopDom d 8
    | none =>
      if !(s.domUnfinished d).isEmpty || !(s.domStrays d).isEmpty then s
      else
        match x.members.filter (fun t => (s.tile t).exhausted) with
        | t :: _ => s.retireTile t 4
        | [] =>
          if (!x.repairTiles.isEmpty || !x.repairArrays.isEmpty) && domMark x != 2 then s.holdFor d else s.decideDom d

/-- BARRIER_RELEASE_ARRIVE (R116, R161): the release reaches a participant. A tile saves its state after a commit or
restores it for a replay, and runs; a router returns to phase 0. -/
def execBarrierReleaseArrive (dom : BitVec 10) (pos : TileIx) (s : State) : Host.Outcome State Fault Refusal :=
  let d := dom.toNat
  let p := pos.toNat
  let x := s.dom d
  if x.state ≠ 2 ∨ !x.await.contains p then .next s
  else
    let s := (s.setDom d { x with await := natDel p x.await }).progress d
    let y := s.tile p
    let s :=
      if !x.members.contains p then s
      else if x.replaying then s.setTile p (restoreTile y)
      else
        let stay := s.beatDom d && decide (s.beat.horizon < kvGet 0 p s.beat.done + 1)
        let s := s.setTile p { y with saved := y.seq, wait := if stay then .barrier else .no, steps := x.steps }
        { s with beat.hold := if stay then kvSet p false s.beat.hold else kvDel p s.beat.hold }
    .next (s.routerReset p)

/-- REPAIR_HOLD_END (R364): a tile's self-test in a repair hold ends. A tile that passes is no longer marked; one that
fails, or that is marked for the third time within 24 h, is retired. -/
def execRepairHoldEnd (dom : BitVec 10) (tile : TileIx) (pass : Bool) (s : State) : Host.Outcome State Fault Refusal :=
  let d := dom.toNat
  let t := tile.toNat
  let x := s.dom d
  if x.state ≠ 3 ∨ !x.repairTiles.contains t then .next s
  else
    let y := s.tile t
    let times := y.repairTimes.filter (fun c => decide (s.clock ≤ c + 86400 * 1000000))
    let s := (s.bump aRepTileTestCnt).setDom d { x with repairTiles := natDel t x.repairTiles }
    if 3 ≤ times.length then .next ((s.setTile t { y with repairTimes := times }).retireTile t 5)
    else if !pass then .next (s.retireTile t y.repairCause)
    else .next ((s.setTile t { y with repairPending := false, repairTimes := times }).holdCheck d)

/-! ### The watchdog (R170) -/

/-- Whether a member tile holds a completion entry younger than FAB.RCOMP_TMO (R170, R291). -/
def State.holdsRemote (s : State) (x : Domain) : Bool :=
  s.fab.ctab.any (fun e => x.members.contains e.2.tile && !e.2.kept &&
    decide (s.clock < e.2.since + 1000 * e.2.limit))

/-- A stall of a domain (R170, R430): the step is abandoned, the domain is restored and stops with STATE 5, counted and
logged. A beat domain is restored to the start of its oldest uncommitted beat. -/
def State.stallDom (s : State) (d : Nat) : State :=
  let s := (if s.beatDom d then s.beatRestore d (s.beat.committed + 1) else s.restoreDom d).bump aChoStallCnt
  let s := s.setDom d { s.dom d with attempt := 0 }
  let s := s.fault 2 none (some d) (s.dom d).limit
  (s.stopDom d 5).traceDom d 2

/-- Whether the watchdog of a domain runs (R170): not in a repair hold, before the first step, while the domain waits at its
barrier, is stopped, holds a young completion entry, or waits for its manager (R253, R302). -/
def State.watchRuns (s : State) (x : Domain) : Bool :=
  x.state == 2 && !x.waiting && !x.awaitRelease && !x.remoteHold && !s.holdsRemote x &&
    !(x.spans && s.rfld aFabMgrState 1 0 == 1)

/-- A microsecond of every watchdog that runs (R5, R170). -/
def State.tickWatch (s : State) : State :=
  { s with watch := s.con.doms.foldl (fun m e => if s.watchRuns e.2 then kvPut 0 e.1 (kvGet 0 e.1 m + 1) m else m) s.watch }

/-- STALL_TIMEOUT (R170): the domain has made no progress for STALL_LIMIT. -/
def execStallTimeout (dom : BitVec 10) (s : State) : Host.Outcome State Fault Refusal :=
  let d := dom.toNat
  let x := s.dom d
  if !s.watchRuns x ∨ kvGet 0 d s.watch < x.limit then .next s else .next ((s.stallDom d).progress d)

/-! ### Starting -/

/-- STAGE_STEP_START (R253): a stage that waits at its barrier starts its next step once its conditions hold. -/
def execStageStepStart (inst : BitVec 10) (stage : BitVec 6) (s : State) : Host.Outcome State Fault Refusal :=
  match s.stageDom inst.toNat stage.toNat with
  | none => .next s
  | some d =>
    let x := s.dom d
    if x.state ≠ 2 ∨ !x.waiting ∨ !s.stepReady d then .next s
    else if !x.repairTiles.isEmpty || !x.repairArrays.isEmpty then .next (s.holdFor d)
    else .next (s.sendRelease d false)

/-! ### DOM_CTRL (R148, R178) -/

/-- Free what a choreography owns (R148): tiles, outputs, flags, queues and layer slots; scratch and NUM stay. -/
def State.freeCho (s : State) (c : Nat) : State :=
  match s.choOf c with
  | none => s
  | some x =>
    let slots := x.image.slots.map (fun r => r.slot.toNat)
    { s with
      wafer.tiles := kvMap {} (fun _ t => if t.cho = some c then
        { t with cho := none, dom := none, wait := .no, outbox := [], reads := [], product := none } else t) s.wafer.tiles
      wafer.outputs := kvMap {} (fun _ o => if o.cho = some c then {} else o) s.wafer.outputs
      con.flags := kvMap {} (fun _ f => if f.cho = some c then {} else f) s.con.flags
      con.queues := kvMap {} (fun _ q => if q.cho = some c then {} else q) s.con.queues
      con.numSlot := slots.foldl (fun m l => kvDel l m) s.con.numSlot
      con.chos := kvDel c s.con.chos
      beat := if s.beat.cho = some c then {} else s.beat }

/-- Drop the completion entries that a domain's tiles hold for inspection (R291). -/
def State.dropKept (s : State) (members : List Nat) : State :=
  { s with fab.ctab := s.fab.ctab.filter (fun e => !(e.2.kept && members.contains e.2.tile)) }

/-- Unload a domain (R148); the last one of a choreography frees it. -/
def State.unloadDom (s : State) (d : Nat) : State :=
  let x := s.dom d
  let c := x.cho
  let s := ((s.bindSpares d).flushDom d).dropKept x.members
  let s : State := (({ s with con.doms := kvDel d s.con.doms } : State).progress d).limitSettle
  match s.choOf c with
  | none => s
  | some y =>
    let y := { y with doms := y.doms.filter (fun e => e.2.toNat != d) }
    let s : State := { s with con.chos := kvSet c y s.con.chos }
    if y.doms.isEmpty then s.freeCho c else s

/-- Whether DOM_CTRL is refused for a stage of an instance in PROMENADE, ROLLBACK or PARKED (R229). -/
def State.ctrlBarred (s : State) (d : Nat) : Bool :=
  match s.domInst d with
  | some i => (s.inst i).state == 4 || (s.inst i).state == 5 || (s.inst i).state == 6
  | none => false

/-- Whether a master of a domain is frozen: a member tile or its remote channel. -/
def State.domFrozen (s : State) (x : Domain) : Bool := x.members.any (fun t => s.frozenAt 0 t || s.frozenAt 1 t)

/-- Resume a stopped domain from its step-start state with a new attempt count (R166, R178), after the repairs that wait
for it (R364). -/
def State.restartDom (s : State) (d : Nat) : State :=
  let x := s.dom d
  let s := if x.state = 6 ∨ x.state = 8 then s.restoreDom d else s
  let s := (s.dropKept x.members).progress d
  let s := s.setDom d { s.dom d with
    state := 2, attempt := 0, arrived := [], violated := false, awaitRelease := false, stopReq := false }
  if !x.repairTiles.isEmpty || !x.repairArrays.isEmpty then s.holdFor d
  else if s.beatDom d && !s.frameHeld then s
  else s.proceed d

/-- Whether a domain has a tile in the field that a calibration has out of service (R418). -/
def State.domInCal (s : State) (x : Domain) : Bool := x.members.any (fun t => s.inCal (fieldOf t))

/-- DOM_CTRL.RESTART as the block takes it (R178): accepted while RETIRED_REF is 0 in STATE 4, 5, 7 and 8, and in STATE 6 once
no master of the domain is frozen; a spanning domain needs a manager (R302). It waits for a field in calibration to return
(R418). -/
def State.ctrlRestart (s : State) (path : Path) (d : Nat) : State :=
  let x := s.dom d
  let ok := x.state == 4 || x.state == 5 || x.state == 7 || x.state == 8 || (x.state == 6 && !s.domFrozen x)
  if !ok || x.retiredRef || s.ctrlBarred d || (x.spans && s.rfld aFabMgrState 1 0 == 2) then
    s.refuse path 2 true (aChoDomCtrl d)
  else if s.domInCal x then ({ s with keep.calWait := natAdd d s.keep.calWait } : State).ok
  else (s.restartDom d).ok

/-- DOM_CTRL_RESTART (R178). -/
def execDomCtrlRestart (path : Path) (dom : BitVec 10) (s : State) : Host.Outcome State Fault Refusal :=
  .next (s.access path (aChoDomCtrl dom.toNat) true (fun s => s.ctrlRestart path dom.toNat))

/-- DOM_CTRL.STOP as the block takes it (R167, R178): a domain in STATE 1 to 3 stops at its next barrier, at once when it
waits at one. DEDUCED (notes/assumptions/60.md). -/
def State.ctrlStop (s : State) (path : Path) (d : Nat) : State :=
  let x := s.dom d
  if (x.state ≠ 1 ∧ x.state ≠ 2 ∧ x.state ≠ 3) ∨ s.ctrlBarred d then s.refuse path 2 true (aChoDomCtrl d)
  else if x.state = 2 ∧ x.waiting then ((s.setDom d { x with waiting := false }).stopDom d 7).ok
  else (s.resetsSettle.setDom d { x with stopReq := true }).ok

/-- DOM_CTRL_STOP (R167). -/
def execDomCtrlStop (path : Path) (dom : BitVec 10) (s : State) : Host.Outcome State Fault Refusal :=
  .next (s.access path (aChoDomCtrl dom.toNat) true (fun s => s.ctrlStop path dom.toNat))

/-- DOM_CTRL.UNLOAD as the block takes it (R148, R178): accepted only in a stopped state. -/
def State.ctrlUnload (s : State) (path : Path) (d : Nat) : State :=
  let x := s.dom d
  if x.state.toNat < 4 ∨ s.ctrlBarred d then s.refuse path 2 true (aChoDomCtrl d) else (s.unloadDom d).ok

/-- DOM_CTRL_UNLOAD (R148). -/
def execDomCtrlUnload (path : Path) (dom : BitVec 10) (s : State) : Host.Outcome State Fault Refusal :=
  .next (s.access path (aChoDomCtrl dom.toNat) true (fun s => s.ctrlUnload path dom.toNat))

end Sys2Proof.Machine
end

