-- ==== Sys2Proof/Machine/Choreo.lean ====
section
/-! DEFINITION. Loading a choreography (R147, R180, R187, R200 to R205): the checks, their reasons, and what an accepted one sets up. -/

namespace Sys2Proof.Machine

/-- A check that failed: the reason of R147 and the tile index concerned. -/
abbrev Reject := Nat × Nat

/-- A condition that must hold. -/
def need (ok : Bool) (reason pos : Nat) : List Reject := if ok then [] else [(reason, pos)]

/-- Whether a list has no repeats. -/
def distinct : List Nat → Bool
  | [] => true
  | a :: r => !r.contains a && distinct r

/-! ### Programs (R180, R185, R187, R198) -/

/-- The layer slot an instruction names. -/
def instrSlot : Instr → Option (BitVec 12)
  | .mvm _ o | .tmvm _ o => some o.lslot
  | .sideEnc _ o => some o.lslot
  | .sideWadd _ o => some o.lslot
  | .sideAadd _ o => some o.lslot
  | .vecCopy _ o | .vecAdd _ o | .vecSub _ o | .vecMul _ o | .vecFma _ o | .vecMax _ o | .vecMin _ o | .vecAbs _ o
  | .vecScale _ o | .vecExp2 _ o | .vecLog2 _ o | .vecRcp _ o | .vecRsqrt _ o | .vecSumred _ o | .vecMaxred _ o
  | .vecSqsumred _ o | .vecCvt _ o | .vecEnc _ o | .vecDec _ o => some o.lslot
  | .dot _ o => some o.lslot
  | .sample _ o => some o.lslot
  | _ => none

/-- The field of the flag or queue handle an instruction names. -/
def instrField : Instr → Option Nat
  | .flagWait _ h _ | .flagSignal _ h _ => some (h.toNat / 4096)
  | .queueTake _ _ _ q | .queuePeek _ _ _ q | .queueRelease _ _ q | .movePut _ _ _ q => some (q.toNat / 1024)
  | .sideFetch _ o => some (o.queue.toNat / 1024)
  | .sideAadd _ o => some (o.queue.toNat / 1024)
  | _ => none

/-- The tile kinds that execute an opcode (R181); SIDE by its form. -/
def wordKinds (x : Nat) : List Nat :=
  match x / 2 ^ 56 with
  | 0x20 | 0x21 => [0]
  | 0x28 => if x / 2 ^ 52 % 16 = 0 then [0] else [1]
  | 0x30 | 0x38 | 0x3C => [1]
  | 0x40 => [2]
  | _ => [0, 1, 2]

/-- The instruction indices that an instruction may continue at. -/
def instrTargets : Instr → List Nat
  | .bar _ _ n => [n.toNat]
  | .sclBeq _ _ _ i | .sclBne _ _ _ i | .sclBlt _ _ _ i | .sclBge _ _ _ i | .sclBltu _ _ _ i | .sclJmp _ i => [i.toNat]
  | _ => []

/-- The loop rules of R187 and R185 at instruction `i`: bodies are the last indices of the enclosing bodies, innermost
first. -/
def loopRules (n : Nat) : Nat → List Nat → List Instr → Bool
  | _, _, [] => true
  | i, bodies, c :: rest =>
    let bodies := bodies.dropWhile (fun last => decide (last < i))
    match c with
    | .loopBegin _ _ body _ =>
      let last := i + body.toNat
      decide (last < n) && decide (bodies.length < 4) &&
        (match bodies with
          | b :: _ => decide (last ≤ b)
          | [] => true) && loopRules n (i + 1) (last :: bodies) rest
    | .bar _ true _ => bodies.isEmpty && loopRules n (i + 1) bodies rest
    | _ => loopRules n (i + 1) bodies rest

/-- Whether an instruction is a BAR. -/
def isBar : Instr → Bool
  | .bar .. => true
  | _ => false

/-- The checks of one program: reason 6 for its format, reason 2 for a handle of an unpowered field. -/
def State.checkProgram (s : State) (slots : List (BitVec 12)) (r : TileRec) : List Reject :=
  let w : At := { tile := BitVec.ofNat 14 r.tile, fault := false }
  let n := r.code.length
  let ds := r.code.map (fun x => (decodeTile w x.toNat).bind (fun i =>
    if (wordKinds x.toNat).contains (tileKind r.tile) then some i else none))
  let is := ds.filterMap id
  need (ds.all Option.isSome) 6 r.tile ++
  need (is.all (fun i => (instrTargets i).all (fun k => decide (k < n)))) 6 r.tile ++
  need (match is.getLast? with
    | some i => isBar i
    | none => false) 6 r.tile ++
  need (loopRules n 0 [] is) 6 r.tile ++
  need (is.all (fun i => match instrSlot i with
    | some l => slots.contains l
    | none => true)) 6 r.tile ++
  need (is.all (fun i => match instrField i with
    | some f => s.fieldOn f
    | none => true)) 2 r.tile

/-! ### Multicast trees (R34, R35) -/

/-- Where a declaration's tree crosses a position: the input and the outputs of its copies. -/
def State.treeAt (s : State) (m : McastRec) (pos : Nat) : Option (Nat × List Nat) :=
  let r := m.rect.toNat
  let x0 := bits r 6 0
  let x1 := bits r 13 7
  let y0 := bits r 20 14
  let y1 := bits r 27 21
  let xs := posX m.src
  let ys := posY m.src
  let x := posX pos
  let y := posY pos
  let lo := min xs x0
  let hi := max xs x1
  let inCols := decide (x0 ≤ x) && decide (x ≤ x1)
  let takes := inCols && decide (y0 ≤ y) && decide (y ≤ y1) && s.mapOf pos == 0 && bit (bits r 30 28) (tileKind pos)
  if y = ys then
    if x < lo ∨ hi < x then none
    else
      let input := if x = xs then 4 else if x > xs then 3 else 1
      some (input,
        (if xs ≤ x ∧ x < hi then [1] else []) ++ (if x ≤ xs ∧ lo < x then [3] else []) ++
        (if inCols ∧ y0 < ys then [0] else []) ++ (if inCols ∧ ys < y1 then [2] else []) ++ (if takes then [4] else []))
  else if !inCols then none
  else if y < ys then
    if y < y0 then none else some (2, (if y0 < y then [0] else []) ++ (if takes then [4] else []))
  else
    if y1 < y then none else some (0, (if y < y1 then [2] else []) ++ (if takes then [4] else []))

/-! ### Sync paths (R26, R30, R161, R456) -/

/-- Positions from column a to column b of row y, both included. -/
def rowPath (y a b : Nat) : List Nat :=
  if a ≤ b then (List.range (b + 1 - a)).map (fun i => posOf (a + i) y)
  else (List.range (a + 1 - b)).map (fun i => posOf (a - i) y)

/-- Positions from row a to row b of column x, both included. -/
def colPath (x a b : Nat) : List Nat :=
  if a ≤ b then (List.range (b + 1 - a)).map (fun i => posOf x (a + i))
  else (List.range (a + 1 - b)).map (fun i => posOf x (a - i))

/-- The sync path between two positions: along the row, then along the column. DESIGN CHOICE
(notes/assumptions/25.md). -/
def syncPath (a b : Nat) : List Nat := rowPath (posY a) (posX a) (posX b) ++ (colPath (posX b) (posY a) (posY b)).drop 1

/-- The links a path of positions crosses, as router inputs. -/
def pathInputs : List Nat → List Nat
  | a :: b :: r =>
    let dir := if b + 112 = a then 2 else if a + 112 = b then 0 else if b = a + 1 then 3 else 1
    linkKey b dir :: pathInputs (b :: r)
  | _ => []

/-- The position of a field's sync block (R456). -/
def syncBlock (f : Nat) : Nat := posIn f 8 8

/-! ### The checks of a load (R147) -/

/-- The router records' positions without a member tile, and the domain they join. -/
def choRelays (im : ChoImage) : List (Nat × Nat) :=
  ((im.routers.filter (fun r => !im.tiles.any (fun t => t.tile == r.pos))).map (fun r => (r.pos, r.dom))).eraseDups

/-- The tiles of a list, from the image's list sections. -/
def listTiles (im : ChoImage) (field base n : Nat) : Option (List Nat) :=
  let l := (List.range n).map (fun i =>
    (im.lists.filterMap (fun r =>
      if r.field = field ∧ r.first ≤ base + i ∧ base + i < r.first + r.tiles.length then r.tiles[base + i - r.first]? else none)).head?)
  if l.any Option.isNone then none else some (l.filterMap id)

/-- The local domain of a member tile. -/
def tileDom (im : ChoImage) (t : Nat) : Option Nat := (im.tiles.find? (fun r => r.tile == t)).map (fun r => r.dom)

/-- Whether tiles all lie in one local domain. -/
def sameDom (im : ChoImage) (l : List Nat) : Bool :=
  l.all (fun t => (tileDom im t).isSome && tileDom im t == tileDom im (l.headD 0))

/-- The signallers of a flag. -/
def flagList (im : ChoImage) (r : FlagRec) : Option (List Nat) :=
  listTiles im (r.handle.toNat / 4096) (fld r.desc 45 32) (fld r.desc 53 46 + 1)

/-- The producers of a queue. -/
def queueList (im : ChoImage) (r : QueueRec) : Option (List Nat) :=
  listTiles im (r.handle.toNat / 1024) (fld r.desc1 13 0) (fld r.desc1 21 14 + 1)

/-- Whether an owned output leads where R455 permits: reason 1 for an uncommitted tile's local output, else reason 6. -/
def State.checkOutput (s : State) (r : RouterRec) : List Reject :=
  if r.output = 4 then
    if tileKind r.pos != 3 then need (s.mapOf r.pos == 0) 1 r.pos
    else need ((stackAt r.pos).isSome || (engineAt r.pos).isSome || (clusterAt r.pos).isSome) 6 r.pos
  else
    match neighbour r.pos r.output with
    | some _ => []
    | none => need ((tensorPortAt r.pos r.output).isSome && !otherPortAt r.pos r.output) 6 r.pos

/-- Whether a position is named that may not be: a tile position that is not committed (R23). Reason 1. -/
def State.checkNamed (s : State) (pos : Nat) : List Reject := need (tileKind pos == 3 || s.mapOf pos == 0) 1 pos

/-- Whether an output's path is powered and the links it uses are in service (R33, R367): its own, and those of the inputs
its entries name. Reason 2. -/
def State.checkPath (s : State) (r : RouterRec) : List Reject :=
  need (s.fieldOn (fieldOf r.pos)) 2 r.pos ++
  need (((List.range 4).filter (fun i => r.table.any (fun p => p.entries.any (fun e => entInput e == i)))).all (fun i =>
    match neighbour r.pos i with
    | some p => s.fieldOn (fieldOf p) && !(s.link (linkKey r.pos i)).retired
    | none => true)) 2 r.pos ++
  match neighbour r.pos r.output with
  | some p =>
    if r.output = 4 then []
    else need (s.fieldOn (fieldOf p) && !(s.link (linkKey p (opposite r.output))).retired) 2 r.pos
  | none => []

/-- The format checks of a router record against the image (R153, R154, R200). -/
def State.checkRouter (s : State) (im : ChoImage) (r : RouterRec) : List Reject :=
  let mine := im.tiles.find? (fun t => t.tile == r.pos)
  let entries := r.table.flatMap (fun p => p.entries)
  need (match mine with
    | some t => t.dom == r.dom
    | none => (im.routers.filter (fun q => q.pos == r.pos)).all (fun q => q.dom == r.dom)) 6 r.pos ++
  need (entries.all (fun e => entDel e != 1 || (match mine with
    | some t => decide (entQidx e < t.inq.length)
    | none => false))) 6 r.pos ++
  need (entries.all (fun e => (entSet e).all (fun p => im.routers.any (fun q => q.pos == r.pos && q.output == p)))) 6 r.pos ++
  need (entries.all (fun e => (entSet e).isEmpty || im.mcasts.any (fun m => match s.treeAt m r.pos with
    | some (i, outs) => i == entInput e && (entSet e).all (fun p => outs.contains p)
    | none => false))) 6 r.pos

/-- The checks of a domain record: its members and participants, and its sync paths (R33, R154, R160). -/
def State.checkDomain (s : State) (im : ChoImage) (r : DomainRec) : List Reject :=
  let members := (im.tiles.filter (fun t => t.dom == r.dom)).map (fun t => t.tile)
  let relays := ((choRelays im).filter (fun p => p.2 == r.dom)).map Prod.fst
  let rect := (List.range (r.y1 + 1 - r.y0)).flatMap (fun j => (List.range (r.x1 + 1 - r.x0)).map (fun i => posOf (r.x0 + i) (r.y0 + j)))
  let paths := (members ++ relays).flatMap (fun p => syncPath p r.root ++ syncPath r.root p)
  let links := (members ++ relays).flatMap (fun p => pathInputs (syncPath p r.root) ++ pathInputs (syncPath r.root p))
  need (!members.isEmpty) 6 r.root ++ need (r.parts == members.length + relays.length) 6 r.root ++
  need ((rect.map fieldOf ++ paths.map fieldOf).eraseDups.all (fun f => s.fieldOn f)) 2 r.root ++
  need (links.all (fun k => !(s.link k).syncRetired)) 2 r.root

/-- The checks of a flag record (R155, R202), the sync paths of its operations among them (R30, R33). -/
def State.checkFlag (s : State) (im : ChoImage) (r : FlagRec) : List Reject :=
  let waiter := fld r.desc 29 16
  let block := syncBlock (r.handle.toNat / 4096)
  let named := waiter :: (flagList im r).getD []
  let paths := syncPath block waiter :: named.map (fun t => syncPath t block)
  named.flatMap s.checkNamed ++
  need (paths.all (fun p => p.all (fun t => s.fieldOn (fieldOf t)) && (pathInputs p).all (fun k => !(s.link k).syncRetired))) 2
    waiter ++
  need (s.flag r.handle.toNat).cho.isNone 4 waiter ++ need (s.fieldOn (r.handle.toNat / 4096)) 2 waiter ++
  need (decide (fld r.desc 45 32 + fld r.desc 53 46 < 16384)) 4 waiter ++
  match flagList im r with
  | some l => need (sameDom im (waiter :: l)) 6 waiter
  | none => need (decide (16384 ≤ fld r.desc 45 32 + fld r.desc 53 46)) 6 waiter

/-- The checks of a queue record (R112, R157, R203). -/
def State.checkQueue (s : State) (im : ChoImage) (r : QueueRec) : List Reject :=
  let c := fld r.desc0 26 13
  let size := 128 * (fld r.desc0 11 0 + 1)
  let store := fld r.desc0 49 28
  (c :: (queueList im r).getD []).flatMap s.checkNamed ++
  need (s.queue r.handle.toNat).cho.isNone 4 c ++ need (s.fieldOn (r.handle.toNat / 1024)) 2 c ++
  need (decide (0x10000 ≤ store) && decide (store + size ≤ kindScratch (tileKind c))) 7 c ++
  need (decide (fld r.desc1 13 0 + fld r.desc1 21 14 < 16384)) 4 c ++ need (tileDom im c).isSome 6 c ++
  match queueList im r with
  | some l => need (if bit r.desc0.toNat 12 then sameDom im l && !im.beat else sameDom im (c :: l)) 6 c
  | none => need (decide (16384 ≤ fld r.desc1 13 0 + fld r.desc1 21 14)) 6 c

/-- A run of list-store slots: its first slot, by field, and its length. -/
abbrev SlotRun := Nat × Nat

/-- The slots that an image's list sections fill. -/
def listRuns (im : ChoImage) : List SlotRun := im.lists.map (fun r => (r.field * 2 ^ 20 + r.first, r.tiles.length))

/-- The lists that an image's flag descriptors assign (R202). -/
def flagRuns (im : ChoImage) : List SlotRun :=
  im.flags.map (fun r => (r.handle.toNat / 4096 * 2 ^ 20 + fld r.desc 45 32, fld r.desc 53 46 + 1))

/-- The lists that an image's queue descriptors assign (R203). -/
def queueRuns (im : ChoImage) : List SlotRun :=
  im.queues.map (fun r => (r.handle.toNat / 1024 * 2 ^ 20 + fld r.desc1 13 0, fld r.desc1 21 14 + 1))

/-- Whether two runs share a slot. -/
def runsMeet (a b : SlotRun) : Bool := decide (a.1 < b.1 + b.2) && decide (b.1 < a.1 + a.2)

/-- Whether no two runs of a list share a slot. -/
def runsApart : List SlotRun → Bool
  | [] => true
  | a :: r => !r.any (runsMeet a) && runsApart r

/-- The checks of the list store (R203): a list section past its end, a list over slots of a loaded choreography's lists, and
within the image two sections, or a queue's list and another list, over one slot: reason 4. Flags may share a list. DEDUCED
(notes/assumptions/170.md). -/
def State.checkLists (s : State) (im : ChoImage) : List Reject :=
  let all := fun (im : ChoImage) => listRuns im ++ flagRuns im ++ queueRuns im
  let used := s.con.chos.flatMap (fun c => all c.2.image)
  need (im.lists.all (fun r => decide (r.first + r.tiles.length ≤ 16384))) 4 0 ++
  need (runsApart (listRuns im) && runsApart (queueRuns im) && (queueRuns im).all (fun a => !(flagRuns im).any (runsMeet a)) &&
    (all im).all (fun a => !used.any (runsMeet a))) 4 0

/-- The checks of a multicast declaration (R23, R34): its source is no uncommitted tile, and its rectangle and tree lie in powered fields. -/
def State.checkMcast (s : State) (m : McastRec) : List Reject :=
  let r := m.rect.toNat
  let fs := (List.range 49).filter (fun f =>
    decide (16 * fieldX f ≤ max (posX m.src) (bits r 13 7)) && decide (min (posX m.src) (bits r 6 0) ≤ 16 * fieldX f + 15) &&
      decide (16 * fieldY f ≤ max (posY m.src) (bits r 27 21)) && decide (min (posY m.src) (bits r 20 14) ≤ 16 * fieldY f + 15))
  let crossed := fs.filter (fun f => (List.range 256).any (fun i => (s.treeAt m (posIn f (i % 16) (i / 16))).isSome))
  s.checkNamed m.src ++ need (crossed.all (fun f => s.fieldOn f)) 2 m.src

/-- The checks of a tile record; a position of a memory field is no committed tile (R23). -/
def State.checkTile (s : State) (im : ChoImage) (r : TileRec) : List Reject :=
  need (tileKind r.tile != 3 && s.mapOf r.tile == 0) 1 r.tile ++ need (s.fieldOn (fieldOf r.tile)) 2 r.tile ++
  need (s.tile r.tile).cho.isNone 3 r.tile ++ need (im.domains.any (fun d => d.dom == r.dom)) 6 r.tile ++
  need (r.inq.all (fun h => im.queues.any (fun q => q.handle == h && fld q.desc0 26 13 == r.tile))) 6 r.tile ++
  s.checkProgram (im.slots.map (fun l => l.slot)) r

/-- The module domain numbers that are free (R147). -/
def State.freeDoms (s : State) : List Nat := (List.range 1024).filter (fun d => (kvFind d s.con.doms).isNone)

/-- Every check of R147 on a parsed image. -/
def State.choChecks (s : State) (im : ChoImage) : List Reject :=
  im.tiles.flatMap (s.checkTile im) ++
  im.routers.flatMap (fun r =>
    s.checkOutput r ++ s.checkPath r ++ s.checkRouter im r ++
      need (s.outp (outKey r.pos r.output)).cho.isNone 3 r.pos ++ need (im.domains.any (fun d => d.dom == r.dom)) 6 r.pos) ++
  im.domains.flatMap (s.checkDomain im) ++ im.flags.flatMap (s.checkFlag im) ++ im.queues.flatMap (s.checkQueue im) ++
  s.checkLists im ++ im.mcasts.flatMap s.checkMcast ++
  im.slots.flatMap (fun l => need (kvGet 0 l.slot.toNat s.con.numSlot == 0) 5 0) ++
  need (distinct (im.tiles.map (fun t => t.tile)) && distinct (im.routers.map (fun r => outKey r.pos r.output)) &&
    distinct (im.domains.map (fun d => d.dom)) && distinct (im.slots.map (fun l => l.slot.toNat)) &&
    !im.domains.isEmpty) 6 0 ++
  need (distinct (im.flags.map (fun f => f.handle.toNat)) && distinct (im.queues.map (fun q => q.handle.toNat))) 4 0 ++
  need (!im.beat || (im.domains.length == 1 && im.domains.all (fun d => !d.spans))) 6 0 ++
  need (!im.beat || s.beat.cho.isNone) 3 0 ++
  need (decide (im.domains.length ≤ s.freeDoms.length)) 8 0

/-- The lowest reason of a list of rejects, with its position (R147). -/
def lowestReject : List Reject → Option Reject
  | [] => none
  | a :: r =>
    match lowestReject r with
    | some b => if b.1 < a.1 then some b else some a
    | none => some a

/-- Record and count a refusal. -/
def State.choReject (s : State) (r : Reject) : State :=
  let s := s.setReg aChoLastReject (BitVec.ofNat 64 (pack [(0, r.1), (16, r.2)]))
  s.bump (if r.1 ≤ 2 then aChoPlaceRejectCnt else aChoLoadRejectCnt)

/-! ### An accepted choreography -/

/-- Write a step program from offset 0 of program memory, and zero up to 0xFFFF (R205). -/
def State.writeProgram (s : State) (t : Nat) (code : List Word) : State :=
  let s : State := { s with
    wafer.scratch := memClear (scrKey t 0) 0x10000 s.wafer.scratch
    wafer.scratchBad := s.wafer.scratchBad.filter (fun k => !(decide (scrKey t 0 ≤ k) && decide (k < scrKey t 0x10000))) }
  s.scrWrite t 0 (bytesOf code)

/-- Set up a tile (R138, R146, R182): its sequencer at zero, its segments that change tenant waiting to be cleared. -/
def State.loadTile (s : State) (c d : Nat) (r : TileRec) : State :=
  let t := r.tile
  let old := s.tile t
  let tags := (List.range (kindSegments (tileKind t))).filter (fun g => decide (4 ≤ g) && s.segTag t g != r.tenant.toNat)
  let segTags := tags.foldl (fun m g => kvPut 0 g r.tenant m) old.segTags
  let s := s.setTile t { old with
    cho := some c, dom := some (BitVec.ofNat 10 d), tenant := r.tenant, ninstr := r.code.length, inq := r.inq
    seq := {}, saved := {}, wait := .barrier, mark := false, steps := 0, outbox := [], reads := [], ctabWait := false
    product := none, segTags, clearing := tags.foldl (fun l g => natAdd g l) old.clearing }
  let s := s.winCloseAll (fun s g w => tags.any (fun k => s.winOverTile t (16384 * k) 16384 g w))
  let s : State := { s with
    dbg.loupe.written := s.dbg.loupe.written.filter (fun k => k / 2 ^ 22 != t)
    dbg.loupe.readNow := s.dbg.loupe.readNow.filter (fun k => k / 2 ^ 22 != t)
    dbg.loupe.writtenNow := s.dbg.loupe.writtenNow.filter (fun k => k / 2 ^ 22 != t)
    dbg.loupe.landed := s.dbg.loupe.landed.filter (fun k => k / 2 ^ 22 != t) }
  s.writeProgram t r.code

/-- Declare a layer slot (R104): counters zero, flags clear, thresholds from the image. -/
def State.loadSlot (s : State) (r : SlotRec) : State :=
  let l := r.slot.toNat
  let s := (List.range 6).foldl (fun s k => s.setReg (aNumCnt l k) 0) s
  let s := (s.setLflag l 0).setReg (aNumLthr l) r.lthr
  { s with
    con.numBase := (List.range 6).foldl (fun m k => kvDel (l * 8 + k) m) s.con.numBase
    con.numSlot := kvSet l (r.cluster + 1) s.con.numSlot
    con.notices := kvDel l s.con.notices
    reg.staged := kvDel (aNumLthr l) s.reg.staged
    reg.committed := kvDel (aNumLthr l) s.reg.committed }

/-- The module domain that a local domain took. -/
def domNo (doms : List (Nat × BitVec 10)) (loc : Nat) : Nat :=
  match doms.find? (fun e => e.1 == loc) with
  | some e => e.2.toNat
  | none => 0

/-- Set up a domain, held before its first step (R147, R178). -/
def State.loadDomain (s : State) (c : Nat) (im : ChoImage) (doms : List (Nat × BitVec 10)) (r : DomainRec) : State :=
  let members := ((im.tiles.filter (fun t => t.dom == r.dom)).map (fun t => t.tile)).foldl (fun l t => natAdd t l) []
  let relays := (((choRelays im).filter (fun p => p.2 == r.dom)).map Prod.fst).foldl (fun l t => natAdd t l) []
  s.setDom (domNo doms r.dom) {
    state := 1, loupe := s.rbit aDbgStatus 0, root := BitVec.ofNat 14 r.root, cho := c, locDom := r.dom, spans := r.spans
    members, routers := relays, rect := (r.x0, r.x1, r.y0, r.y1), limit := s.stallLimit }

/-- Assign a flag (R155, R202). -/
def State.loadFlag (s : State) (c : Nat) (im : ChoImage) (doms : List (Nat × BitVec 10)) (r : FlagRec) : State :=
  let waiter := fld r.desc 29 16
  let v := BitVec.ofNat 16 (fld r.desc 15 0)
  s.setFlag r.handle.toNat {
    cho := some c, dom := BitVec.ofNat 10 (domNo doms ((tileDom im waiter).getD 0)), count := v, start := v, waiter
    signallers := (flagList im r).getD [] }

/-- Assign a queue, empty (R157, R203). -/
def State.loadQueue (s : State) (c : Nat) (im : ChoImage) (doms : List (Nat × BitVec 10)) (r : QueueRec) : State :=
  let consumer := fld r.desc0 26 13
  let producers := (queueList im r).getD []
  s.setQueue r.handle.toNat {
    cho := some c, depth := fld r.desc0 11 0 + 1, gated := bit r.desc0.toNat 12, consumer, store := fld r.desc0 49 28, producers
    prodDom := BitVec.ofNat 10 (domNo doms ((tileDom im (producers.headD 0)).getD 0))
    consDom := BitVec.ofNat 10 (domNo doms ((tileDom im consumer).getD 0)) }

/-- Load an accepted choreography under a number (R147): its domains take module domain numbers, the lowest free ones
first. DESIGN CHOICE (notes/assumptions/26.md). -/
def State.choAccept (s : State) (c : Nat) (im : ChoImage) : State :=
  let doms := (im.domains.map (fun d => d.dom)).zip ((s.freeDoms).map (BitVec.ofNat 10))
  let s : State := { s with con.chos := kvSet c { image := im, doms, inst := none, released := false, started := false } s.con.chos }
  let s := im.tiles.foldl (fun s r => s.loadTile c (domNo doms r.dom) r) s
  let s := im.routers.foldl (fun s r => s.setOutp (outKey r.pos r.output)
    { cho := some c, dom := BitVec.ofNat 10 (domNo doms r.dom), table := r.table }) s
  let s := im.domains.foldl (fun s r => s.loadDomain c im doms r) s
  let s := im.flags.foldl (fun s r => s.loadFlag c im doms r) s
  let s := im.queues.foldl (fun s r => s.loadQueue c im doms r) s
  let s := im.slots.foldl State.loadSlot s
  if im.beat then
    { s with beat := { cho := some c } }
  else s

/-- What the checks of a load find in an image (R147): the lowest reason, or nothing and its records. A malformed image is
checked as far as it can be read. -/
def State.choJudge (s : State) (bs : List Byte) : Except Reject ChoImage :=
  match readCho bs with
  | none => .error (6, 0)
  | some (im, ok) =>
    match lowestReject (need ok 6 0 ++ s.choChecks im) with
    | some r => .error r
    | none => .ok im

/-- The number of the next choreography. -/
def State.choNext (s : State) : Nat := firstGap 0 (s.con.chos.map Prod.fst)

/-- Load a choreography image: whole, or refused whole (R147). The result gives its number. -/
def State.choLoad (s : State) (bs : List Byte) : State × Option Nat :=
  match s.choJudge bs with
  | .error r => (s.choReject r, none)
  | .ok im => (s.choAccept s.choNext im, some s.choNext)

/-! ### The first step (R138, R147) -/

/-- Clear a segment of a tile, if it waits for it: zero with good parity. -/
def State.clearSeg (s : State) (t g : Nat) : State :=
  let x := s.tile t
  if !x.clearing.contains g then s
  else
    let k := scrKey t (16384 * g)
    (({ s with
      wafer.scratch := memClear k 16384 s.wafer.scratch
      wafer.scratchBad := s.wafer.scratchBad.filter (fun i => !(decide (k ≤ i) && decide (i < k + 16384))) } : State).setTile t
      { x with clearing := natDel g x.clearing }).bump (aTilewSegClearCnt t)

/-- Clear the segments of a tile that wait for it, in ascending order. -/
def State.clearTile (s : State) (t : Nat) : State := (s.tile t).clearing.foldl (fun s g => s.clearSeg t g) s

/-- A load engine writes a tile's scratch: a segment that waits to be cleared is cleared first (R138, R224). -/
def State.engineLand (s : State) (t a : Nat) (bs : List Byte) : State :=
  let gs := (List.range ((a % 16384 + bs.length + 16383) / 16384)).map (fun i => a / 16384 + i)
  ((gs.foldl (fun s g => s.clearSeg t g) s).scrWrite t a bs).loupeTouch t (wrAcc a bs.length)

/-- The tiles of a choreography. -/
def choTiles (x : Cho) : List Nat := x.image.tiles.map (fun r => r.tile)

/-- Start a domain: it enters its first step, or asks its manager first (R301). A beat domain starts its first frame
(R424). -/
def State.startDom (s : State) (d : Nat) : State :=
  let y := s.dom d
  if y.state ≠ 1 then s
  else if y.spans then s.partArrive d 0
  else
    let s := s.setDom d { y with state := 2 }
    (if s.beatDom d then s.beatAnew d else s).proceed d

/-- DOMAIN_FIRST_STEP (R138, R147): the segments that change tenant are cleared, and once the choreography has been
released every domain of it enters its first step together. -/
def execDomainFirstStep (choId : Half) (s : State) : Host.Outcome State Fault Refusal :=
  match s.con.chos.find? (fun c => c.2.image.choId == choId && !c.2.started) with
  | none => .next s
  | some (c, x) =>
    let s := (choTiles x).foldl State.clearTile s
    if !x.released then .next s
    else
      let s : State := { s with con.chos := kvSet c { x with started := true } s.con.chos }
      .next ((s.choDoms c).foldl State.startDom s)

end Sys2Proof.Machine
end

