-- ==== Sys2Proof/Machine/Mesh.lean ====
section
/-! DEFINITION. The data mesh and the sync mesh (R24 to R37, R149 to R154, R191, R199, R367, R455): flits on links, lane swaps, the planes of the sync mesh, and the turns of router outputs. -/

namespace Sys2Proof.Machine

/-- Whether an event lies within a second before the clock. -/
def recentUs (now : Nat) : Option Nat → Bool
  | some c => decide (now ≤ c + 1000000)
  | none => false

/-! ### Links and their domains -/

/-- The replay domains whose turn tables use the link into an input (R28): the one of the output that feeds it, and those
of the receiving router's outputs that name the input. -/
def State.linkDoms (s : State) (pos input : Nat) : List Nat :=
  let feed := match feedOf pos input with
    | some k => if (s.outp k).cho.isSome then [(s.outp k).dom.toNat] else []
    | none => []
  let uses := (List.range 5).filterMap (fun o =>
    let x := s.outp (outKey pos o)
    if x.cho.isSome && x.table.any (fun p => p.entries.any (fun e => entInput e == input)) then some x.dom.toNat else none)
  (feed ++ uses).eraseDups

/-- Whether a domain stands at a step boundary: it is not running, waits at its barrier, or every participant has arrived
or still waits for the release. -/
def State.atBoundary (s : State) (d : Nat) : Bool :=
  let x := s.dom d
  x.state != 2 || x.waiting || x.awaitRelease || x.await == domParts x ||
    (s.tilesArrived d && (s.domUnfinished d).isEmpty && (s.domStrays d).isEmpty)

/-- Retire the link into an input (R28, R367): it is counted and recorded, and every domain that uses it stops. -/
def State.retireLink (s : State) (pos input : Nat) : State :=
  let k := linkKey pos input
  let s := (s.setLink k { s.link k with retired := true, swaps := [] }).bump aRepLinkRetireCnt
  let s := s.journal 0x17 (pack [(0, pos), (14, input)])
  (s.linkDoms pos input).foldl State.refStop s

/-- Replace the lanes that wait for it by spare lanes (R28). -/
def State.swapLanes (s : State) (pos input : Nat) : List Nat → State
  | [] => s
  | i :: r =>
    let k := linkKey pos input
    let x := s.link k
    let s := (s.setLink k { x with swapped := x.swapped ++ [i], swaps := x.swaps.filter (fun j => j != i) }).bump aRepLaneSwapCnt
    (s.journal 0x16 (pack [(0, pos), (14, input), (17, i), (24, x.swapped.length)])).swapLanes pos input r

/-! ### Parity on a link (R27, R28) -/

/-- The lane that carries byte `i` of a flit: its own, or the spare lane that last replaced it. -/
def laneOf (x : Link) (i : Nat) : Nat :=
  match (x.swapped.zip (List.range 8)).reverse.find? (fun e => e.1 == i) with
  | some e => 128 + e.2
  | none => i

/-- Count a byte that first failed on the link into an input; a lane that failed in another flit within 1 s waits to be
replaced, and with no spare lane left the link is retired. -/
def State.laneError (s : State) (pos input i : Nat) : State :=
  let k := linkKey pos input
  let x := s.link k
  let lane := laneOf x i
  let n := (kvGet 0 lane x.tally).toNat
  let again := recentUs s.clock (kvFind lane x.errAt)
  let s := (s.setLink k { x with
    tally := kvPut 0 lane (BitVec.ofNat 16 (min (n + 1) 65535)) x.tally
    errAt := kvSet lane s.clock x.errAt }).bump aRepLaneErrCnt
  if !again || x.swaps.contains i || (feedOf pos input).isNone then s
  else if 8 ≤ x.swapped.length + x.swaps.length then s.retireLink pos input
  else
    let s := s.setLink k { s.link k with swaps := x.swaps ++ [i] }
    if (s.linkDoms pos input).isEmpty then s.swapLanes pos input [i] else s

/-- A router checks an incoming flit (R27): bytes that failed without a mark are counted, and all bad bytes are marked. -/
def State.checkFlit (s : State) (pos input : Nat) (f : Flit) : State × Flit :=
  let first := f.bad.filter (fun i => !f.marks.contains i)
  (first.foldl (fun s i => s.laneError pos input i) s, { f with marks := first.foldl (fun l i => natAdd i l) f.marks })

/-- A byte that fails on a link: which value it has is not stated, a free value. -/
def spoilByte (ctr i : Nat) (f : Flit) : Flit :=
  { f with bytes := f.bytes.set i (BitVec.ofNat 8 (Config.fresh (ctr + i)).toNat), bad := natAdd i f.bad }

/-- Whether both ends of the link into an input are powered (R33, R39): its driving side and the router. -/
def State.linkOn (s : State) (pos input : Nat) : Bool :=
  s.fieldOn (fieldOf pos) &&
    (match neighbour pos input with
     | some p => s.fieldOn (fieldOf p)
     | none => true)

/-- DATA_FLIT_RECEIVE (R25, R27): the oldest flit on a link reaches the router's input, with the listed lanes failing
parity in this transfer. Nothing moves on a link with an end unpowered (R39). -/
def execDataFlitReceive (pos : TileIx) (input : BitVec 3) (badLanes : List Nat) (s : State) :
    Host.Outcome State Fault Refusal :=
  let k := linkKey pos.toNat input.toNat
  let x := s.link k
  match if s.linkOn pos.toNat input.toNat then x.wire else [] with
  | [] => .next s
  | f :: rest =>
    let failed := (List.range 128).filter (fun i => badLanes.contains (laneOf x i))
    let f := failed.foldl (fun f i => spoilByte s.freeCtr i f) f
    let s : State := { s with freeCtr := s.freeCtr + 128 }
    let r := (s.setLink k { x with wire := rest }).checkFlit pos.toNat input.toNat f
    let s := r.1
    .next (s.setLink k { s.link k with buf := (s.link k).buf ++ [r.2] })

/-- LANE_SWAP (R28): the lanes of a link that wait for it are replaced at a step boundary of every domain that uses the
link. -/
def execLaneSwap (pos : TileIx) (input : BitVec 3) (s : State) : Host.Outcome State Fault Refusal :=
  let x := s.link (linkKey pos.toNat input.toNat)
  if (s.linkDoms pos.toNat input.toNat).all (fun d => s.atBoundary d) then
    .next (s.swapLanes pos.toNat input.toNat x.swaps)
  else .next s

/-! ### The sync mesh (R29 to R31) -/

/-- The sync paths of a domain (R30, R161, R456): barrier gather and release, and its flag operations. -/
def State.domPaths (s : State) (d : Nat) : List (List Nat) :=
  let x := s.dom d
  (domParts x).flatMap (fun p => [syncPath p x.root.toNat, syncPath x.root.toNat p]) ++
  (s.con.flags.filter (fun e => e.2.cho.isSome && e.2.dom.toNat == d)).flatMap (fun e =>
    let b := syncBlock (e.1 / 4096)
    syncPath e.2.waiter b :: syncPath b e.2.waiter :: e.2.signallers.map (fun t => syncPath t b))

/-- The domains in use whose sync paths cross the link into an input. -/
def State.syncDoms (s : State) (pos input : Nat) : List Nat :=
  (s.con.doms.map Prod.fst).filter (fun d => (s.domPaths d).any (fun p => (pathInputs p).contains (linkKey pos input)))

/-- A sync flit that cannot be trusted (R30): every domain in a step whose sync paths cross the link marks its attempt. -/
def State.syncMismatch (s : State) (pos input : Nat) : State :=
  (s.syncDoms pos input).foldl (fun s d =>
    if (s.dom d).state = 2 ∧ !(s.dom d).waiting then s.setDom d { s.dom d with mark := true } else s)
    (s.bump aRepSyncMismatchCnt)

/-- Bad parity on one plane while both are in use (R30): counted; the second within 1 s marks the plane failed. -/
def State.planeError (s : State) (pos input : Nat) (planeB : Bool) : State :=
  let k := linkKey pos input
  let x := s.link k
  let again := recentUs s.clock (if planeB then x.bErrAt else x.aErrAt)
  let x := if planeB then { x with bErrAt := some s.clock, bFailed := again } else { x with aErrAt := some s.clock, aFailed := again }
  let s := (s.setLink k x).bump aRepSyncPlaneErrCnt
  if again then s.journal 0x18 (pack [(0, pos), (14, input), (17, b2n planeB)]) else s

/-- Bad parity on the surviving plane (R30): a mismatch; the second within 1 s retires the sync link, and every domain
whose sync paths cross it stops. A bad flit of this plane from before the other was marked failed counts as the first of the
two. DESIGN CHOICE (notes/assumptions/156.md). -/
def State.survivorError (s : State) (pos input : Nat) (planeB : Bool) : State :=
  let k := linkKey pos input
  let x := s.link k
  let again := recentUs s.clock (if planeB then x.bErrAt else x.aErrAt)
  let x := if planeB then { x with bErrAt := some s.clock } else { x with aErrAt := some s.clock }
  let s := (s.setLink k { x with syncRetired := again }).syncMismatch pos input
  if again then
    let s := (s.bump aRepLinkRetireCnt).journal 0x17 (pack [(0, pos), (14, input), (syncMark, 1)])
    (s.syncDoms pos input).foldl State.refStop s
  else s

/-- The number of ones of a byte. -/
def ones8 (n : Nat) : Nat := ((List.range 8).filter (fun i => n.testBit i)).length

/-- Whether a sync flit has good parity (R29): each byte with its parity bit holds an odd number of ones. -/
def syncGood (f : SyncFlit) : Bool :=
  (List.range 4).all (fun i => (ones8 (bits f.word.toNat (8 * i + 7) (8 * i)) + b2n (f.par.getLsbD i)) % 2 == 1)

/-- SYNC_FLIT_RECEIVE (R30): a sync receiver compares the two planes of a flit. -/
def execSyncFlitReceive (pos : TileIx) (input : BitVec 3) (rx : SyncRx) (s : State) : Host.Outcome State Fault Refusal :=
  let p := pos.toNat
  let i := input.toNat
  let x := s.link (linkKey p i)
  if x.syncRetired || !s.linkOn p i then .next s
  else if x.aFailed then .next (if (syncGood rx.b) then s else s.survivorError p i true)
  else if x.bFailed then .next (if (syncGood rx.a) then s else s.survivorError p i false)
  else if (syncGood rx.a) && (syncGood rx.b) then .next (if rx.a.word == rx.b.word then s else s.syncMismatch p i)
  else if !(syncGood rx.a) && !(syncGood rx.b) then .next (s.syncMismatch p i)
  else .next (s.planeError p i (syncGood rx.a))

/-! ### Turns (R149 to R153) -/

/-- Store where an output stands. The base schedule begins again after its last phase. DEDUCED
(notes/assumptions/27.md). -/
def State.putOut (s : State) (k : Nat) (o : Output) : State :=
  if o.cho.isSome then s.setOutp k o else s.setOutp k { (if outDone o then outReset o else o) with table := [] }

/-- Take the first flit from an input. A tile whose SEND has offered its last flit goes on (R191); a flit that leaves a
port's receive buffer frees a credit (R279). -/
def State.takeInput (s : State) (pos input : Nat) : State :=
  if input = 4 then
    let x := s.tile pos
    let rest := x.outbox.drop 1
    if rest.isEmpty && x.wait == .sending then (s.setTile pos { x with outbox := rest, wait := .no }).retire pos
    else s.setTile pos { x with outbox := rest }
  else
    match tensorPortAt pos input with
    | some t => s.setPort t { s.port t with mesh := (s.port t).mesh.drop 1, freed := (s.port t).freed + 1 }
    | none =>
      let k := linkKey pos input
      s.setLink k { s.link k with buf := (s.link k).buf.drop 1 }

/-- Deliver a flit to a tile by DEL: to its RECV, into a queue, or to its oldest outstanding read (R190, R191). -/
def State.tileDeliver (s : State) (pos : Nat) (e : BitVec 32) (f : Flit) : State :=
  match entDel e with
  | 0 => match (s.tile pos).wait with
    | .recv a n =>
      let s := s.flitLand pos a f
      if n ≤ 1 then (s.setTile pos { s.tile pos with wait := .no }).retire pos
      else s.setTile pos { s.tile pos with wait := .recv (a + 128) (n - 1) }
    | _ => s
  | 1 => match s.entQueue pos e with
    | some h =>
      let q := s.queue h
      ((s.flitLand pos (queueSlot q q.tail) f).setQueue h (queuePush q)).beatNote f.beat (.tail h 1)
    | none => s
  | _ => match (s.tile pos).reads with
    | r :: rest =>
      let s := s.flitLand pos r.addr f
      s.setTile pos { s.tile pos with
        reads := if r.left ≤ 1 then rest else { addr := r.addr + 128, left := r.left - 1 } :: rest }
    | [] => s

/-- Send a flit out of an output. A tensor port discards what is not part of a remote operation (R455), and an operation that
leaves by it holds an entry of its edge group (R290). -/
def State.outSend (s : State) (pos output : Nat) (e : BitVec 32) (f : Flit) : State :=
  if output = 4 then
    if tileKind pos != 3 then s.tileDeliver pos e f
    else match stackAt pos with
      | some k => s.stackFlit k f
      | none => s
  else
    match neighbour pos output with
    | some p =>
      let k := linkKey p (opposite output)
      s.setLink k { s.link k with wire := (s.link k).wire ++ [f] }
    | none =>
      match tensorPortAt pos output with
      | some t =>
        if f.kind == .plain then s.bump aFabMisrouteCnt
        else
          let r := s.tagMove t f
          r.1.setPort t { r.1.port t with tx := (r.1.port t).tx ++ [r.2] }
      | none => s

/-- Loupe's check 5 at a flit (R175): a flit of a tile delivered to a tile or queue that no flow record pairs with it. -/
def State.flowBad (s : State) (pos output : Nat) (e : BitVec 32) (f : Flit) : Bool :=
  let o := s.outp (outKey pos output)
  if output ≠ 4 ∨ tileKind pos = 3 ∨ 1 < entDel e ∨ !(s.dom o.dom.toNat).loupe then false
  else
    let q := match entDel e with
      | 1 => (s.entQueue pos e).getD 0xFFFF
      | _ => 0xFFFF
    match o.cho.bind s.choOf with
    | some c => !c.image.flows.any (fun r => r.src == f.src && r.dst == pos && r.queue.toNat == q)
    | none => false

/-- Loupe's check 2 at a flit (R175): a flit that would land on a byte its tile has read in the step, in the buffer of a RECV
or of an outstanding read. Queue slots are step-safe without it (R168). -/
def State.landBad (s : State) (pos output : Nat) (e : BitVec 32) : Option Nat :=
  if output ≠ 4 ∨ tileKind pos = 3 then none
  else
    match entDel e, (s.tile pos).wait, (s.tile pos).reads with
    | 0, .recv a _, _ => s.readInStep pos a 128
    | 2, _, r :: _ => s.readInStep pos r.addr 128
    | _, _, _ => none

/-- Move one flit of a turn out of every output of its set; none when it must wait. -/
def State.turnMove (s : State) (pos output : Nat) (e : BitVec 32) : Option State :=
  let set := turnSet output e
  match s.portInputFlits pos (entInput e) with
  | [] => none
  | f :: _ =>
    if !set.all (fun p => s.turnMatches pos output p e && s.outTakes pos p (s.entAt pos p) f) then none
    else
      match set.find? (fun p => s.flowBad pos p (s.entAt pos p) f) with
      | some p => some (s.hazard 5 pos (s.outp (outKey pos p)).dom.toNat 3 (turnAddr (outKey pos p) (s.outNow (outKey pos p))))
      | none =>
      match set.findSome? (fun p => s.landBad pos p (s.entAt pos p)) with
      | some b => some (s.scratchHazard 2 pos b)
      | none =>
        let s := s.takeInput pos (entInput e)
        let r := if entInput e = 4 ∨ (tensorPortAt pos (entInput e)).isSome then s.checkFlit pos (entInput e) f else (s, f)
        some (set.foldl (fun s p =>
          let k := outKey pos p
          let o := s.outNow k
          let x := s.entAt pos p
          let s := (s.beatNote f.beat (.out k o.phase o.rep o.entry o.moved)).progressOut o
          (s.putOut k { o with moved := o.moved + 1 }).outSend pos p x r.2) r.1)

/-- Move up to `n` flits of a turn; true when all have gone. -/
def State.turnMany (s : State) (pos output : Nat) (e : BitVec 32) : Nat → State × Bool
  | 0 => (s, true)
  | n + 1 => match s.turnMove pos output e with
    | none => (s, false)
    | some t => t.turnMany pos output e n

/-- ROUTER_OUTPUT_TURN (R149 to R153): an output carries what it can of its current entry; a FIXED entry waits for its
last flit, an OPEN entry ends once its input holds none (R151). -/
def execRouterOutputTurn (pos : TileIx) (output : BitVec 3) (s : State) : Host.Outcome State Fault Refusal :=
  let p := pos.toNat
  let k := outKey p output.toNat
  let o := s.outNow k
  match outEntry o with
  | none => .next s
  | some e =>
    if !s.outRuns k then .next s
    else
      let r := s.turnMany p output.toNat e (entCount e - o.moved)
      let s := r.1
      if r.2 || (entOpen e && s.outRuns k && (s.portInputFlits p (entInput e)).isEmpty) then
        .next (((turnSet output.toNat e).filter (fun q => s.turnMatches p output.toNat q e)).foldl (fun s q =>
          s.putOut (outKey p q) (outAdvance (s.outNow (outKey p q)))) s)
      else .next s

end Sys2Proof.Machine
end

