-- ==== Sys2Proof/Machine/BeatMode.lean ====
section
/-! DEFINITION. Beat mode (R424 to R428, R430): the horizon, reports, commits of beats and frames, and replays of beats. -/

namespace Sys2Proof.Machine

/-- The domain of the loaded beat choreography. -/
def State.beatDomain (s : State) : Option Nat :=
  match s.beat.cho with
  | some c => (s.choDoms c).head?
  | none => none

/-- The tiles that wait at the horizon start their next beat where H allows it (R424). -/
def State.beatRelease (s : State) (ts : List Nat) : State :=
  ts.foldl (fun s t =>
    if kvFind t s.beat.hold == some false && decide (kvGet 0 t s.beat.done + 1 ≤ s.beat.horizon) then
      { s.setTile t { s.tile t with wait := .no } with beat.hold := kvDel t s.beat.hold }
    else s) s

/-- A beat has a marked attempt (R428): it is replayed, or aborted after the third. Repairs are held for at the rewind point
(R430), and a tile without arrays retires there. -/
def State.beatMarked (s : State) (d b : Nat) : State :=
  let n := if s.beat.markedAt = b then s.beat.attempt + 1 else 1
  let s := s.beatRestore d b
  let s : State := { s with beat.markedAt := b, beat.attempt := n }
  if 3 ≤ n then (({ s with beat.attempt := 0 } : State).abortStop d).traceDom d 2
  else
    let s := ((s.bump aChoReplayCnt).bump aBeatReplayCnt).setDom d { s.dom d with attempt := BitVec.ofNat 2 n }
    let s := s.traceDom d 2
    let x := s.dom d
    match x.members.filter (fun t => (s.tile t).exhausted) with
    | t :: _ => s.retireTile t 4
    | [] => if !x.repairTiles.isEmpty || !x.repairArrays.isEmpty then s.holdFor d else s.beatRelease x.members

/-- The last beat of a frame has committed (R426): the frame commits as a step does, and the next one starts once its
conditions hold. -/
def State.frameCommit (s : State) (d : Nat) : State :=
  let s := s.bump aBeatFrameCnt
  let x := s.dom d
  match x.members.filter (fun t => (s.tile t).exhausted) with
  | t :: _ => (s.commitDom d).1.retireTile t 4
  | [] =>
    if x.repairTiles.isEmpty && x.repairArrays.isEmpty then s.commitAct d
    else
      let r := s.commitDom d
      if r.2 then (r.1.stopDom d 6).traceDom d 2 else r.1.holdFor d

/-- Commit the beats that every tile has reported complete (R424). A frame end is the last beat that can commit. -/
def State.beatCommit (s : State) (d : Nat) : Nat → State
  | 0 => s
  | n + 1 =>
    let ts := (s.dom d).members
    let b := s.beat.committed + 1
    if ts.isEmpty || !ts.all (fun t => decide (b ≤ kvGet 0 t s.beat.reported)) then s
    else
      let frame := !(kvGet [] b s.beat.ends).isEmpty
      let s := (s.bump aBeatBeatCnt).setDom d { s.dom d with attempt := 0 }
      let s : State := { s with
        beat.committed := b
        beat.snaps := s.beat.snaps.map (fun e => (e.1, e.2.drop 1))
        beat.log := s.beat.log.filter (fun e => decide (b < e.1))
        beat.ends := kvDel b s.beat.ends }
      if frame then s.frameCommit d else s.beatCommit d n

/-- HORIZON_ADVANCE (R424, R427): at the end of a beat period the root raises H by one once every tile has reported the
beat 64 before it; else H stands still and the period is counted as stretched. -/
def execHorizonAdvance (s : State) : Host.Outcome State Fault Refusal :=
  match s.beatDomain with
  | none => .next s
  | some d =>
    let x := s.dom d
    if x.state ≠ 2 then .next s
    else if x.mark then .next (s.beatMarked d (s.beat.committed + 1))
    else
      let b := s.beat.horizon + 1
      if x.members.all (fun t => decide (b ≤ kvGet 0 t s.beat.reported + 64)) then
        .next (({ s with beat.horizon := b, beat.stretching := false } : State).beatRelease x.members)
      else
        let s := if s.beat.stretching then s else s.bump aBeatStretchCnt
        .next (({ s with beat.stretching := true } : State).bump aBeatStretchPeriodCnt)

/-- BEAT_REPORT (R424, R426, R428): a tile's oldest report reaches the root. A frame end at a beat where another tile has
none aborts the frame; a mark replays the beat, one on the domain (R30) the first beat not committed; else the beats that are
complete commit. -/
def execBeatReport (tile : TileIx) (s : State) : Host.Outcome State Fault Refusal :=
  let t := tile.toNat
  match s.beatDomain, kvGet [] t s.beat.reports with
  | some d, (mark, ends) :: rest =>
    let x := s.dom d
    if x.state ≠ 2 then .next s
    else
      let n := kvGet 0 t s.beat.reported + 1
      let peers := x.members.filter (fun u => u != t && decide (n ≤ kvGet 0 u s.beat.reported))
      let there := kvGet [] n s.beat.ends
      let s : State := { s with
        beat.reports := kvPut [] t rest s.beat.reports
        beat.reported := kvPut 0 t n s.beat.reported
        beat.ends := if ends then kvPut [] n (natAdd t there) s.beat.ends else s.beat.ends }
      if peers.any (fun u => there.contains u != ends) then .next ((s.abortDom d).traceDom d 2)
      else if mark then .next (s.beatMarked d n)
      else if x.mark then .next (s.beatMarked d (s.beat.committed + 1))
      else .next (s.beatCommit d 64)
  | _, _ => .next s

end Sys2Proof.Machine
end

