-- ==== Sys2Proof/Machine/Quantise.lean ====
section
/-! DEFINITION. What a load engine makes of a shard (R95, R96, R103, R214, R222): element values, column scales, codes, outlier lists, column sums, and shadow records. -/

namespace Sys2Proof.Machine

/-! ### Shard records (R221) -/

def shLength (r : List Word) : Nat := recFld r 1 39 0
def shFormat (r : List Word) : Nat := recFld r 1 43 40
def shComp (r : List Word) : Nat := recFld r 1 45 44
/-- Whether a shard's data lies in host memory (R221). -/
def shHost (r : List Word) : Bool := !bit (wordAt r 1).toNat 46
def shRb (r : List Word) : Nat := recFld r 2 7 0 + 1
def shCb (r : List Word) : Nat := recFld r 2 15 8 + 1
def shSlot (r : List Word) : Nat := recFld r 2 27 16
def shKappa (r : List Word) : Nat := recFld r 2 43 28
def shCw (r : List Word) : Nat := recFld r 2 54 44
def shEngine (r : List Word) : Nat := recFld r 2 57 55
def shOffset (r : List Word) : Nat := recFld r 4 47 0
/-- Rows of a shard. -/
def shRows (r : List Word) : Nat := 512 * shRb r
/-- Columns of a shard. -/
def shCols (r : List Word) : Nat := 512 * shCb r

/-- The bytes of a shard's data after decompression (R222). -/
def shBytes (r : List Word) : Nat :=
  let n := shRows r * shCols r
  match shFormat r with
  | 0 => 2 * n
  | 1 | 2 => n + 4 * shCols r
  | 3 => n / 2 + 2 * shCols r
  | _ => n / 32 * 33

/-! ### Scales (R95) -/

/-- Significand and exponent of a positive FP16 pattern. -/
def fp16Parts (b : Nat) : Nat × Int := if b / 1024 = 0 then (b % 1024, -24) else (1024 + b % 1024, (b / 1024 : Nat) - 25)

/-- Whether the value of a positive FP16 pattern is below n × 2^e / 7. -/
def fp16Below (n : Nat) (e : Int) (b : Nat) : Bool :=
  let p := fp16Parts b
  if p.2 ≤ e then decide (7 * p.1 < n * 2 ^ (e - p.2).toNat) else decide (7 * p.1 * 2 ^ (p.2 - e).toNat < n)

/-- The largest finite pattern below n × 2^e / 7, found from its top bit down. -/
def fp16Search (n : Nat) (e : Int) : Nat → Nat → Nat
  | 0, b => b
  | i + 1, b =>
    let c := b + 2 ^ i
    fp16Search n e i (if c ≤ 0x7BFF && fp16Below n e c then c else b)

/-- The smallest FP16 that is at least n × 2^e / 7; none beyond 65,504. -/
def fp16Up (n : Nat) (e : Int) : Option Nat :=
  if n = 0 then some 0 else if fp16Below n e 0x7BFF then none else some (fp16Search n e 15 0 + 1)

/-- round_half_even(v / SCALE) for a scale pattern that is not zero. -/
def quotient (v : Fv) (scale : Nat) : Int :=
  let p := fp16Parts scale
  match v with
  | .fin neg m e =>
    let num := m * 2 ^ (e - p.2).toNat
    let den := p.1 * 2 ^ (p.2 - e).toNat
    let k := num / den
    let r := num % den
    let q : Nat := if 2 * r < den then k else if den < 2 * r then k + 1 else k + k % 2
    if neg then -(q : Int) else q
  | _ => 0

/-! ### Elements (R222) -/

/-- The value of an FP8 E4M3 byte. -/
def fp8Val (b : Nat) : Fv :=
  let n := b.testBit 7
  let ex := b / 8 % 16
  let fr := b % 8
  if ex = 15 ∧ fr = 7 then .nan
  else if ex = 0 then .fin n fr (-9)
  else .fin n (8 + fr) ((ex : Int) - 10)

/-- `n` bytes of an array as a number. -/
def arrLe (a : Array Byte) (i : Nat) : Nat → Nat
  | 0 => 0
  | n + 1 => (a.getD i 0).toNat + 256 * arrLe a (i + 1) n

/-- The source value of element (r, c), exact: a product with a column scale is not rounded. DEDUCED
(notes/assumptions/169.md). -/
def shardVal (rec : List Word) (a : Array Byte) (r c : Nat) : Fv :=
  let n := shCols rec
  let i := r * n + c
  match shFormat rec with
  | 0 => fdec bf16 (arrLe a (2 * i) 2)
  | 1 => fmul (fp8Val (a.getD i 0).toNat) (fdec fp32 (arrLe a (shRows rec * n + 4 * c) 4))
  | 2 => fmul (fofInt (a.getD i 0).toInt) (fdec fp32 (arrLe a (shRows rec * n + 4 * c) 4))
  | _ => .fin false 0 0

/-- Whether a value is finite. -/
def isFin : Fv → Bool
  | .fin _ _ _ => true
  | _ => false

/-- The largest magnitude of a column; none when a value is not finite. -/
def colMax (rec : List Word) (a : Array Byte) (c : Nat) : Nat → Option Fv
  | 0 => some (.fin false 0 0)
  | r + 1 =>
    let v := shardVal rec a r c
    match colMax rec a c r with
    | none => none
    | some m => if isFin v then some (if fless m (fabs v) then fabs v else m) else none

/-- SCALE of a column as an FP16 pattern; none for SCALE_RANGE. A W4S shard's scales are taken as given. -/
def colScale (rec : List Word) (a : Array Byte) (c : Nat) : Option Nat :=
  if shFormat rec = 3 then some (arrLe a (shRows rec * shCols rec / 2 + 2 * c) 2)
  else
    match colMax rec a c (shRows rec) with
    | some (.fin _ m e) =>
      let k := fp16Parts (shKappa rec)
      fp16Up (k.1 * m) (k.2 + e)
    | _ => none

/-- The rounded quotient of element (r, c) before the split of R95; a W4S code as given. -/
def shardCode (rec : List Word) (a : Array Byte) (scale : Nat) (r c : Nat) : Int :=
  if shFormat rec = 3 then
    let i := r * shCols rec + c
    sext 4 ((a.getD (i / 2) 0).toNat / 16 ^ (i % 2) % 16)
  else if scale = 0 then 0
  else quotient (shardVal rec a r c) scale

/-! ### Blocks (R95, R96, R103) -/

/-- One 512 × 512 block: scale patterns, column sums, weight entries, codes in row order, and the outliers that found no
entry. -/
structure WBlock where
  scales  : List Nat
  ksums   : List Int
  entries : List Nat
  codes   : List Int
  excess  : Nat
  deriving DecidableEq, Repr

/-- Split quotients into codes and weight entries, in index order: entries while `room` lasts, then clamped codes. -/
def splitCodes : Nat → Nat → List Int → List Int × List Nat × Nat
  | _, _, [] => ([], [], 0)
  | i, room, q :: rest =>
    if -7 ≤ q ∧ q ≤ 7 then
      let r := splitCodes (i + 1) room rest
      (q :: r.1, r.2)
    else if room = 0 then
      let r := splitCodes (i + 1) 0 rest
      ((if q < 0 then -7 else 7) :: r.1, r.2.1, r.2.2 + 1)
    else
      let r := splitCodes (i + 1) (room - 1) rest
      let v := (max (-127) (min 127 q) % 256).toNat
      (0 :: r.1, pack [(0, i / 512), (9, i % 512), (18, v)] :: r.2.1, r.2.2)

/-- The column sums of 512 × 512 codes. -/
def colSums (codes : List Int) : List Int :=
  let a := codes.toArray
  (List.range 512).map (fun c => (List.range 512).foldl (fun k r => k + a.getD (512 * r + c) 0) 0)

/-- Block (br, bc) of a shard; none for SCALE_RANGE. -/
def quantBlock (rec : List Word) (a : Array Byte) (br bc : Nat) : Option WBlock :=
  let scales := (List.range 512).map (fun c => colScale rec a (512 * bc + c))
  if scales.any Option.isNone then none
  else
    let sc := (scales.map (fun x => x.getD 0)).toArray
    let qs := (List.range (512 * 512)).map (fun i =>
      shardCode rec a (sc.getD (i % 512) 0) (512 * br + i / 512) (512 * bc + i % 512))
    let r := splitCodes 0 (shCw rec) qs
    some { scales := sc.toList, ksums := colSums r.1, entries := r.2.1, codes := r.1, excess := r.2.2 }

/-- Every block of a shard in placement order; none for SCALE_RANGE. -/
def quantShard (rec : List Word) (bytes : List Byte) : Option (List WBlock) :=
  let a := bytes.toArray
  let l := (List.range (shRb rec * shCb rec)).map (fun i => quantBlock rec a (i / shCb rec) (i % shCb rec))
  if l.any Option.isNone then none else some (l.filterMap id)

/-! ### Shadow records (R214) -/

/-- The bytes of a shadow record. -/
def recordBytes (place : Word) (inst gen tenant : Nat) (rec : List Word) (b : WBlock) : List Byte :=
  natLe 8 place.toNat ++
  natLe 8 (pack [(0, inst), (16, gen), (32, shSlot rec), (44, tenant)]) ++
  natLe 8 (pack [(0, shKappa rec), (16, shCw rec)]) ++
  List.replicate 2024 0 ++
  b.scales.flatMap (natLe 2) ++
  b.ksums.flatMap (fun k => natLe 2 (k % 65536).toNat) ++
  b.entries.flatMap (natLe 4) ++ List.replicate (4096 - 4 * b.entries.length) 0 ++
  packNibbles b.codes

/-! ### Compressed shards (R223) -/

/-- The blocks of a frame after its header: the bytes it holds as far as they are raw or repeated, whether some are compressed,
and what follows the last block. -/
def zBlocks : Nat → List Byte → Option (List Byte × Bool × List Byte)
  | 0, _ => none
  | fuel + 1, bs =>
    let h := leNat (bs.take 3)
    let size := h / 8
    let body := if h / 2 % 4 = 1 then 1 else size
    let rest := bs.drop 3
    if bs.length < 3 + body ∨ h / 2 % 4 = 3 ∨ 131072 < size then none
    else
      let out := match h / 2 % 4 with
        | 0 => rest.take size
        | 1 => List.replicate size (rest.headD 0)
        | _ => []
      let packed := h / 2 % 4 == 2
      if h % 2 = 1 then some (out, packed, rest.drop body)
      else (zBlocks fuel (rest.drop body)).map (fun r => (out ++ r.1, packed || r.2.1, r.2.2))

/-- The content of a Zstandard frame: none when it breaks the limits of R223 or does not decode. `inner` is the content where
blocks are compressed. PRESUMED (notes/assumptions/165.md): the frame and block headers of RFC 8878. -/
def zFrame (bs : List Byte) (inner : Option (List Byte)) : Option (List Byte) :=
  let h := (bs.getD 4 0).toNat
  let single := h / 32 % 2 == 1
  let at_ := if single then 5 else 6
  let idLen := match h % 4 with
    | 0 => 0
    | 1 => 1
    | 2 => 2
    | _ => 4
  let sizeLen := match h / 64 with
    | 0 => b2n single
    | 1 => 2
    | 2 => 4
    | _ => 8
  let win := (bs.getD 5 0).toNat
  let size := leNat ((bs.drop (at_ + idLen)).take sizeLen) + (if sizeLen = 2 then 256 else 0)
  let window := if single then size else 2 ^ (10 + win / 8) + 2 ^ (10 + win / 8) / 8 * (win % 8)
  if leNat (bs.take 4) ≠ 0xFD2FB528 ∨ h / 8 % 2 = 1 ∨ leNat ((bs.drop at_).take idLen) ≠ 0 ∨ 8388608 < window then none
  else
    match zBlocks bs.length (bs.drop (at_ + idLen + sizeLen)) with
    | none => none
    | some (out, packed, rest) =>
      let content := if packed then inner else some out
      match content with
      | none => none
      | some c =>
        if rest.length ≠ (if h / 4 % 2 = 1 then 4 else 0) ∨ (sizeLen ≠ 0 ∧ c.length ≠ size) then none else some c

/-! ### Adapters (R109, R227) -/

/-- The values of an adapter shard in row order. -/
def adapterVals (rec : List Word) (bytes : List Byte) : List Fv :=
  let a := bytes.toArray
  if shFormat rec = 3 then
    (List.range (shRows rec * shCols rec)).map (fun i =>
      fmul (fofInt (shardCode rec a 1 (i / shCols rec) (i % shCols rec)))
        (fdec fp16 (arrLe a (shRows rec * shCols rec / 2 + 2 * (i % shCols rec)) 2)))
  else (List.range (shRows rec * shCols rec)).map (fun i => shardVal rec a (i / shCols rec) (i % shCols rec))

/-- The A8B blocks of an adapter shard, then their residual blocks, all zero; none when a value is not finite. The place of
the residuals is a DESIGN CHOICE (notes/assumptions/30.md), and so is that this encoding counts no block of R90
(notes/assumptions/164.md). -/
def adapterBytes (rec : List Word) (bytes : List Byte) : Option (List Byte) :=
  let n := shRows rec * shCols rec / 32
  if shFormat rec = 4 then some ((chunks 33 n bytes).flatMap (blkClean true) ++ List.replicate (32 * n) 0)
  else
    let vs := adapterVals rec bytes
    if vs.all isFin then some (runBytes true (encodeRun true vs) ++ List.replicate (32 * n) 0) else none

/-- The bytes an adapter shard occupies. -/
def adapterLen (rec : List Word) : Nat := 65 * (shRows rec * shCols rec / 32)

end Sys2Proof.Machine
end

