-- ==== Sys2Proof/Machine/Programming.lean ====
section
/-! DEFINITION. Programming arrays (R75 to R79, R214, R215): what ends a program-and-verify loop, and what follows a failure. -/

namespace Sys2Proof.Machine


/-! ### After a loop (R75, R77) -/

/-- A spare has been programmed: it takes its array's place now, or at the next step boundary of its domain; a hold that waits
for it may end. -/
def State.spareDone (s : State) (t q old : Nat) : State :=
  let s := s.setArray t q { s.arrayRec t q with standIn := some old }
  if (s.tile t).dom.isNone then s.bindSpare t old q
  else if s.tileInStep t then s
  else (s.bindSpares (s.domOf t)).holdCheck (s.domOf t)

/-- The tile has no array left to program (R365): it retires now, or at the boundary when its domain is in a step. -/
def State.tileLost (s : State) (t : Nat) : State := if s.tileInStep t then s.exhaustTile t else s.retireTile t 4

/-- An array that cannot be programmed, or has failed, is retired and its spare is programmed from the record it was to take
(R77, R79); with no spare left the tile is lost. -/
def State.replaceArray (s : State) (t p cause : Nat) (want : Option (Nat × BitVec 10)) : State :=
  let x := s.arrayRec t p
  if x.bound && (s.spareArray t).isSome then s.retireFor t p cause want
  else
    let s := (s.setArray t p { x with state := 4, suspect := none, recheck := false }).testDone t p
    ((s.bump aRepArrayRetireCnt).journal 0x10 (pack [(0, t), (14, p), (19, cause)])).tileLost t

/-- An array that failed its loop (R77). -/
def State.progFailed (s : State) (t p : Nat) (r : ProgReq) : State :=
  let s := s.bump (aCimwProgFailCnt t)
  let d := s.domOf t
  let s := if (s.tile t).dom.isSome then
      s.setDom d { s.dom d with repairArrays := (s.dom d).repairArrays.filter (fun e => e != (t, p)) }
    else s
  s.replaceArray t p 4 (some (r.record, r.inst))

/-- Drop the programming that an instance waits for: the spares it was asked for take their arrays' places unprogrammed. -/
def State.progDrop (s : State) (i : Nat) : State :=
  let gone := s.arr.waiting.filter (fun r => r.inst.toNat == i)
  let s : State := { s with arr.waiting := s.arr.waiting.filter (fun r => r.inst.toNat != i) }
  gone.foldl (fun s r => match r.why with
    | .spare old =>
      let s := s.setArray r.tile r.p { s.arrayRec r.tile r.p with state := 2 }
      (s.spareReady r.tile r.p old).holdCheck (s.domOf r.tile)
    | _ => s) s

/-- The running request of an array. -/
def State.progOf (s : State) (t p : Nat) : Option ProgReq := s.arr.running.find? (fun r => r.tile == t && r.p == p)

/-- Take a request out of the running ones; the next waiting one starts. -/
def State.progEnd (s : State) (t p : Nat) : State :=
  ({ s with arr.running := s.arr.running.filter (fun r => !(r.tile == t && r.p == p)) } : State).progPump

/-- ARRAY_PROGRAM_DONE (R75, R77, R79, R82): the program-and-verify loop of an array ends. On success the array holds the
weights of its shadow record; an array whose instance is no longer loaded is orphaned (R239). -/
def execArrayProgramDone (tile : TileIx) (p : BitVec 5) (ok : Bool) (s : State) : Host.Outcome State Fault Refusal :=
  let t := tile.toNat
  match s.progOf t p.toNat with
  | none => .next s
  | some r =>
    if r.why == .erase then .next s
    else
      let s := s.progEnd t p.toNat
      if !ok then .next (s.progFailed t p.toNat r)
      else
        let w := wordsOf (r.slot.take 24)
        let x := s.arrayRec t p.toNat
        let s := s.putWeights t p.toNat r.slot
        let loaded := (s.inst r.inst.toNat).state != 0
        let s := s.setArray t p.toNat { x with
          state := if loaded then 0 else 5, suspect := none, recheck := false, cycles := x.cycles + 100
          verify := BitVec.ofNat 32 s.calendar, tenant := BitVec.ofNat 8 (recFld w 1 51 44)
          inst := BitVec.ofNat 10 (recFld w 1 9 0), gen := BitVec.ofNat 16 (recFld w 1 31 16)
          lslot := BitVec.ofNat 12 (recFld w 1 43 32) }
        let s := (s.bump (aCimwProgCnt t)).journal 0x01
          (pack [(0, t), (14, p.toNat), (19, recFld w 1 9 0), (29, recFld w 1 31 16)])
        match r.why with
        | .spare old =>
          let l := (s.arrayRec t old).logical.toNat
          .next ((s.spareDone t p.toNat old).jobArrayDone r.inst.toNat t l (recFld w 1 31 16) true)
        | _ => .next (s.jobArrayDone r.inst.toNat t x.logical.toNat (recFld w 1 31 16) true)

end Sys2Proof.Machine
end

