-- ==== Sys2Proof/Machine/LoadJobs.lean ====
section
/-! DEFINITION. Load jobs (R216 to R241): the checks of a descriptor, shard failures, the promenade, rollback, parking, unloading and purging, as operations that the commands of Machine/Loading.lean share. -/

namespace Sys2Proof.Machine

/-! ### The checks of a descriptor (R219 to R224, R228, R241) -/

/-- Whether a descriptor is malformed (R219, R220): an unknown OP, a reserved bit, an unused field that is not zero, or a value
out of range. POLICY, SEQ and MODE belong to REPLACE; GEN, and the choreography fields, to the operations that install them.
DEDUCED (notes/assumptions/31.md). -/
def descBad (d : List Word) : Bool :=
  let op := descOp d
  let lists := op == 1 || op == 2 || op == 3 || op == 7 || op == 8
  op == 0 || decide (8 < op) ||
  recFld d 0 15 11 != 0 || recFld d 0 47 34 != 0 || recFld d 3 63 49 != 0 || recFld d 5 63 33 != 0 ||
  recFld d 6 63 48 != 0 || recFld d 8 31 25 != 0 || ((d.drop 9).take 7).any (fun w => w != 0) ||
  (op != 2 && recFld d 0 10 8 != 0) || (op != 1 && op != 2 && descGen d != 0) ||
  (!lists && (wordAt d 2 != 0 || wordAt d 3 != 0)) ||
  (op != 1 && (wordAt d 4 != 0 || wordAt d 5 != 0 || wordAt d 7 != 0 || recFld d 8 5 0 != 0 || recFld d 8 63 32 != 0)) ||
  (op == 1 && recFld d 5 31 0 == 0 && (wordAt d 4 != 0 || wordAt d 5 != 0)) ||
  (op == 1 && recFld d 5 31 0 != 0 && recFld d 8 63 32 != 0) ||
  (op != 1 && op != 2 && op != 7 && op != 8 && descShadow d != 0) ||
  (op != 7 && op != 8 && descObject d != 0) || (op == 8 && decide (63 < descObject d)) ||
  (op != 7 && descRank d != 0) || (op == 7 && (descRank d == 0 || decide (64 < descRank d))) ||
  decide (65536 < descShards d) || (recFld d 3 47 32 != 0 && (decide (recFld d 3 47 32 < 10) || decide (10000 < recFld d 3 47 32))) ||
  descShadow d % 65536 != 0

/-- Whether a shard record is malformed for an operation (R221). -/
def shardBad (op : Nat) (r : List Word) : Bool :=
  let object := op == 7 || op == 8
  recFld r 1 63 47 != 0 || shLength r == 0 || decide (2 ^ 32 < shLength r) || decide (1 < shComp r) ||
  decide ((if object then 4 else 3) < shFormat r) || recFld r 2 63 58 != 0 || decide (1024 < shCw r) ||
  decide (6 < shEngine r) || (!object && (decide (shKappa r < 0x3000) || decide (0x3C00 < shKappa r))) ||
  (object && wordAt r 3 != 0) || (!object && shOffset r != 0) || recFld r 4 63 48 != 0 ||
  ((r.drop 5).take 3).any (fun w => w != 0)

/-- Fields of a placement entry (R224). -/
def plTile (w : Word) : Nat := fld w 13 0
def plArr (w : Word) : Nat := fld w 17 14
def plPos (w : Word) : Nat := fld w 21 18
def plSide (w : Word) : Nat := fld w 43 22

/-- Whether a shard's placement list is malformed: its length, a reserved bit, or scales or a weight list outside the vector
tile's allocatable scratch (R112). DEDUCED (notes/assumptions/154.md). -/
def placeBad (r : List Word) (l : List Word) : Bool :=
  l.length != shRb r * shCb r || l.any (fun w => fld w 63 44 != 0 || decide (plSide w < 0x10000) ||
    decide (2 ^ 22 < plSide w + 1024 + 4 * shCw r * (plPos w + 1)))

/-- The placement entries of a job's shards in list order, numbered by k. -/
def placedOf (shards : List (List Word)) (lists : List (List Word)) : List Placed :=
  let flat := ((List.range shards.length).zip (shards.zip lists)).flatMap (fun e =>
    e.2.2.map (fun w => (e.1, shSlot e.2.1, w)))
  ((List.range flat.length).zip flat).map (fun e =>
    { tile := plTile e.2.2.2, larr := plArr e.2.2.2, pos := plPos e.2.2.2, sideOff := plSide e.2.2.2, k := e.1, shard := e.2.1
      slot := BitVec.ofNat 12 e.2.2.1 })

/-- Whether the lists of a job are malformed: a read that failed, a wrong number of records, or a bad record. -/
def listsBad (d : List Word) (env : JobEnv) : Bool :=
  let op := descOp d
  env.read != .data || env.shards.length != descShards d || env.shards.any (fun r => shardBad op r) ||
    (if op == 7 || op == 8 then false
     else env.placements.length != descShards d || (env.shards.zip env.placements).any (fun e => placeBad e.1 e.2))

/-- The stage table of a LOAD_MODEL (R228). -/
def stagesOf (env : JobEnv) : List Stage :=
  env.stages.map (fun w => { lag := recFld w 0 31 0, outQ := BitVec.ofNat 16 (recFld w 0 47 32), qstep := recFld w 0 60 48, dom := recFld w 1 5 0 })

/-- Whether a stage table is malformed for the local domains of a choreography. -/
def stagesBad (d : List Word) (env : JobEnv) (doms : List Nat) : Bool :=
  let l := stagesOf env
  l.length != descStages d || env.stages.any (fun w => recFld w 0 63 61 != 0 || recFld w 1 63 6 != 0) ||
    (l.headD { lag := 1, outQ := 0, qstep := 0, dom := 0 }).lag != 0 ||
    ((List.range l.length).zip l).any (fun e =>
      if e.1 + 1 = l.length then e.2.outQ != 0xFFFF
      else e.2.qstep == 0 || decide (4096 < e.2.qstep)) ||
    !distinct (l.map (fun x => x.dom)) || l.length != doms.length || !doms.all (fun x => (l.map (fun y => y.dom)).contains x)

/-- Whether placements name only CIM tiles of a list, and each logical array at most once. -/
def placesBad (tiles : List Nat) (l : List Placed) : Bool :=
  l.any (fun p => tileKind p.tile != 0 || !tiles.contains p.tile) || !distinct (l.map (fun p => p.tile * 16 + p.larr))

/-- Whether a byte range lies in regions of a kind (R211). -/
def State.inKind (s : State) (kind a n : Nat) : Bool :=
  n == 0 || (List.range (pageOf (a + n - 1) + 1 - pageOf a)).all (fun i =>
    match s.regionOf (pageOf a + i) with
    | some r => s.regionKind r == kind
    | none => false)

/-- Whether every region of a byte range carries a tenant. -/
def State.inTenant (s : State) (tenant a n : Nat) : Bool :=
  n == 0 || (List.range (pageOf (a + n - 1) + 1 - pageOf a)).all (fun i =>
    match s.regionOf (pageOf a + i) with
    | some r => s.regionTenant r == tenant
    | none => true)

/-- Whether two byte ranges overlap. -/
def overlaps (a n b m : Nat) : Bool := decide (a < b + m) && decide (b < a + n)

/-- The generation that follows one (R216). -/
def nextGen (g : Nat) : Nat := if g = 65535 then 1 else g + 1

/-- Whether the load engines wait for room in the load response ring (R217). -/
def State.engineWaits (s : State) : Bool := !(s.ring respRing).outbox.isEmpty

/-! ### Shadow records and vector scratch (R214, R224) -/

/-- Write a block's column scales and weight list, from its shadow record, into its group's vector tile. -/
def State.sideWrite (s : State) (a : Nat) (p : Placed) : State :=
  let v := groupVector p.tile
  let cw := recFld (s.stkWords a 3) 2 26 16
  let lists := p.sideOff + 1024 + 4 * cw * p.pos
  let bs := s.stk (a + 0x1000) (4 * cw)
  let s := s.pagesTouch false a 0x2000
  (s.engineLand v p.sideOff (s.stk (a + 0x800) 1024)).engineLand v lists bs

/-- Whether a shadow record holds a word with the poison pattern. -/
def State.recordPoison (s : State) (a : Nat) : Bool :=
  s.stackOffline (stackOf a) || s.mem.stackBad.any (fun w => decide (a < w * 32 + 32) && decide (w * 32 < a + recordLen) && s.stkBad (w * 32))

/-- Every array of an instance that still holds weights, as (tile, p). -/
def State.instArrays (s : State) (i : Nat) : List (Nat × Nat) :=
  (s.arr.recs.filter (fun e => e.2.gen != 0 && e.2.inst.toNat == i && (e.2.state == 0 || e.2.state == 5))).map
    (fun e => (e.1 / 17, e.1 % 17))

/-- The arrays that an instance holds: those with its weights, and those being programmed for it, as (tile, p). -/
def State.instHeld (s : State) (i : Nat) : List (Nat × Nat) :=
  let own := (s.instArrays i).filter (fun e => (s.arrayRec e.1 e.2).state == 0)
  own ++ ((s.arr.running.filter (fun r => r.inst.toNat == i && r.why != .erase)).map (fun r => (r.tile, r.p))).filter
    (fun e => !own.contains e)

/-- Orphan the arrays of an instance whose generation is not `keep` (R239). -/
def State.orphan (s : State) (i keep : Nat) : State :=
  (s.instArrays i).foldl (fun s e =>
    let x := s.arrayRec e.1 e.2
    if x.gen.toNat = keep then s else s.setArray e.1 e.2 { x with state := 5, suspect := none }) s

/-! ### Stages (R229, R237) -/

/-- The module domains of an instance's choreography. -/
def State.instDoms (s : State) (i : Nat) : List Nat :=
  match (s.inst i).cho with
  | some c => s.choDoms c
  | none => []

/-- The steps a stage has started: committed ones and the one it is in. -/
def State.stepsStarted (s : State) (d : Nat) : Nat :=
  let x := s.dom d
  x.steps.toNat + b2n (x.state == 2 && !x.waiting || x.state == 3)

/-- Whether a stage stands still: held at its barrier, before its first step, or stopped. -/
def State.stageStill (s : State) (d : Nat) : Bool :=
  let x := s.dom d
  s.domHeld d || x.state == 1 || decide (4 ≤ x.state.toNat)

/-- Hold every stage after the last step that stage 0 has started (R229, R237). -/
def State.holdStages (s : State) (i : Nat) : State :=
  let n := match s.stageDom i 0 with
    | some d => s.stepsStarted d
    | none => 0
  let s := s.setInst i { s.inst i with lastOld := n }
  (List.range (s.inst i).stages.length).foldl (fun s k =>
    match s.stageDom i k, (s.inst i).stages[k]? with
    | some d, some st =>
      if (s.dom d).holdAfter.isSome then s else s.setDom d { s.dom d with holdAfter := some (n + st.lag) }
    | _, _ => s) s

/-- The sequences of an instance, in number order. -/
def State.instSeqs (s : State) (i : Nat) : List Nat :=
  (s.srv.seqs.filter (fun e => e.2.inst.toNat == i && e.2.state != 0 && e.2.state != 5)).map Prod.fst

/-- The admission stop (R229, R231, R268): the instance goes to PROMENADE, its stages are held behind the last old step, and
SEQ says what becomes of its sequences. -/
def State.admissionStop (s : State) (i : Nat) (cont : Bool) : State :=
  let s := (s.setInst i { s.inst i with state := 4, front := 0, done := [], passed := [] }).holdStages i
  (s.instSeqs i).foldl (fun s n =>
    let q := s.seqRec n
    if q.state = 1 then s
    else if q.tune || !cont then s.endSeq n 6
    else s.setSeq n { q with state := 4, genMark := some (s.inst i).gen }) s

/-- A promenade that begins while a stage of its instance is stopped parks it at once. DESIGN CHOICE
(notes/assumptions/150.md). -/
def State.admissionCheck (s : State) (i : Nat) : State :=
  match (s.instDoms i).find? (fun d => decide (4 ≤ (s.dom d).state.toNat)) with
  | some d => s.stageStopped d
  | none => s

/-- Sequences that a promenade or a park held run on. -/
def State.resumeSeqs (s : State) (i : Nat) : State :=
  (s.instSeqs i).foldl (fun s n =>
    let q := s.seqRec n
    if q.state = 4 then s.setSeq n { q with state := if 64 ≤ q.out.length then 3 else 2 } else s) s

/-! ### Ends of jobs -/

/-- The excess outlier weights of a committed load (R103, R240). A threshold that they reach sets its flag at the slot's next
step commit. DESIGN CHOICE (notes/assumptions/166.md). -/
def State.layerOvf (s : State) (j : Job) : State :=
  let slots := j.ovf.foldl (fun m e =>
    let l := shSlot (j.env.shards.getD e.1 [])
    kvPut 0 l (kvGet 0 l m + e.2) m) []
  slots.foldl (fun s e =>
    (s.loadResp j 1 0 0 e.1 e.2 0).numAdd { slot := BitVec.ofNat 12 e.1, kind := 4, amount := e.2 }) s

/-- Free an instance's choreography and empty the instance (R148, R234, R237); its arrays keep their weights, orphaned. -/
def State.instEmpty (s : State) (i : Nat) : State :=
  let s := ((s.instDoms i).foldl State.unloadDom s).progDrop i
  (s.orphan i 0).setInst i {}

/-- A LOAD_MODEL job fails after it has loaded its choreography (R234). -/
def State.loadFail (s : State) (n status count : Nat) : State :=
  match s.load.jobs[n]? with
  | none => s
  | some j => (s.instEmpty (descInst j.desc)).jobEnd n status 0 count 0

/-- The programming that an instance waits for as a rollback leaves it: that of its placements is dropped, and its spares are
programmed from the old records. -/
def State.progBack (s : State) (i : Nat) : State :=
  let x := s.inst i
  let keep := s.arr.waiting.filter (fun r => r.inst.toNat != i || r.why != .load)
  { s with arr.waiting := keep.map (fun r =>
      match r.why with
      | .spare old =>
        if r.inst.toNat ≠ i then r
        else match x.placed.find? (fun e => e.tile == r.tile && e.larr == (s.arrayRec r.tile old).logical.toNat) with
          | some e => { r with record := shadowAt x.shadow e.k }
          | none => r
      | _ => r) }

/-- Start the rollback of a promenade (R235): every stage is held at its next barrier, and every array that holds new weights
or is being programmed waits to be programmed from its old record. -/
def State.rollback (s : State) (n : Nat) : State :=
  match s.load.jobs[n]? with
  | none => s
  | some j =>
    let i := descInst j.desc
    let x := s.inst i
    let todo := (x.placed.filter (fun e => match s.physOf e.tile e.larr with
      | some p =>
        let a := s.arrayRec e.tile p
        a.state == 3 || a.gen.toNat != x.gen.toNat || a.inst.toNat != i || (a.state == 4 && s.sparePending e.tile p)
      | none => false)).map (fun e => e.k)
    let s := (s.progBack i).setJob n { j with phase := .rollback, todo, busy := [], failed := [] }
    let s := (s.setInst i { x with state := 5, front := 0, done := [], passed := [] }).bump aLoadRollbackCnt
    let s := (s.instSeqs i).foldl (fun s m =>
      let q := s.seqRec m
      if q.state = 2 ∨ q.state = 3 then s.setSeq m { q with state := 4 } else s) s
    (s.instDoms i).foldl (fun s d => s.setDom d { s.dom d with holdAfter := some 0 }) s

/-- Park an instance at the front (R236) for a failed shard. -/
def State.park (s : State) (n shard : Nat) : State :=
  match s.load.jobs[n]? with
  | none => s
  | some j =>
    let i := descInst j.desc
    let j := { j with phase := JobPhase.parked, failed := j.failed ++ [shard] }
    let s := ((s.setJob n j).setInst i { s.inst i with state := 6 }).bump aLoadParkCnt
    s.loadResp j 2 0x0B 0 0 shard 0

/-- A shard has failed for good (R234): what follows by the job's operation, state and POLICY. -/
def State.shardLost (s : State) (n shard status : Nat) : State :=
  match s.load.jobs[n]? with
  | none => s
  | some j =>
    let i := descInst j.desc
    match descOp j.desc with
    | 1 => s.loadFail n status shard
    | 2 =>
      if (s.inst i).state = 3 then (s.setInst i { s.inst i with state := 2 }).jobEnd n status 0 shard 0
      else if j.phase == .parked then s.setJob n { j with failed := j.failed ++ [shard] }
      else if descPark j.desc then s.park n shard
      else s.rollback n
    | _ => s.jobEnd n status 0 shard 0

/-- A shard attempt fails (R234): it is fetched again, up to three times. -/
def State.attemptFail (s : State) (n shard : Nat) : State :=
  match s.load.jobs[n]? with
  | none => s
  | some j =>
    let t := kvGet 0 shard j.tries + 1
    let j := { j with
      tries := kvSet shard t j.tries, fetched := j.fetched.filter (fun x => x != shard), since := kvSet shard s.clock j.since }
    if t ≤ 3 then (s.setJob n { j with retries := j.retries + 1 }).bump aLoadShardRetryCnt
    else (s.setJob n j).bump aLoadShardFailCnt |>.shardLost n shard 9

/-- The running job that fetches a shard of an instance, by its place in the list. -/
def State.fetchJob (s : State) (i shard : Nat) : Option (Nat × Job) :=
  match s.jobOf i with
  | none => none
  | some n =>
    match s.load.jobs[n]? with
    | none => none
    | some j =>
      let runs := match j.phase with
        | .fetching | .programming | .grammarWait | .parked => true
        | _ => false
      if runs && decide (shard < j.env.shards.length) && !j.fetched.contains shard && !j.failed.contains shard then some (n, j)
      else none

/-! ### A LOAD_MODEL ends, a promenade commits (R220, R229) -/

/-- Whether a job has nothing left to fetch or program. -/
def jobDone (j : Job) : Bool := j.fetched.length == j.env.shards.length && j.todo.isEmpty && j.busy.isEmpty

/-- A LOAD_MODEL whose arrays are all programmed installs GEN and releases the choreography to its first step (R147). -/
def State.loadFinish (s : State) (n : Nat) : State :=
  match s.load.jobs[n]? with
  | none => s
  | some j =>
    let i := descInst j.desc
    if descOp j.desc ≠ 1 ∨ (s.inst i).state ≠ 1 ∨ !jobDone j then s
    else
      let s := s.setInst i { s.inst i with state := 2, gen := BitVec.ofNat 16 (descGen j.desc) }
      let s := match (s.inst i).cho with
        | some c => match s.choOf c with
          | some x => { s with con.chos := kvSet c { x with released := true } s.con.chos }
          | none => s
        | none => s
      (s.layerOvf j).jobEnd n 0 0 0 0

/-- The promenade commits (R229, R258): the new generation and records are in force, the old shadow is free, the handles of
the instance are stale, and its sequences run on. -/
def State.promCommit (s : State) (n : Nat) : State :=
  match s.load.jobs[n]? with
  | none => s
  | some j =>
    let i := descInst j.desc
    let x := s.inst i
    let s := s.setInst i { x with
      state := 2, front := 0, gen := BitVec.ofNat 16 (descGen j.desc), shadow := descShadow j.desc
      shadowN := j.placed.length, placed := j.placed, done := [], passed := [] }
    let s : State := { s with srv.handles := kvMap {} (fun _ h =>
      if h.state == 1 && h.inst.toNat == i then { h with state := 2 } else h) s.srv.handles }
    let s := ((s.bump aLoadPromCommitCnt).orphan i (descGen j.desc)).resumeSeqs i
    (s.layerOvf j).jobEnd n 0 0 0 x.shadow

/-- The placement entries of a stage's tiles. -/
def State.stageEntries (s : State) (i k : Nat) (l : List Placed) : List Nat :=
  match s.stageDom i k with
  | some d => (l.filter (fun e => (s.dom d).members.contains e.tile)).map (fun e => e.k)
  | none => []

/-- Move the front (R229): it passes each stage whose predecessors are all programmed, and releases it. -/
def State.frontMove (s : State) (i : Nat) : Nat → State
  | 0 => s
  | fuel + 1 =>
    let x := s.inst i
    let k := x.passed.length
    if k < x.stages.length ∧ x.done.contains k then
      let s := s.setInst i { x with passed := x.passed ++ [k] }
      let s := match s.stageDom i k with
        | some d => s.setDom d { s.dom d with holdAfter := none }
        | none => s
      s.frontMove i fuel
    else
      let left := (List.range x.stages.length).filter (fun m => !x.done.contains m)
      s.setInst i { x with front := BitVec.ofNat 6 (left.headD x.stages.length) }

/-- Restart every stage at its first step, as after its load (R235): sequencers, outputs, flags and queues at their image
values. -/
def State.restartCho (s : State) (c : Nat) : State :=
  match s.choOf c with
  | none => s
  | some x =>
    let doms := s.choDoms c
    let s := doms.foldl State.flushDom s
    let s := x.image.tiles.foldl (fun s r => s.setTile r.tile { s.tile r.tile with
      seq := {}, saved := {}, wait := .barrier, mark := false, steps := 0, outbox := [], reads := [], ctabWait := false
      product := none }) s
    let s := doms.foldl (fun s d => (s.domOutputs d).foldl (fun s k => s.setOutp k (outReset (s.outp k))) s) s
    let s := x.image.flags.foldl (fun s r => s.loadFlag c x.image x.doms r) s
    let s := x.image.queues.foldl (fun s r => s.loadQueue c x.image x.doms r) s
    doms.foldl (fun s d =>
      let y := s.dom d
      (s.setDom d { y with
        state := 1, attempt := 0, steps := 0, arrived := [], await := [], mark := false, events := [], waiting := false
        holdAfter := none, replaying := false }).startDom d) s

/-- A token step that was issued is discarded (R235): its sequence stands where it stood before the slot. -/
def State.unissue (s : State) (x : IssueSlot) : State :=
  let q := s.seqRec x.seq
  if q.order = x.order ∧ q.state ≠ 0 ∧ q.state ≠ 5 then s.setSeq x.seq { q with fed := q.fed - x.n } else s

/-- A rollback ends (R235): old scales and weight lists are back, every stage starts anew, and the instance serves its old
generation. -/
def State.rollbackFinish (s : State) (n : Nat) : State :=
  match s.load.jobs[n]? with
  | none => s
  | some j =>
    let i := descInst j.desc
    let x := s.inst i
    let s := x.placed.foldl (fun s e => s.sideWrite (shadowAt x.shadow e.k) e) s
    let s := (s.setInst i { x with state := 2, front := 0, done := [], passed := [], issued := [], issuedN := 0, readN := 0 }).orphan i x.gen.toNat
    let s := x.issued.foldl (fun s e => e.2.slots.foldl State.unissue s) s
    let s := (s.instSeqs i).foldl (fun s m =>
      let q := s.seqRec m
      s.setSeq m { q with inFlight := false, genMark := none }) s
    let s := (match x.cho with
      | some c => s.restartCho c
      | none => s).resumeSeqs i
    s.jobEnd n (if j.aborted then 0x0E else 0x0A) 0 0 (descShadow j.desc)

/-! ### Unloading (R237, R239) -/

/-- Request the erase of arrays for a PURGE. -/
def State.eraseAll (s : State) (i : Nat) (l : List (Nat × Nat)) : State :=
  l.foldl (fun s e => s.progAsk { tile := e.1, p := e.2, record := 0, inst := BitVec.ofNat 10 i, why := .erase }) s

/-- A PURGE erases arrays, then ends. -/
def State.purgeErase (s : State) (n : Nat) (l : List (Nat × Nat)) : State :=
  match s.load.jobs[n]? with
  | none => s
  | some j =>
    if l.isEmpty then s.jobEnd n 0 0 0 0
    else (s.setJob n { j with phase := .erasing, busy := l.map (fun e => arrKey e.1 e.2) }).eraseAll (descInst j.desc) l

/-- Retag the pages of an instance's shadow records to tenant 0 (R237). -/
def State.retagShadow (s : State) (a records : Nat) : State :=
  if records = 0 then s
  else (List.range (pageOf (a + records * recordLen - 1) + 1 - pageOf a)).foldl (fun s k => s.retag (pageOf a + k) 0) s

/-- UNLOAD or PURGE starts to drain (R237, R259): admission stops, every sequence and handle of the instance goes, and the
stages are held. -/
def State.drainStart (s : State) (n : Nat) : State :=
  match s.load.jobs[n]? with
  | none => s
  | some j =>
    let i := descInst j.desc
    let s := (s.setJob n { j with phase := .draining }).setInst i { s.inst i with state := 7, front := 0 }
    let s := (s.progDrop i).holdStages i
    let s := (s.instSeqs i).foldl (fun s m => s.endSeq m 9) s
    (s.srv.handles.filter (fun e => e.2.state != 0 && e.2.inst.toNat == i)).foldl (fun s e => s.handleFree e.1) s

/-! ### Starting a job (R218, R220, R241) -/

/-- Refuse a job: it changes nothing, is counted, and answers one FINAL. -/
def State.jobRefuse (s : State) (n status reason : Nat) : State := (s.bump aLoadRefuseCnt).jobEnd n status reason 0 0

/-- A job starts to fetch its shards. -/
def State.fetchStart (s : State) (n : Nat) (j : Job) : State :=
  let since := (List.range j.env.shards.length).map (fun k => (k, s.clock))
  (s.setJob n { j with phase := .fetching, since, started := s.clock }).bump aLoadJobCnt

/-- The choreography a LOAD_MODEL names: its own image, checked, or a preloaded one that waits (R220). -/
def State.jobCho (s : State) (j : Job) : Option (Nat × ChoImage) :=
  if recFld j.desc 5 31 0 ≠ 0 then none
  else match s.con.chos.find? (fun e => e.2.inst.isNone && e.2.image.choId.toNat == recFld j.desc 8 63 32) with
    | some e => some (e.1, e.2.image)
    | none => none

/-- The checks after the choreography of a LOAD_MODEL: FORMAT of the stage table, TENANT, PLACEMENT, REGION; 0 when none
fails. -/
def State.loadStatus (s : State) (j : Job) (im : ChoImage) (placed : List Placed) : Nat :=
  let d := j.desc
  let n := placed.length * recordLen
  if stagesBad d j.env (im.domains.map (fun r => r.dom)) then 1
  else if im.tiles.any (fun t => t.tenant.toNat != descTenant d) || !s.inTenant (descTenant d) (descShadow d) n then 4
  else if placesBad (im.tiles.map (fun t => t.tile)) placed then 5
  else if !s.inKind 1 (descShadow d) n then 6
  else 0

/-- Bind a loaded choreography to an instance and start the fetches of a LOAD_MODEL. -/
def State.loadBind (s : State) (n : Nat) (j : Job) (c : Nat) (placed : List Placed) : State :=
  let i := descInst j.desc
  let s := match s.choOf c with
    | some x => { s with con.chos := kvSet c { x with inst := some (BitVec.ofNat 10 i) } s.con.chos }
    | none => s
  let s := s.setInst i {
    state := 1, tenant := BitVec.ofNat 8 (descTenant j.desc), cho := some c, stages := stagesOf j.env, placed
    shadow := descShadow j.desc, shadowN := placed.length }
  (s.fetchStart n { j with placed, todo := placed.map (fun p => p.k) }).loadFinish n

/-- Start a LOAD_MODEL (R220, R241). -/
def State.startLoad (s : State) (n : Nat) (j : Job) : State :=
  let placed := placedOf j.env.shards j.env.placements
  if (s.inst (descInst j.desc)).state ≠ 0 then s.jobRefuse n 2 0
  else if descGen j.desc = 0 then s.jobRefuse n 3 0
  else if recFld j.desc 5 31 0 = 0 then
    match s.jobCho j with
    | none =>
      match kvFind (recFld j.desc 8 63 32) s.load.refused with
      | some r => s.jobRefuse n 8 r
      | none => s.jobRefuse n 1 0
    | some (c, im) =>
      let st := s.loadStatus j im placed
      if st ≠ 0 then s.jobRefuse n st 0 else s.loadBind n j c placed
  else
    match s.choJudge j.env.image with
    | .error r => (s.choReject r).jobRefuse n 8 r.1
    | .ok im =>
      let st := s.loadStatus j im placed
      if st ≠ 0 then s.jobRefuse n st 0 else (s.choAccept s.choNext im).loadBind n j s.choNext placed

/-- Start a REPLACE (R220, R229, R232, R430, R241). -/
def State.startReplace (s : State) (n : Nat) (j : Job) : State :=
  let d := j.desc
  let i := descInst d
  let x := s.inst i
  let placed := placedOf j.env.shards j.env.placements
  let size := placed.length * recordLen
  let tiles := match x.cho.bind s.choOf with
    | some c => choTiles c
    | none => []
  if x.cho.isSome && x.cho == s.beat.cho then s.jobRefuse n 1 0
  else if x.state ≠ 2 then s.jobRefuse n 2 0
  else if descGen d ≠ nextGen x.gen.toNat then s.jobRefuse n 3 0
  else if descTenant d ≠ x.tenant.toNat ∨ !s.inTenant (descTenant d) (descShadow d) size then s.jobRefuse n 4 0
  else if placesBad tiles placed then s.jobRefuse n 5 0
  else if !s.inKind 1 (descShadow d) size || (overlaps (descShadow d) size x.shadow (x.shadowN * recordLen)) then s.jobRefuse n 6 0
  else
    let j := { j with placed, todo := placed.map (fun p => p.k) }
    if descStream d then
      let s := s.fetchStart n j
      match s.load.jobs[n]? with
      | some j => ((s.setJob n { j with phase := .programming }).admissionStop i (descCont d)).admissionCheck i
      | none => s
    else (s.setInst i { x with state := 3 }).fetchStart n j

/-- The parked job of an instance. -/
def State.parkedJob (s : State) (i : Nat) : Option Nat :=
  s.load.jobs.findIdx? (fun j => descInst j.desc == i && j.phase == .parked)

/-- REPAIR (R236): the parked job resumes at its failed shards. -/
def State.startRepair (s : State) (n : Nat) (j : Job) : State :=
  let i := descInst j.desc
  match if (s.inst i).state = 6 then s.parkedJob i else none with
  | none => s.jobRefuse n 2 0
  | some m =>
    match s.load.jobs[m]? with
    | none => s.jobRefuse n 2 0
    | some p =>
      if descTenant j.desc ≠ (s.inst i).tenant.toNat then s.jobRefuse n 4 0
      else if j.env.placements ≠ p.failed.map (fun k => p.env.placements.getD k []) then s.jobRefuse n 5 0
      else
        let new := p.failed.zip j.env.shards
        let shards := ((List.range p.env.shards.length).zip p.env.shards).map (fun e =>
          match new.find? (fun r => r.1 == e.1) with
          | some r => r.2
          | none => e.2)
        let p := { p with
          env := { p.env with shards }, phase := JobPhase.programming, failed := []
          tries := p.tries.filter (fun e => !p.failed.contains e.1)
          since := p.failed.foldl (fun t k => kvSet k s.clock t) p.since }
        let s := (s.setJob m p).setInst i { s.inst i with state := 4 }
        ((s.setJob n { j with started := s.clock }).bump aLoadJobCnt).jobEnd n 0 0 0 0

/-- ABORT_PROM (R236): the parked job turns into a rollback. -/
def State.startAbort (s : State) (n : Nat) (j : Job) : State :=
  let i := descInst j.desc
  match if (s.inst i).state = 6 then s.parkedJob i else none with
  | none => s.jobRefuse n 2 0
  | some m =>
    if descTenant j.desc ≠ (s.inst i).tenant.toNat then s.jobRefuse n 4 0
    else
      match s.load.jobs[m]? with
      | none => s
      | some p =>
        let s := (s.setJob m { p with aborted := true }).rollback m
        ((s.setJob n { j with started := s.clock }).bump aLoadJobCnt).jobEnd n 0 0 0 0

/-- UNLOAD and PURGE (R220, R237). A parked job of the instance ends with ABORTED; a PURGE of an EMPTY instance erases its
orphaned arrays. -/
def State.startUnload (s : State) (n : Nat) (j : Job) : State :=
  let i := descInst j.desc
  let x := s.inst i
  if x.state = 0 ∧ descOp j.desc = 6 then
    let l := (s.arr.recs.filter (fun e => e.2.state == 5 && e.2.inst.toNat == i && e.2.tenant.toNat == descTenant j.desc)).map
      (fun e => (e.1 / 17, e.1 % 17))
    ((s.setJob n { j with started := s.clock }).bump aLoadJobCnt).purgeErase n l
  else if x.state ≠ 2 ∧ x.state ≠ 6 then s.jobRefuse n 2 0
  else if descTenant j.desc ≠ x.tenant.toNat then s.jobRefuse n 4 0
  else
    let s := (s.setJob n { j with started := s.clock }).bump aLoadJobCnt
    match s.parkedJob i with
    | none => s.drainStart n
    | some m => (s.jobEnd m 0x0E 0 0 0).drainStart (if m < n then n - 1 else n)

/-- Start an ADAPTER job (R227). One that names an adapter in use counts as refused. DEDUCED (notes/assumptions/151.md). -/
def State.startAdapter (s : State) (n : Nat) (j : Job) : State :=
  let d := j.desc
  let x := s.adapterRec (descObject d)
  let spans := j.env.shards.map (fun r => (descShadow d + shOffset r, adapterLen r))
  if spans.any (fun e => !s.inTenant (descTenant d) e.1 e.2) then s.jobRefuse n 4 0
  else if spans.any (fun e => !s.inKind 3 e.1 e.2) then s.jobRefuse n 6 0
  else if x.users ≠ 0 ∨ x.tuning then s.jobRefuse n 0x0D 0
  else s.fetchStart n j

/-- Start a GRAMMAR job (R263, R264): its object is written once its number has no users. -/
def State.startGrammar (s : State) (n : Nat) (j : Job) : State :=
  let d := j.desc
  let spans := j.env.shards.map (fun r => (descShadow d + shOffset r, shLength r))
  if spans.any (fun e => !s.inTenant (descTenant d) e.1 e.2) then s.jobRefuse n 4 0
  else if spans.any (fun e => !s.inKind 4 e.1 e.2) then s.jobRefuse n 6 0
  else
    let s := s.fetchStart n j
    match s.load.jobs[n]? with
    | some j => s.setJob n { j with phase := .grammarWait }
    | none => s

/-- Whether a job of the manifest is host-fed and the host port is not up (R346). -/
def State.unfed (s : State) (j : Job) : Bool :=
  match j.src with
  | .manifest _ => !s.hostUp && recFld j.desc 3 48 48 == 0
  | .ring => false

/-- A host-fed manifest job without a host port ends with SHARD_FAILED (R234, R346): the choreography it names is unloaded.
DEDUCED (notes/assumptions/153.md). -/
def State.unfedEnd (s : State) (n : Nat) (j : Job) : State :=
  let s := match s.jobCho j with
    | some (c, _) => (s.choDoms c).foldl State.unloadDom s
    | none => s
  (s.bump aLoadShardFailCnt).jobEnd n 9 0 0 0

/-- The 64-bit words of a range of the HDM window, and the accesses of its pages; none where it is not mapped whole with good
parity. -/
def State.hdmWords (s : State) (off n : Nat) : State × Option (List Word) :=
  (s.hdmTouch off (8 * n), if s.hdmGood off (8 * n) then (s.hdmBytes off (8 * n)).map wordsOf else none)

/-- The placement lists of shards, those in HDM staging from the stacks. -/
def State.spacePlaces (s : State) : List (List Word × List Word) → State × Option (List (List Word))
  | [] => (s, some [])
  | (r, l) :: rest =>
    let a : State × Option (List Word) := if shHost r then (s, some l) else s.hdmWords (wordAt r 3).toNat (shRb r * shCb r)
    let b := a.1.spacePlaces rest
    (b.1, match a.2, b.2 with
      | some l, some m => some (l :: m)
      | _, _ => none)

/-- The shard list and stage table of a job whose LIST_SPACE is HDM (R219, R228); none where a read fails. -/
def State.spaceLists (s : State) (d : List Word) (env : JobEnv) : State × Option JobEnv :=
  if recFld d 3 48 48 = 0 then (s, some env)
  else
    let a := s.hdmWords (wordAt d 2).toNat (8 * descShards d)
    let b := if descOp d = 1 then a.1.hdmWords (wordAt d 7).toNat (2 * descStages d) else (a.1, some [])
    (b.1, match a.2, b.2 with
      | some l, some m => some { env with shards := chunks 8 (descShards d) l, stages := chunks 2 (descStages d) m }
      | _, _ => none)

/-- The choreography image of a job whose CHO_SPACE is HDM (R219); none where the read fails. -/
def State.spaceImage (s : State) (d : List Word) (env : JobEnv) : State × Option JobEnv :=
  let a := (wordAt d 4).toNat
  let n := recFld d 5 31 0
  if n = 0 ∨ recFld d 5 32 32 = 0 then (s, some env)
  else (s.hdmTouch a n, if s.hdmGood a n then (s.hdmBytes a n).map (fun image => { env with image }) else none)

/-- Whether any list or image of a job lies in host memory. -/
def hostLists (d : List Word) (env : JobEnv) : Bool :=
  (recFld d 3 48 48 == 0 && (descShards d != 0 || descOp d == 1)) || (recFld d 5 31 0 != 0 && recFld d 5 32 32 == 0) ||
    (descOp d != 7 && descOp d != 8 && env.shards.any shHost)

/-- What the engines read for a job: lists and image from host memory as the command brings them, and from HDM staging out of
the stacks (R219, R221). A host read that times out or comes with poison is counted (R317). -/
def State.spaceEnv (s : State) (d : List Word) (env : JobEnv) : State × JobEnv :=
  if descBad d || decide (4 ≤ descOp d ∧ descOp d ≤ 6) then (s, env)
  else
    match s.spaceLists d env with
    | (s, none) => (s, { env with read := .ur })
    | (s, some env) =>
      let env := if hostLists d env then env else { env with read := .data }
      match env.read with
      | .poison => (s.bump aHostPoisonRxCnt, env)
      | .timeout => (s.bump aHostCplTmoCnt, env)
      | .ur | .ca => (s, env)
      | .data =>
        match s.spaceImage d env with
        | (s, none) => (s, { env with read := .ur })
        | (s, some env) =>
          if descOp d = 7 ∨ descOp d = 8 then (s, env)
          else
            match s.spacePlaces ((List.range env.shards.length).map (fun k => (env.shards.getD k [], env.placements.getD k []))) with
            | (s, none) => (s, { env with read := .ur })
            | (s, some placements) => (s, { env with placements })

/-- Start the job at a place of the list: its descriptor and lists are checked first (R241). -/
def State.startJob (s : State) (n : Nat) : State :=
  match s.load.jobs[n]? with
  | none => s
  | some j =>
    let r := s.spaceEnv j.desc j.env
    let s := r.1
    let j := { j with started := s.clock, env := r.2 }
    let s := s.setJob n j
    if descBad j.desc then s.jobRefuse n 1 0
    else if s.unfed j && descOp j.desc == 1 && (s.inst (descInst j.desc)).state == 0 && descGen j.desc != 0 && (s.jobCho j).isSome then
      s.unfedEnd n j
    else if listsBad j.desc j.env && !s.unfed j then s.jobRefuse n 1 0
    else match descOp j.desc with
      | 1 => s.startLoad n j
      | 2 => s.startReplace n j
      | 3 => s.startRepair n j
      | 4 => s.startAbort n j
      | 5 | 6 => s.startUnload n j
      | 7 => s.startAdapter n j
      | _ => s.startGrammar n j

/-- Whether a LOAD_MODEL waits for a field of its choreography that a calibration has out of service (R418). -/
def State.calHolds (s : State) (j : Job) : Bool :=
  let im := match s.jobCho j with
    | some e => some e.2
    | none => parseCho (s.spaceEnv j.desc j.env).2.image
  match im with
  | some im => descOp j.desc == 1 && im.tiles.any (fun r => s.inCal (fieldOf r.tile))
  | none => false

/-- Whether a waiting job may start (R218): no earlier job names its instance, and fewer than 16 run. REPAIR and ABORT_PROM act
at once on the parked job of their instance, and so do UNLOAD and PURGE of a parked instance. None starts once an orderly stop runs (R402). -/
def State.mayStart (s : State) (n : Nat) : Bool :=
  match s.load.jobs[n]? with
  | none => false
  | some j =>
    let i := descInst j.desc
    let op := descOp j.desc
    let atOnce := ((op == 3 || op == 4) && (s.parkedJob i).isSome) || ((op == 5 || op == 6) && (s.inst i).state == 6)
    !s.stopping && !s.calHolds j && j.phase == .waiting && (atOnce ||
      (!(s.load.jobs.take n).any (fun k => descInst k.desc == i) &&
        decide ((s.load.jobs.filter (fun k => k.phase != .waiting)).length < 16)))

/-- An ADAPTER job whose shards are all written (R227, R274), or a GRAMMAR job whose object is (R264), ends. -/
def State.objectsDone (s : State) : Nat → State
  | 0 => s
  | fuel + 1 =>
    if s.engineWaits then s
    else
    match s.load.jobs.findIdx? (fun j =>
      ((descOp j.desc == 7 && j.phase == .fetching) || j.phase == .writing) && j.fetched.length == j.env.shards.length &&
        (List.range j.env.shards.length).all (fun k =>
          let r := j.env.shards.getD k []
          !s.writeWaits (descShadow j.desc + shOffset r) (if descOp j.desc = 7 then adapterLen r else (kvGet [] k j.held).length))) with
    | none => s
    | some n =>
      match s.load.jobs[n]? with
      | none => s
      | some j =>
        let a := descObject j.desc
        let page := BitVec.ofNat 26 (pageOf (descShadow j.desc))
        let tenant := BitVec.ofNat 8 (descTenant j.desc)
        let s := if descOp j.desc = 7 then
            s.setAdapter a { page, present := true, rank := BitVec.ofNat 7 (descRank j.desc), tenant, users := (s.adapterRec a).users }
          else s.setGram a { page, present := true, tenant, users := (s.gramRec a).users, nstate := recFld (s.stkWords (descShadow j.desc) 2) 1 20 0 }
        (s.jobEnd n 0 0 0 0).objectsDone fuel

/-- End the jobs whose objects are written and start the waiting jobs that may start, in list order, unless the engines wait for the response ring (R217, R218). -/
def State.jobsPump (s : State) : Nat → State
  | 0 => s
  | fuel + 1 =>
    let s := s.objectsDone 256
    if s.engineWaits then s
    else
      match (List.range s.load.jobs.length).find? (fun n => s.mayStart n) with
      | none => s
      | some n => (s.startJob n).jobsPump fuel

end Sys2Proof.Machine
end

