-- ==== Sys2Proof/Machine/Clock.lean ====
section
/-! DEFINITION. The passing of time when no command waits: the keeper crystal (R5), the fabric counter (R303, R304) and the calendar (R373). -/

namespace Sys2Proof.Machine

/-- One microsecond of the fabric counter: 1,000 ns and the rate correction of R304, in units of 2^-32. It counts while a
control cluster is powered. -/
def tickFabric (s : State) : State :=
  if !s.anyCluster then s
  else
    let sum := s.fab.frac + 1000 * s.fab.rate
    let s : State := { s with fab.frac := sum % 2 ^ 32 }
    s.setReg aFabFcount (s.fcount + 1000 + BitVec.ofInt 64 (sum / 2 ^ 32))

/-- A second of the calendar, which counts while KEEP_12V is present; a small backward set holds it still. -/
def tickCalendar (s : State) : State :=
  if !s.keep.pins.keep12v then s
  else if s.keep.ledger.calHold = 0 then s.setReg aLedgCalendar (s.reg64 aLedgCalendar + 1)
  else { s with keep.ledger.calHold := s.keep.ledger.calHold - 1 }

/-- One microsecond of the keeper crystal; every 10^6 of them the calendar counts a second.
DESIGN CHOICE (notes/assumptions/1.md). -/
def tickClock (s : State) : State :=
  let s := tickFabric { s.tickWatch with clock := s.clock + 1 }
  if s.clock % 1000000 = 0 then tickCalendar s else s

/-- What a step does with no command waiting: a microsecond passes, and the load jobs that may start do (R218).
DESIGN CHOICE (notes/assumptions/1.md). -/
def idle (s : State) : State := (tickClock s).jobsPump 300

end Sys2Proof.Machine
end

