-- ==== Sys2Proof/Machine/Checks.lean ====
section
/-! DEFINITION. The ranges and rules of register values that an image and a COMMIT are checked against (R336, R350), and the configuration image: its header, its sections and its content check (R334 to R336). -/

namespace Sys2Proof.Machine

/-! ### Ranges (R350) -/

/-- A range of a field: [hi:lo], least and greatest value, and whether the bounds depend on other fields of its register, so
that a change of any of them calls for the check. -/
structure FieldRange where
  hi  : Nat
  lo  : Nat
  min : Nat
  max : Nat
  rel : Bool := false
  deriving DecidableEq, Repr

/-- The ring whose RING.CONFIG or RING.BASE an address is. -/
def ringAt (a : Nat) : Option Nat :=
  match ringRegOf a with
  | some (r, off) => if off ≤ 8 then some r else none
  | none => none

/-- The ranges of R404 for a register of THM, given its new value. -/
def thmRanges (a : Nat) (w : Word) : List FieldRange :=
  if a = aThmJctLimits then
    [{ hi := 7, lo := 0, min := 70, max := 100 }, { hi := 15, lo := 8, min := 60, max := fld w 7 0 - 2, rel := true },
      { hi := 23, lo := 16, min := fld w 7 0, max := 102, rel := true },
      { hi := 31, lo := 24, min := 60, max := fld w 23 16 - 2, rel := true },
      { hi := 39, lo := 32, min := fld w 23 16 + 3, max := 110, rel := true }, { hi := 47, lo := 40, min := 60, max := 90 }]
  else if a = aThmCoolLimits then
    [{ hi := 7, lo := 0, min := 5, max := 50 }, { hi := 15, lo := 8, min := fld w 7 0 + 5, max := 100, rel := true },
      { hi := 23, lo := 16, min := 20, max := 45 }, { hi := 31, lo := 24, min := fld w 23 16 + 2, max := 50, rel := true }]
  else if a = aThmAuxLimits ∨ a = aThmBrdLimits then
    (List.range 4).map (fun k =>
      { hi := 8 * k + 39, lo := 8 * k + 32, min := fld w (8 * k + 7) (8 * k) + 2, max := 120, rel := true })
  else if a = aThmPumpAuto then
    [{ hi := 9, lo := 0, min := 200, max := 1000 }, { hi := 25, lo := 18, min := fld w 17 10 + 5, max := 255, rel := true }]
  else if a = aThmFlowCfg then
    [{ hi := 15, lo := 0, min := 1, max := 65535 }, { hi := 25, lo := 16, min := 300, max := 1000 },
      { hi := 35, lo := 26, min := 100, max := fld w 25 16 - 10, rel := true }]
  else if a = aThmLoopCmd then [{ hi := 10, lo := 1, min := 0, max := 1000 }]
  else []

/-- The ranges of the fields of a register that its chapter states (R171, R242, R251, R252, R274, R291, R295, R331, R404,
R405, R420), given its new value. -/
def fieldRanges (a : Nat) (w : Word) : List FieldRange :=
  match a / 0x1000000 with
  | 0x02 =>
    if a = aPwrCap then [{ hi := 15, lo := 0, min := 4000, max := 15500 }, { hi := 25, lo := 16, min := 620, max := 750 }]
    else if aPwrDomain 1 ≤ a ∧ a ≤ aPwrDomain 49 then [{ hi := 9, lo := 0, min := 700, max := 850 }]
    else []
  | 0x03 => thmRanges a w
  | 0x04 =>
    if a = aHkcCfg then [{ hi := 9, lo := 1, min := 0, max := 130 }]
    else if aHkcThermCfg 0 ≤ a ∧ a ≤ aHkcThermCfg 7 then [{ hi := 31, lo := 16, min := 1000, max := 10000 }]
    else if a = aHkcBrdEta then
      (List.range 4).map (fun k => { hi := 16 * k + 15, lo := 16 * k, min := 15565, max := 17203 })
    else []
  | 0x11 =>
    if aSvcProfile 0 ≤ a ∧ a < aSvcProfile 256 ∧ a % 0x20 = 8 then [{ hi := 7, lo := 0, min := 0, max := 128 }] else []
  | 0x13 =>
    if a = aFabRcompTmo then [{ hi := 9, lo := 0, min := 1, max := 1000 }]
    else if a = aFabWinCloseTmo then [{ hi := 13, lo := 0, min := 1, max := 10000 }]
    else if aFabWin 0 0 ≤ a ∧ a < aFabWin 4 0 ∧ a % 0x20 = 0 then [{ hi := 3, lo := 2, min := 0, max := 2 }]
    else []
  | 0x20 => if aMemRegion 0 ≤ a ∧ a ≤ aMemRegion 63 then [{ hi := 55, lo := 52, min := 0, max := 8 }] else []
  | 0x22 =>
    if a = aSrvCtrl then
      [{ hi := 15, lo := 0, min := 10, max := 60000 }, { hi := 47, lo := 16, min := 60, max := 2 ^ 32 - 1 }]
    else if aSrvRqBind 0 ≤ a ∧ a ≤ aSrvRqBind 255 ∧ a % 0x40 = 0x20 then [{ hi := 2, lo := 0, min := 0, max := 6 }]
    else if aSrvIface 0 ≤ a ∧ a < aSrvIface 1024 ∧ a % 0x20 = 0 then
      [{ hi := 34, lo := 32, min := 0, max := 6 }, { hi := 62, lo := 51, min := 0, max := fld w 11 0, rel := true }]
    else []
  | 0x30 => if a = aChoStallLimit then [{ hi := 19, lo := 0, min := 100, max := 1000000 }] else []
  | _ => []

/-- Whether the fields of a register obey their ranges; a field is checked if it differs from `old`, which an image has not,
or if its bounds hang on the rest of the register. -/
def rangesOk (a : Nat) (w : Word) (old : Option Word) : Bool :=
  (fieldRanges a w).all (fun r =>
    let v := fld w r.hi r.lo
    (decide (r.min ≤ v) && decide (v ≤ r.max)) ||
      (match old with
        | some o => !r.rel && fld o r.hi r.lo == v
        | none => false))

/-! ### Rules (R128, R133, R135, R211, R217, R387) -/

/-- The storage of a ring lies in one region of kind 6 of the region set `get`. -/
def inHdmRings (get : Nat → Word) (a n : Nat) : Bool :=
  (List.range 64).any (fun r =>
    let w := get (aMemRegion r)
    fld w 55 52 == 6 && decide (fld w 25 0 * 65536 ≤ a) && decide (a + n ≤ (fld w 25 0 + fld w 51 26) * 65536))

/-- The check of a ring descriptor (R133, R135, R217): 0 accepted, 2 a field out of range, 3 a rule. -/
def ringCheck (get : Nat → Word) (r : Nat) : Nat :=
  let c := get (aRing r)
  let base := fld (get (aRing r + 8)) 47 0
  let count := fld c 48 32
  let log := fld c 7 4
  if count = 0 then (if bit c.toNat 16 then 3 else 0)
  else if 65536 < count ∨ fld c 1 0 = 3 ∨ 1 < fld c 3 2 ∨ log < 6 ∨ 12 < log then 2
  else
    let stored := fld c 1 0 == 2 && inHdmRings get base (count * 2 ^ log)
    if base % 2 ^ log ≠ 0 then 3
    else if r < 256 then (if fld c 3 2 = 1 ∧ stored then 0 else 3)
    else if r < 512 then (if stored then 0 else 3)
    else if r = 512 then (if fld c 3 2 = 1 ∧ log = 7 ∧ fld c 15 8 = 0 ∧ stored then 0 else 3)
    else if r = 513 then (if fld c 3 2 = 0 ∧ log = 6 ∧ fld c 15 8 = 0 ∧ stored then 0 else 3)
    else if fld c 3 2 = 1 then 0
    else 3

/-- Pages of the regions of kinds 6 and 7, which the HDM window maps (R213). -/
def hdmPages (get : Nat → Word) : Nat :=
  (((List.range 64).map (fun r => get (aMemRegion r))).map (fun w =>
    if fld w 55 52 = 6 ∨ fld w 55 52 = 7 then fld w 51 26 else 0)).sum

/-- The region set (R211, R213): no two regions overlap, none lies beyond stack 27, and HDM regions fill at most 64 GiB. -/
def regionsOk (get : Nat → Word) : Bool :=
  let rs := ((List.range 64).map (fun r => (fld (get (aMemRegion r)) 25 0, fld (get (aMemRegion r)) 51 26))).filter
    (fun e => e.2 != 0)
  rs.all (fun e => decide (e.1 + e.2 ≤ 28 * 2 ^ 21)) && runsApart rs && decide (hdmPages get ≤ 2 ^ 20)

/-- The check of one register whose value is set (R336, R350): 0 accepted, 2 a field out of range, 3 a rule of its
chapter. `get` reads the new values, `old` is the applied value at a COMMIT and nothing for an image. -/
def regCheck (get : Nat → Word) (a : Nat) (old : Option Word) : Nat :=
  let w := get a
  match ringAt a with
  | some r => ringCheck get r
  | none =>
    if !rangesOk a w old then 2
    else if aMemRegion 0 ≤ a ∧ a ≤ aMemRegion 63 then (if regionsOk get then 0 else 3)
    else if a = aThmChanEn then (if fld w 1 0 ≠ 0 ∧ fld w 3 2 ≠ 0 then 0 else 3)
    else if aSrvIface 0 ≤ a ∧ a < aSrvIface 1024 ∧ a % 0x20 = 8 then (if fld w 47 0 % 128 = 0 then 0 else 3)
    else if aFabWin 0 0 ≤ a ∧ a < aFabWin 4 0 ∧ (a % 0x20 = 0 ∨ a % 0x20 = 16) then
      let d := a / 0x20 * 0x20
      if fld (get d) 3 2 = 2 ∨ fld (get (d + 16)) 39 0 % 128 = 0 then 0 else 3
    else 0

/-! ### The image in the flash (R334) -/

/-- A little-endian number of the image. -/
def State.imgNat (s : State) (a n : Nat) : Nat := leNat (memRead 0xFF a n s.trust.flash)

/-- A section of the image. -/
structure Sect where
  type : Nat
  off  : Nat
  len  : Nat
  deriving DecidableEq, Repr

/-- The section table. -/
def State.imgSects (s : State) : List Sect :=
  (List.range (s.imgNat 0x1A 2)).map (fun i =>
    { type := s.imgNat (0x40 + 32 * i) 2, off := s.imgNat (0x48 + 32 * i) 8, len := s.imgNat (0x50 + 32 * i) 8 })

/-- The sections of a type, in order. -/
def State.sectsOf (s : State) (type : Nat) : List Sect := s.imgSects.filter (fun x => x.type == type)

/-- The bytes of a section. -/
def State.sectBytes (s : State) (x : Sect) : List Byte := memRead 0xFF x.off x.len s.trust.flash

/-- No two sections overlap. -/
def sectsApart : List Sect → Bool
  | [] => true
  | x :: l => l.all (fun y => decide (x.off + x.len ≤ y.off) || decide (y.off + y.len ≤ x.off)) && sectsApart l

/-- Header and section table obey R334 (R338, step 2). -/
def State.headerOk (s : State) : Bool :=
  let len := s.imgNat 8 8
  let n := s.imgNat 0x1A 2
  s.imgNat 0 4 == 0x49564346 && s.imgNat 4 2 == 1 && decide (s.imgNat 6 2 < 8) && len % 8 == 0 &&
    decide (len ≤ 0x10000000) && decide (5376 ≤ len) && s.imgNat 0x10 8 + 5376 == len && decide (s.imgNat 0x18 2 ≤ 64) &&
    decide (1 ≤ n) && decide (n ≤ 64) && s.imgNat 0x20 32 == 0 &&
    s.imgSects.all (fun x => x.off % 8 == 0 && decide (0x40 + 32 * n ≤ x.off) && decide (x.off + x.len ≤ len - 5376)) &&
    sectsApart s.imgSects

/-- Bytes 0 to SIG_OFFSET − 1, over which the image digest D is formed (R336). -/
def State.imgSigned (s : State) : List Byte := memRead 0xFF 0 (s.imgNat 0x10 8) s.trust.flash

/-- The bytes of a 512-bit digest. -/
def digestBytes (d : BitVec 512) : List Byte := natLe 64 d.toNat

/-- The owner's public keys in the signature block (R336). -/
def State.imgKeyEd (s : State) : List Byte := memRead 0xFF (s.imgNat 0x10 8 + 0xD30) 32 s.trust.flash
def State.imgKeyMl (s : State) : List Byte := memRead 0xFF (s.imgNat 0x10 8 + 0xD50) 1952 s.trust.flash

/-- The bytes of the FIRMWARE section. -/
def State.imgFirmware (s : State) : List Byte := (s.sectsOf 1).flatMap s.sectBytes

/-! ### The content check (R335, R336) -/

/-- The (address, value) entries of the REGISTERS sections, in section order and entry order (R335). -/
def entryPairs : List Word → List (Word × Word)
  | a :: v :: r => (a, v) :: entryPairs r
  | _ => []

/-- The REGISTERS entries of the image. -/
def State.imgEntries (s : State) : List (Word × Word) :=
  (s.sectsOf 2).flatMap (fun x => entryPairs (wordsOf (s.sectBytes x)))

/-- The RO fields with reset 'Image': the rack number of FAB.MOD_ID and THM.SENSOR.ENABLED. -/
def imageRo (a : Nat) : Nat :=
  if a = aFabModId then 0x3F0
  else if aThmSensor 0 ≤ a ∧ a ≤ aThmSensor 123 then 2 ^ 34
  else 0

/-- The bits of a register that a REGISTERS entry sets (R335): its 'Image' fields, and its ST, LK and RW fields. -/
def entryMask (a : Nat) : Nat :=
  match rowOf a with
  | some r => r.st ||| r.lk ||| r.rw ||| imageRo a
  | none => 0

/-- Register values with entries laid over reset, a later one of a register in place of an earlier. -/
def entryValue (es : List (Word × Word)) (a : Nat) : Word :=
  es.foldl (fun v e => if e.1.toNat = a then mergeMask (entryMask a) v e.2 else v) (regReset a)

/-- Whether a REGISTERS entry names an assigned register and sets nothing it may not. -/
def imgEntryOk (es : List (Word × Word)) (e : Word × Word) : Bool :=
  let a := e.1.toNat
  decide (a < 2 ^ 48) && (rowOf a).isSome && (e.2 &&& ~~~(BitVec.ofNat 64 (entryMask a))) == 0 &&
    regCheck (entryValue es) a none == 0

/-- The FIELDS section (R334): 56 bytes, [0] only, memory and attachment fields powered. -/
def fieldsOk (bs : List Byte) : Bool :=
  bs.length == 56 && bs.all (fun b => decide (b.toNat < 2)) && (bs.drop 49).all (fun b => b == 0) &&
    (List.range 49).all (fun n => !(fieldIsMem n || attachFields.contains n) || bs.getD n 0 == 1)

/-- The descriptors of a MANIFEST section. -/
def manifestDescs (bs : List Byte) : List (List Word) :=
  (List.range (bs.length / 128)).map (fun i => wordsOf ((bs.drop (128 * i)).take 128))

/-- CHO_ADDR and CHO_ID of a descriptor (R219). -/
def descChoAddr (d : List Word) : Nat := (wordAt d 4).toNat
def descChoId (d : List Word) : Nat := recFld d 8 63 32

/-- The content check (R336). -/
def State.contentOk (s : State) : Bool :=
  let es := s.imgEntries
  let ids := (s.sectsOf 3).map (fun x => (choIdOf (s.sectBytes x)).toNat)
  s.imgSects.all (fun x => decide (1 ≤ x.type) && decide (x.type ≤ 5)) &&
    (s.sectsOf 1).length == 1 && decide (1 ≤ (s.sectsOf 2).length) && decide ((s.sectsOf 4).length ≤ 1) &&
    decide ((s.sectsOf 5).length ≤ 1) &&
    (s.sectsOf 2).all (fun x => x.len % 16 == 0) && es.all (imgEntryOk es) &&
    (s.sectsOf 5).all (fun x => fieldsOk (s.sectBytes x)) &&
    (s.sectsOf 4).all (fun x => x.len % 128 == 0 && (manifestDescs (s.sectBytes x)).all (fun d =>
      descOp d == 1 && descChoAddr d == 0 && ids.contains (descChoId d)))

/-- The digests of the image's two public keys equal the fused ones (R338, step 4). -/
def State.ownerKeys (s : State) : Bool :=
  Config.digest s.imgKeyEd == s.trust.fuses.ownerEd && Config.digest s.imgKeyMl == s.trust.fuses.ownerMl

/-- The verification of an image from step 4 on (R338); `owned` is false at the end of a provisioning session, where step 4
is skipped (R342). The cause of the first step that fails, as KEEP.STATE.CAUSE codes it; 0 when all pass. -/
def State.verifyCause (s : State) (v : Verify) (owned : Bool) : Nat :=
  if owned && !s.ownerKeys then 3
  else if !v.edOk then 4
  else if !v.mlOk then 5
  else if s.imgNat 0x18 2 < s.trust.fuses.svnMin then 6
  else if !s.contentOk then 7
  else if !v.fwOk then 8
  else 0

end Sys2Proof.Machine
end

