-- ==== Sys2Proof/Machine/Frames.lean ====
section
/-! DEFINITION. The bytes of a frame (R276 to R278, R283): the layout of every control message, the link word, the trailer and its CRC-32, and the flits of the data slots. -/

namespace Sys2Proof.Machine

/-! ### Control messages (R283) -/

/-- The first 4 bytes of a message: TYPE, DEST and SRC. -/
def msgHead (type : Nat) (dest src : BitVec 10) : List Byte := natLe 4 (pack [(0, type), (8, dest.toNat), (18, src.toNat)])

/-- Bytes 4 to 15 of BAR_ARRIVE, BAR_RELEASE and HOLD; `m` stands from bit 6 of byte 8. -/
def barBytes (b : BarMsg) (m : Nat) (attempt step : Nat) : List Byte :=
  natLe 4 b.choId.toNat ++ natLe 4 (pack [(0, b.locDom.toNat), (6, m), (8, attempt), (16, step)]) ++ natLe 4 0

/-- Bytes 8 to 15 of FREEZE, WIN_CLOSE and WIN_CLOSE_ACK. -/
def winBytes (w : WinMsg) (reason closeId : Nat) : List Byte :=
  natLe 4 (pack [(0, w.window.toNat), (12, w.edge.toNat), (16, reason)]) ++ natLe 4 closeId

/-- The 16 bytes of a control message. -/
def msgBytes : CtrlMsg → List Byte
  | .barArrive b => msgHead 0x01 b.dest b.src ++ barBytes b b.mark.toNat b.attempt.toNat b.step.toNat
  | .barRelease b => msgHead 0x02 b.dest b.src ++ barBytes b b.mark.toNat b.attempt.toNat b.step.toNat
  | .hold b begins => msgHead 0x03 b.dest b.src ++ barBytes b (b2n begins) 0 0
  | .freeze w => msgHead 0x04 w.dest w.src ++ natLe 4 (pack [(0, w.tile.toNat), (16, w.tenant.toNat)]) ++ winBytes w w.reason.toNat 0
  | .winClose w => msgHead 0x05 w.dest w.src ++ natLe 4 0 ++ winBytes w 0 w.closeId.toNat
  | .winCloseAck w => msgHead 0x06 w.dest w.src ++ natLe 4 0 ++ winBytes w 0 w.closeId.toNat
  | .sync src dest response t2 => msgHead 0x07 dest src ++ natLe 4 (b2n response) ++ natLe 8 t2.toNat
  | .syncRes src dest residence => msgHead 0x08 dest src ++ natLe 4 residence.toNat ++ natLe 8 0
  | .lane src dest wavelength action seq =>
    msgHead 0x09 dest src ++ natLe 4 (pack [(0, wavelength.toNat), (4, action.toNat)]) ++ natLe 8 seq.toNat
  | .heartbeat src dest term role => msgHead 0x0A dest src ++ natLe 4 term.toNat ++ natLe 8 role.toNat
  | .join src dest count slot => msgHead 0x0B dest src ++ natLe 4 count.toNat ++ natLe 8 slot.toNat

/-! ### The frame (R277, R278) -/

/-- The 16 bytes of the link word. -/
def linkWord (f : Frame) : List Byte := natLe 8 f.valid.toNat ++ natLe 8 (pack [(0, f.credit.toNat), (16, f.lanes.toNat)])

/-- The 64 flits of a frame: the control slot and the 63 data slots. An empty message is 16 bytes of zero. -/
def frameFlits (f : Frame) : List Byte :=
  linkWord f ++ f.msgs.toList.flatMap (fun m => (m.map msgBytes).getD (List.replicate 16 0)) ++
    f.slots.toList.flatMap (fun d => d.bytes.toList)

/-- Trailer bits [31:0]. -/
def trailerLow (f : Frame) : List Byte := natLe 4 (pack [(0, f.seq.toNat), (12, f.ack.toNat), (24, b2n f.nak)])

/-- One bit of the reflected CRC-32 of IEEE 802.3. -/
def crcBit (c : Nat) : Nat := if c % 2 = 1 then (c / 2) ^^^ 0xEDB88320 else c / 2

/-- One byte of the CRC. -/
def crcByte (c : Nat) (b : Byte) : Nat := crcBit (crcBit (crcBit (crcBit (crcBit (crcBit (crcBit (crcBit (c ^^^ b.toNat))))))))

/-- The IEEE 802.3 CRC-32 of a byte string: the reflected polynomial 0xEDB88320, begun with ones and complemented at the end.
PRESUMED (notes/assumptions/172.md): the spec names the CRC and does not write it out. -/
def crc32 (bs : List Byte) : BitVec 32 := BitVec.ofNat 32 (bs.foldl crcByte 0xFFFFFFFF ^^^ 0xFFFFFFFF)

/-- The CRC that a frame must carry: over its 64 flits and trailer bits [31:0]. -/
def frameCrc (f : Frame) : BitVec 32 := crc32 (frameFlits f ++ trailerLow f)

/-- The 8,200 bytes of a frame (R276). -/
def frameBytes (f : Frame) : List Byte := frameFlits f ++ trailerLow f ++ natLe 4 f.crc.toNat

/-- A frame with the CRC that it must carry. -/
def sealFrame (f : Frame) : Frame := { f with crc := frameCrc f }

/-! ### Data slots (R276, R281) -/

/-- A flit as a data slot carries it, with its parity (R281). -/
def flitSlot (f : Flit) : DataFlit :=
  { bytes := Vector.ofFn (fun i => f.bytes.getD i 0), bad := BitVec.ofNat 128 (f.bad.foldl (fun n i => n ||| 2 ^ i) 0) }

/-- The flit of a data slot. -/
def slotFlit (d : DataFlit) : Flit :=
  { bytes := d.bytes.toList, bad := (List.range 128).filter (fun i => d.bad.getLsbD i), kind := .remote }

/-- The flits of a frame: those of its valid data slots, in order (R277). -/
def validFlits (f : Frame) : List Flit :=
  (f.slots.toList.zipIdx.filter (fun e => f.valid.getLsbD e.2)).map (fun e => slotFlit e.1)

/-- The data slots of a frame that carries the given flits, at most 63, in its first slots; the bytes of an invalid slot are
free values. -/
def fillSlots (ctr : Nat) (l : List Flit) : Vector DataFlit 63 :=
  Vector.ofFn (fun i => match l[i.val]? with
    | some f => flitSlot f
    | none => { bytes := Vector.ofFn (fun j => Config.idleByte ctr (128 * i.val + j.val)) })

end Sys2Proof.Machine
end

