-- ==== Sys2Proof/Machine/FabPorts.lean ====
section
/-! DEFINITION. The tensor ports (R275 to R285, R298): FRAME_RECEIVE, FRAME_SEND, training and retraining, faulty wavelengths and the spare, LANE. -/

namespace Sys2Proof.Machine

/-- Whether any carrying port reaches a module. -/
def State.reaches (s : State) (m : Nat) : Bool := s.fab.ports.any (fun e => portCarries e.2 && e.2.peer.toNat == m)

/-- A port goes DOWN and retrains (R280, R282); no wavelength of it carries traffic meanwhile (R306). -/
def State.portDown (s : State) (t : Nat) : State :=
  let p := s.port t
  let s := (s.setPort t { p with state := 5, lanes := 0, retried := 0, retrains := 0, faultLane := none }).bump (aTnpLinkDownCnt t)
  if s.reaches p.peer.toNat then s else { s with fab.joined := natDel p.peer.toNat s.fab.joined }

/-- Whether SEQ a lies in the retry buffer's frames up to and with an acknowledged SEQ. -/
def ackCovers (ack a : BitVec 12) : Bool := decide ((ack - a).toNat < 2048)

/-- The sender side of an arriving trailer (R280): frames an ACK covers leave the retry buffer; a NAK starts go-back-N, and
the sixteenth retry in succession takes the port DOWN unless a lane fault is pending. -/
def State.takeAck (s : State) (t : Nat) (ack : BitVec 12) (nak : Bool) : State :=
  let p := s.port t
  let left := p.sent.filter (fun f => !ackCovers ack f.seq)
  let moved := decide (left.length < p.sent.length)
  let p := { p with
    sent := left, resend := p.resend.filter (fun f => !ackCovers ack f.seq), retried := if moved then 0 else p.retried }
  if !nak || left.isEmpty then s.setPort t p
  else
    let p := { p with resend := left, retried := p.retried + 1 }
    let s := (s.setPort t p).bump (aTnpRetryCnt t)
    if 16 ≤ p.retried ∧ p.state ≠ 4 then s.portDown t else s

/-- A control message of an arriving frame (R299): one for another module is dropped and counted, unless this rack manager
relays it; the effect of one for this module is the command of its own TYPE. -/
def State.msgArrive (s : State) (m : CtrlMsg) : State :=
  if msgDest m = s.modNumber then s
  else if s.isManager && msgClass m == 0 then s.ctrlSend m
  else s.bump aFabMisrouteCnt

/-- FRAME_RECEIVE (R277 to R281): a frame that fails its CRC or breaks the sequence is discarded and answered with NAK; else
its link word and trailer are taken and its flits enter the receive buffer, with their parity. -/
def execFrameReceive (port : BitVec 7) (f : Frame) (s : State) : Host.Outcome State Fault Refusal :=
  let t := port.toNat
  if !portCarries (s.port t) then .next s
  else
    let s := s.bumpBy (aTnpFecCorrCnt t) f.fecCorr
    let p := s.port t
    if f.crc ≠ frameCrc f then .next ((s.setPort t { p with nak := true }).bump (aTnpCrcErrCnt t))
    else if f.seq ≠ p.rxSeq + 1 then .next (s.setPort t { p with nak := true })
    else
      let s := s.setPort t { p with rxSeq := f.seq, nak := false, credit := f.credit, rx := p.rx ++ validFlits f }
      .next ((f.msgs.toList.filterMap id).foldl State.msgArrive (s.takeAck t f.ack f.nak))

/-! ### Sending (R276 to R283, R304) -/

/-- Data flits that a port may still send against credit (R279): the peer's buffer holds 2,016. -/
def portCredit (p : Port) : Nat := 2016 - (p.used - p.credit).toNat

/-- Class-2 messages for the room left in a slot: SYNC_RES follows its SYNC response in the same slot (R283), so a response
whose SYNC_RES has no room waits with it. -/
def syncWhole (q : List CtrlMsg) (k : Nat) : Nat :=
  match q[k - 1]? with
  | some (.sync _ _ true _) => k - 1
  | _ => k

/-- Messages as they leave: the residence of a SYNC_RES is the counter now, less the T2 of the response before it (R304). -/
def stampMsgs (now : Word) : List CtrlMsg → List CtrlMsg
  | .sync src dest true t2 :: .syncRes rs rd _ :: r =>
    .sync src dest true t2 :: .syncRes rs rd (BitVec.ofNat 32 (now - t2).toNat) :: stampMsgs now r
  | m :: r => m :: stampMsgs now r
  | [] => []

/-- Whether a message is a SYNC request. -/
def isSyncRequest : CtrlMsg → Bool
  | .sync _ _ response _ => !response
  | _ => false

/-- A SYNC request that leaves by the port of the exchange gives t1 (R304). -/
def State.noteSync (s : State) (t : Nat) (l : List CtrlMsg) : State :=
  if s.fab.syncPort = some t ∧ l.any isSyncRequest then { s with fab.syncT1 := s.fcount } else s

/-- A frame of the retry buffer leaves again, its trailer with the ACK and NAK of now (R280). -/
def State.frameAgain (s : State) (t : Nat) (f : Frame) (rest : List Frame) : State :=
  let p := s.port t
  let g := sealFrame { f with ack := p.rxSeq, nak := p.nak }
  s.setPort t { p with resend := rest, nak := false, sent := p.sent.map (fun x => if x.seq = f.seq then g else x) }

/-- A new frame leaves: the control slot takes up to seven messages, class 0 first, and the data slots flits against credit.
Class-0 messages that stay behind are counted once. -/
def State.frameNew (s : State) (t : Nat) : State :=
  let p := s.port t
  let k0 := min 7 p.class0.length
  let k1 := min (7 - k0) p.class1.length
  let k2 := syncWhole p.class2 (min (7 - k0 - k1) p.class2.length)
  let n := min 63 (min (portCredit p) p.tx.length)
  let msgs := stampMsgs s.fcount (p.class0.take k0 ++ p.class1.take k1 ++ p.class2.take k2)
  let f := sealFrame {
    fecCorr := 0, valid := BitVec.ofNat 63 (2 ^ n - 1), credit := p.freed, lanes := p.lanes
    msgs := Vector.ofFn (fun i => msgs[i.val]?), slots := fillSlots s.freeCtr (p.tx.take n)
    seq := p.txSeq, ack := p.rxSeq, nak := p.nak, crc := 0 }
  let left := p.class0.length - k0
  let s := (s.noteSync t msgs).tickFree.bumpBy (aTnpCtrlWaitCnt t) (left - (p.waited - k0))
  (s.setPort t { p with
    txSeq := p.txSeq + 1, nak := false, sent := p.sent ++ [f], used := p.used + BitVec.ofNat 16 n, tx := p.tx.drop n
    class0 := p.class0.drop k0, class1 := p.class1.drop k1, class2 := p.class2.drop k2, waited := left }).ctrlRetry

/-- FRAME_SEND (R276 to R283): one frame leaves. Frames that wait to be resent go first; else a new one goes while the retry
buffer has room. With 64 frames unacknowledged none leaves, and a NAK waits for the next. DESIGN CHOICE
(notes/assumptions/173.md). -/
def execFrameSend (port : BitVec 7) (s : State) : Host.Outcome State Fault Refusal :=
  let t := port.toNat
  let p := s.port t
  if !portCarries p then .next s
  else
    match p.resend with
    | f :: rest => .next (s.frameAgain t f rest)
    | [] => .next (if 64 ≤ p.sent.length then s else s.frameNew t)

/-! ### Training (R280, R298) -/

/-- PORT_TRAINING_DONE (R275, R298): the port is up on the wavelengths left to it and knows its peer; a peer that R297 does not
wire there is counted and logged. With fewer than 7 wavelengths on a fibre it cannot train. DEDUCED
(notes/assumptions/174.md). -/
def execPortTrainingDone (port : BitVec 7) (peer : BitVec 10) (peerPort : BitVec 7) (s : State) :
    Host.Outcome State Fault Refusal :=
  let t := port.toNat
  let p := s.port t
  if p.state ≠ 1 ∨ portLanes p < 7 then .next s
  else
    let s := s.setPort t { portStriped p with
      peer, peerPort, txSeq := 0, rxSeq := 0xFFF, credit := 0, used := 0, freed := 0, retried := 0, retrains := 0 }
    let own := s.modNumber
    let good := portUplink t ||
      (peer.toNat == rackOf own * 16 + wiredSlot (slotOf own) t && peerPort.toNat == wiredPort t)
    let s := if good then s else (s.bump aFabMiswireCnt).fault 6 none none t
    .next s.ctrlRetry

/-- PORT_RETRAIN_DONE (R280): a port that is DOWN comes up and resends what no ACK covers, or, after the third failure, is
retired. Fewer than 7 wavelengths on a fibre are a failure. DEDUCED (notes/assumptions/174.md). -/
def execPortRetrainDone (port : BitVec 7) (ok : Bool) (s : State) : Host.Outcome State Fault Refusal :=
  let t := port.toNat
  let p := s.port t
  if p.state ≠ 5 then .next s
  else if ok && decide (7 ≤ portLanes p) then
    let s := s.setPort t { portStriped p with resend := p.sent, retried := 0, retrains := 0 }
    .next (if p.sent.isEmpty then s else s.bump (aTnpRetryCnt t)).ctrlRetry
  else if p.retrains < 2 then .next (s.setPort t { p with retrains := p.retrains + 1 })
  else .next (((s.setPort t { p with state := 6, retrains := 3 }).bump (aTnpLinkDownCnt t)).journal 0x1A t)

/-! ### Wavelengths (R282) -/

/-- Both ends of a link know of a faulty wavelength of one fibre, which is taken out and journaled: the fault is pending until
they restripe. A port that runs on 7 wavelengths, or has a fault pending, has none to spare and goes DOWN. -/
def State.laneFault (s : State) (t : Nat) (wave : BitVec 4) (tx : Bool) (seq : BitVec 12) : State :=
  let p := s.port t
  let b := BitVec.ofNat 9 (2 ^ wave.toNat)
  let q := if tx then { p with badTx := p.badTx ||| b } else { p with badRx := p.badRx ||| b }
  let s := (s.setPort t q).journal 0x19 (pack [(0, t), (7, wave.toNat)])
  if p.state = 2 then s.setPort t { q with state := 4, faultLane := some wave, switchSeq := seq } else s.portDown t

/-- WAVELENGTH_FAULT (R282 orders 1 and 2): the receiver counts the fault and sends LANE on the same port. The switch SEQ
that it names is a free value: R282 states none. -/
def execWavelengthFault (port : BitVec 7) (wavelength : BitVec 4) (s : State) : Host.Outcome State Fault Refusal :=
  let t := port.toNat
  let p := s.port t
  if !portCarries p then .next s
  else
    let seq := BitVec.ofNat 12 (fld (Config.fresh s.freeCtr) 11 0)
    let s := (s.tickFree.bump (aTnpLaneFaultCnt t)).laneFault t wavelength false seq
    .next (s.ctrlSendOn t [.lane (BitVec.ofNat 10 s.modNumber) p.peer wavelength 0 seq])

/-- LANE (R282): the peer names a faulty wavelength of this port's transmit fibre, a switch SEQ, or its spare as ready. -/
def execLane (port : BitVec 7) (wavelength action : BitVec 4) (switchSeq : BitVec 12) (s : State) :
    Host.Outcome State Fault Refusal :=
  let t := port.toNat
  let p := s.port t
  if !portCarries p then .next s
  else
    match action.toNat with
    | 0 => .next (s.laneFault t wavelength true switchSeq)
    | 1 => .next (s.setPort t { p with switchSeq })
    | 2 => .next (if p.state = 3 ∧ !p.spare then s.setPort t { p with spareReady := true, switchSeq } else s)
    | _ => .next s

/-- LANE_RESTRIPE (R282 orders 3 and 5): at the switch SEQ the port runs on the wavelengths left, or takes the spare, trained
behind the traffic, too. -/
def execLaneRestripe (port : BitVec 7) (s : State) : Host.Outcome State Fault Refusal :=
  let t := port.toNat
  let p := s.port t
  if p.state = 4 then .next (s.setPort t (portStriped p))
  else if p.state = 3 ∧ p.spareReady then .next (s.setPort t (portStriped { p with spare := true }))
  else .next s

/-- SPARE_WAVELENGTH_READY (R282 order 4): the spare has been trained behind the traffic, and the peer is told. A spare in
use already leaves the port on 7 wavelengths. -/
def execSpareWavelengthReady (port : BitVec 7) (s : State) : Host.Outcome State Fault Refusal :=
  let t := port.toNat
  let p := s.port t
  if p.state ≠ 3 ∨ p.spare then .next s
  else
    let seq := BitVec.ofNat 12 (fld (Config.fresh s.freeCtr) 11 0)
    let s := s.tickFree.setPort t { p with spareReady := true, switchSeq := seq }
    .next (s.ctrlSendOn t [.lane (BitVec.ofNat 10 s.modNumber) p.peer 8 2 seq])

end Sys2Proof.Machine
end

