-- ==== Sys2Proof/Machine/Loading.lean ====
section
/-! DEFINITION. The commands of weight loading (R217 to R241, R263, R264): jobs from the load ring and the repertoire manifest, shards, programming requests, the promenade's front, unloading, erasing, and stack data that returns to the engines. -/

namespace Sys2Proof.Machine

/-- The number of the load ring. -/
def loadRing : Nat := 512

/-- Take a descriptor whose OP a command serves (R218): from the head of the load ring while the job list has room, or a job of
the manifest that has not run, once the start sequence has reached the repertoire load (R238, R345); waiting jobs that may
start do. -/
def State.takeJob (s : State) (serves : Nat → Bool) (src : JobSrc) (env : JobEnv) : State :=
  if s.engineWaits || decide (256 ≤ s.load.jobs.length) then s
  else
    match src with
    | .ring =>
      let d := (wordsOf (s.ringHead loadRing)).take 16
      if s.ringHolds loadRing = 0 ∨ !serves (descOp d) then s
      else
        let s := (s.headTouch loadRing).ringPop loadRing
        ({ s with load.jobs := s.load.jobs ++ [{ src, desc := d, env, phase := .waiting }] } : State).jobsPump 300
    | .manifest m =>
      match s.load.manifest[m]? with
      | none => s
      | some d =>
        if s.rfld aKeepState 4 0 != 16 || !serves (descOp d) || !s.load.left.contains m || s.load.jobs.any (fun j => j.src == src) then s
        else ({ s with load.jobs := s.load.jobs ++ [{ src, desc := d, env, phase := .waiting }] } : State).jobsPump 300

/-- What an operation without lists reads from the host: nothing. -/
def noEnv : JobEnv := { read := .data, shards := [], placements := [], stages := [], image := [] }

/-- LOAD_MODEL (R220, R228, R238): takes the descriptor and loads an instance. A descriptor with an unknown OP is taken here
and refused with FORMAT. -/
def execLoadModel (src : JobSrc) (env : JobEnv) (s : State) : Host.Outcome State Fault Refusal :=
  .next (s.takeJob (fun op => op == 1 || op == 0 || decide (8 < op)) src env)

/-- REPLACE (R229, R232): replaces a serving instance's weights by a promenade. -/
def execReplace (env : JobEnv) (s : State) : Host.Outcome State Fault Refusal := .next (s.takeJob (fun op => op == 2) .ring env)

/-- REPAIR (R236): supplies replacement shards for a parked job. -/
def execRepair (env : JobEnv) (s : State) : Host.Outcome State Fault Refusal := .next (s.takeJob (fun op => op == 3) .ring env)

/-- ABORT_PROM (R236): turns a parked job into a rollback. -/
def execAbortProm (s : State) : Host.Outcome State Fault Refusal := .next (s.takeJob (fun op => op == 4) .ring noEnv)

/-- UNLOAD (R237): drains an instance before its choreography is unloaded. -/
def execUnload (s : State) : Host.Outcome State Fault Refusal := .next (s.takeJob (fun op => op == 5) .ring noEnv)

/-- PURGE (R237): as UNLOAD, then erases the arrays, or the orphaned arrays of an EMPTY instance. -/
def execPurge (s : State) : Host.Outcome State Fault Refusal := .next (s.takeJob (fun op => op == 6) .ring noEnv)

/-- ADAPTER (R227): loads one adapter into an adapter region. -/
def execAdapter (env : JobEnv) (s : State) : Host.Outcome State Fault Refusal := .next (s.takeJob (fun op => op == 7) .ring env)

/-- GRAMMAR (R263, R264): loads one grammar automaton, waiting while its number has users. -/
def execGrammar (env : JobEnv) (s : State) : Host.Outcome State Fault Refusal := .next (s.takeJob (fun op => op == 8) .ring env)

/-- Whether a grammar header is well formed (R263). -/
def grammarOk (bs : List Byte) : Bool :=
  let w := (wordsOf bs).take 8
  recFld w 0 31 0 == 0x4752414D && recFld w 0 47 32 == 1 && recFld w 0 63 48 == 0 &&
    decide (1 ≤ recFld w 1 20 0) && decide (recFld w 1 20 0 ≤ 1048576) && decide (recFld w 1 37 21 ≤ 65536) &&
    decide (1 ≤ recFld w 1 56 38) && decide (recFld w 1 56 38 ≤ 262144) &&
    (wordAt w 2).toNat % 128 == 0 && (wordAt w 3).toNat % 128 == 0 && (wordAt w 4).toNat % 128 == 0 &&
    (wordAt w 5).toNat == bs.length

/-- The object that a GRAMMAR job's shards make up. -/
def gramObject (j : Job) : List Byte :=
  let parts := (List.range j.env.shards.length).map (fun k => (shOffset (j.env.shards.getD k []), kvGet [] k j.held))
  memRead 0 0 (parts.foldl (fun m e => max m (e.1 + e.2.length)) 0) (parts.foldl (fun m e => memWrite 0 e.1 e.2 m) [])

/-- A load engine writes outside its job's regions or to a page of another tenant (R353): nothing is written, the engine
freezes and its running jobs halt. -/
def State.engineViolate (s : State) (e tag a : Nat) : State :=
  (s.freezeMaster 4 e tag).violEntry 4 e tag 4 a

/-- Whether a load engine may write a byte range for a job (R353): inside regions of the kind, and of the job's tenant. -/
def State.engineMay (s : State) (j : Job) (kind a n : Nat) : Bool := s.inKind kind a n && s.inTenant (descTenant j.desc) a n

/-- GRAMMAR_JOB_WRITE (R263, R264): once its number has no users, the GRAMMAR job of an instance whose shards have come writes its object,
and SRV.GRAM names it at the FINAL; a malformed header is refused with FORMAT. -/
def execGrammarJobWrite (g : BitVec 6) (inst : BitVec 10) (s : State) : Host.Outcome State Fault Refusal :=
  match s.load.jobs.findIdx? (fun j => descOp j.desc == 8 && descObject j.desc == g.toNat && descInst j.desc == inst.toNat &&
    j.phase == .grammarWait) with
  | none => .next s
  | some n =>
    match s.load.jobs[n]? with
    | none => .next s
    | some j =>
      let a := descShadow j.desc
      let e := shEngine (j.env.shards.getD 0 [])
      let bad := (List.range j.env.shards.length).find? (fun k =>
        !s.engineMay j 4 (a + shOffset (j.env.shards.getD k [])) (kvGet [] k j.held).length)
      if s.engineWaits || (s.gramRec g.toNat).users != 0 || j.fetched.length != j.env.shards.length || s.frozenAt 4 e then .next s
      else if !grammarOk (gramObject j) then .next ((s.jobRefuse n 1 0).jobsPump 300)
      else
        match bad with
        | some k => .next (s.engineViolate e (descTenant j.desc) (a + shOffset (j.env.shards.getD k [])))
        | none =>
          let s := (List.range j.env.shards.length).foldl (fun s k =>
            let r := j.env.shards.getD k []
            s.engineWrite (shEngine r) (a + shOffset r) (kvGet [] k j.held)) s
          .next ((s.setJob n { j with phase := .writing }).jobsPump 300)

/-! ### Shards (R225, R234) -/

/-- The bytes of placement entry k's shadow record. -/
def jobRecord (j : Job) (k : Nat) : Nat := shadowAt (descShadow j.desc) k

/-- Whether a manifest job's array already holds its weights, verified within 72 h (R82, R238); while the calendar is not
valid every array is older (R373). -/
def State.arrayFresh (s : State) (j : Job) (e : Placed) : Option Nat :=
  match j.src, s.physOf e.tile e.larr with
  | .manifest _, some p =>
    let x := s.arrayRec e.tile p
    if x.gen.toNat = descGen j.desc ∧ x.inst.toNat = descInst j.desc ∧ s.rbit aLedgStatus 0 ∧ s.calendar < x.verify.toNat + 72 * 3600 ∧
        (x.state = 0 ∨ x.state = 5) then some p else none
  | _, _ => none

/-- The records of a shard are written (R225), by their engine: excess outliers are noted, and an array that holds its weights
already is to be refreshed (R82, R238). -/
def State.shardRecords (s : State) (n : Nat) (j : Job) (shard : Nat) (r : List Word) (bs : List WBlock) : State :=
  let mine := j.placed.filter (fun e => e.shard == shard)
  let lists := j.env.placements.getD shard []
  let s := ((mine.zip bs).zip lists).foldl (fun s e =>
    s.engineWrite (shEngine r) (jobRecord j e.1.1.k)
      (recordBytes e.2 (descInst j.desc) (descGen j.desc) (descTenant j.desc) r e.1.2)) s
  let excess := (bs.map (fun b => b.excess)).foldl (· + ·) 0
  (s.setJob n { j with fetched := j.fetched ++ [shard], ovf := kvPut 0 shard excess j.ovf }).loadFinish n

/-- The first shadow record of a shard that its engine may not write. -/
def State.shardTrespass (s : State) (j : Job) (shard : Nat) : Option Nat :=
  ((j.placed.filter (fun e => e.shard == shard)).map (fun e => jobRecord j e.k)).find? (fun a => !s.engineMay j 1 a recordLen)

/-- The source bytes of a shard, as its engine takes them, and whether all passed parity: those of a shard in HDM staging come
out of the stacks (R221, R225). -/
def State.shardSource (s : State) (r : List Word) (data : ShardData) : State × List Byte × Bool :=
  if shHost r then (s, data.bytes, data.parity)
  else
    let a := (wordAt r 0).toNat
    (s.hdmTouch a (shLength r), (s.hdmBytes a (shLength r)).getD [], s.hdmGood a (shLength r) && data.parity)

/-- SHARD_FETCH_COMPLETE (R222, R223, R225, R234): a shard's data has come. Data that failed parity or decoding, or has the
wrong length, fails the attempt; a non-finite value or scale refuses the shard with SCALE_RANGE. -/
def execShardFetchComplete (inst : BitVec 10) (shard : Nat) (data : ShardData) (s : State) :
    Host.Outcome State Fault Refusal :=
  match s.fetchJob inst.toNat shard with
  | none => .next s
  | some (n, j) =>
    let r := j.env.shards.getD shard []
    let op := descOp j.desc
    let e := shEngine r
    let tag := descTenant j.desc
    if s.engineWaits || s.frozenAt 4 e then .next s
    else
      let src := s.shardSource r data
      let s := src.1
      let content := if shComp r = 1 then zFrame src.2.1 data.frame else some src.2.1
      match if src.2.2 && src.2.1.length == shLength r then content else none with
      | none => .next ((s.attemptFail n shard).jobsPump 300)
      | some bytes =>
        if op != 8 && bytes.length != shBytes r then .next ((s.attemptFail n shard).jobsPump 300)
        else
          let s := s.bumpBy aLoadIngestByteCnt bytes.length
          match op with
          | 7 => match adapterBytes r bytes with
            | none => .next ((s.jobEnd n 7 0 shard 0).jobsPump 300)
            | some bs =>
              let a := descShadow j.desc + shOffset r
              if !s.engineMay j 3 a bs.length then .next (s.engineViolate e tag a)
              else
                let s := s.engineWrite e a bs
                .next ((s.setJob n { j with fetched := j.fetched ++ [shard] }).jobsPump 300)
          | 8 => .next (s.setJob n { j with fetched := j.fetched ++ [shard], held := kvSet shard bytes j.held })
          | _ => match quantShard r bytes with
            | none => .next ((s.shardLost n shard 7).jobsPump 300)
            | some bs =>
              match s.shardTrespass j shard with
              | some a => .next (s.engineViolate e tag a)
              | none => .next ((s.shardRecords n j shard r bs).jobsPump 300)

/-- SHARD_DEADLINE_EXPIRE (R234): a shard that is not complete DEADLINE_MS after its attempt started fails the attempt. -/
def execShardDeadlineExpire (inst : BitVec 10) (shard : Nat) (s : State) : Host.Outcome State Fault Refusal :=
  match s.fetchJob inst.toNat shard with
  | none => .next s
  | some (n, j) =>
    let ms := if recFld j.desc 3 47 32 = 0 then 250 else recFld j.desc 3 47 32
    if s.engineWaits || s.frozenAt 4 (shEngine (j.env.shards.getD shard [])) || decide (s.clock < kvGet 0 shard j.since + 1000 * ms) then .next s
    else .next ((s.attemptFail n shard).jobsPump 300)

/-! ### Programming (R76, R79, R229) -/

/-- Request programming of placement entry k of a job from a record (R75, R76, R79); an array whose spare is on its way waits
for it, and one that holds the job's weights already is to be refreshed (R82, R238). -/
def State.requestEntry (s : State) (n : Nat) (j : Job) (k : Nat) (e : Placed) (a : Nat) : State :=
  match s.physOf e.tile e.larr with
  | none => s
  | some p =>
    if s.progAsked e.tile p || s.sparePending e.tile p then s
    else
      let fresh := j.phase == .fetching && (s.arrayFresh j e).isSome
      let s := (s.sideWrite a e).setJob n { j with todo := j.todo.filter (fun x => x != k), busy := j.busy ++ [k] }
      let x := s.arrayRec e.tile p
      let i := BitVec.ofNat 10 (descInst j.desc)
      if fresh then s.setArray e.tile p { x with state := 0, recheck := true }
      else if x.state = 4 then s.tileLost e.tile
      else if 100000000 ≤ x.cycles.toNat then (s.bump aRepArrayWornCnt).replaceArray e.tile p 5 (some (a, i))
      else s.progAsk { tile := e.tile, p, record := a, inst := i, why := .load }

/-- Whether placement entry k of a job may be programmed: its record is written, in a promenade every record of its stage
(R232), and the stages that own its tile and its vector tile are held or not yet started (R224, R229). -/
def State.entryReady (s : State) (i : Nat) (j : Job) (e : Placed) : Bool :=
  let written := fun (x : Placed) => j.fetched.contains x.shard && !s.writeWaits (jobRecord j x.k) recordLen
  let mates := if descOp j.desc = 2 then
      (s.instDoms i).flatMap (fun d => if (s.dom d).members.contains e.tile then
        j.placed.filter (fun x => (s.dom d).members.contains x.tile) else [])
    else []
  let v := groupVector e.tile
  (e :: mates).all written && s.stageStill (s.domOf e.tile) && ((s.tile v).dom.isNone || s.stageStill (s.domOf v))

/-- ARRAY_PROGRAM_REQUEST (R76, R79, R229, R233, R235): the engine requests programming of placement entry k of an instance's
job, once its record is written and the stages it touches are held or not yet started. A record with an uncorrectable error
has its shard fetched again. -/
def execArrayProgramRequest (inst : BitVec 10) (k : Nat) (s : State) (ecc : Ecc := .clean) : Host.Outcome State Fault Refusal :=
  let i := inst.toNat
  match s.jobOf i with
  | none => .next s
  | some n =>
    match s.load.jobs[n]? with
    | none => .next s
    | some j =>
      let x := s.inst i
      let back := j.phase == .rollback
      let run := match j.phase with
        | .fetching => descOp j.desc == 1
        | .programming | .rollback => true
        | _ => false
      match (if back then x.placed else j.placed)[k]? with
      | none => .next s
      | some e =>
        let a := if back then shadowAt x.shadow k else jobRecord j k
        let ready := if back then (s.instDoms i).all (fun d => s.stageStill d) else s.entryReady i j e
        if s.engineWaits || !run || !j.todo.contains k || !ready then .next s
        else
          let s := (s.tagWait (stackOf a) 272).eccNote a ecc none none
          if !back && (ecc == .uncorrectable || s.recordPoison a) then
            let s := if ecc == .uncorrectable || s.stackOffline (stackOf a) then s else s.eccNote a .uncorrectable none none
            .next (s.attemptFail n e.shard)
          else .next (s.requestEntry n j k e a)

/-- STAGE_PROGRAMMED (R220, R229, R235): a held stage's arrays are all programmed, the front moves, and the promenade commits
after the last stage; a LOAD_MODEL or a rollback ends once nothing is left to program. -/
def execStageProgrammed (inst : BitVec 10) (stage : BitVec 6) (s : State) : Host.Outcome State Fault Refusal :=
  let i := inst.toNat
  let k := stage.toNat
  match s.jobOf i with
  | none => .next s
  | some n =>
    match s.load.jobs[n]? with
    | none => .next s
    | some j =>
      if s.engineWaits then .next s
      else match j.phase with
        | .fetching => .next ((s.loadFinish n).jobsPump 300)
        | .rollback =>
          if j.todo.isEmpty && j.busy.isEmpty && (s.instDoms i).all (fun d => s.stageStill d) then
            .next ((s.rollbackFinish n).jobsPump 300)
          else .next s
        | .programming =>
          let x := s.inst i
          let mine := s.stageEntries i k j.placed
          let held := match s.stageDom i k with
            | some d => s.domHeld d
            | none => false
          let clean := mine.all (fun e => !j.todo.contains e && !j.busy.contains e)
          if x.state ≠ 4 ∨ x.done.contains k ∨ !held ∨ !clean then .next s
          else
            let s := (s.setInst i { x with done := x.done ++ [k] }).frontMove i 65
            if (s.inst i).passed.length = x.stages.length ∧ jobDone j then .next ((s.promCommit n).jobsPump 300) else .next s
        | _ => .next s

/-- PROMENADE_ADMISSION_STOP (R229): every new record of a STAGED REPLACE is written; the instance goes to PROMENADE and its
stages are held behind the last old step. -/
def execPromenadeAdmissionStop (inst : BitVec 10) (s : State) : Host.Outcome State Fault Refusal :=
  let i := inst.toNat
  match s.jobOf i with
  | none => .next s
  | some n =>
    match s.load.jobs[n]? with
    | none => .next s
    | some j =>
      if descOp j.desc ≠ 2 ∨ j.phase ≠ .fetching ∨ (s.inst i).state ≠ 3 ∨ j.fetched.length ≠ j.env.shards.length ∨
          j.placed.any (fun e => s.writeWaits (jobRecord j e.k) recordLen) then .next s
      else .next ((((s.setJob n { j with phase := .programming }).admissionStop i (descCont j.desc)).admissionCheck i).jobsPump 300)

/-- UNLOAD_DRAINED (R237): every stage stands still; the stages are unloaded, the instance is EMPTY, and an UNLOAD ends. A
PURGE erases the arrays and retags the shadow pages first. -/
def execUnloadDrained (inst : BitVec 10) (s : State) : Host.Outcome State Fault Refusal :=
  let i := inst.toNat
  match s.jobOf i with
  | none => .next s
  | some n =>
    match s.load.jobs[n]? with
    | none => .next s
    | some j =>
      let x := s.inst i
      if s.engineWaits || j.phase != .draining || !(s.instDoms i).all (fun d => s.stageStill d) then .next s
      else
        let held := s.instHeld i
        let s := s.instEmpty i
        if descOp j.desc = 5 then .next ((s.jobEnd n 0 0 0 0).jobsPump 300)
        else .next (((s.retagShadow x.shadow x.shadowN).purgeErase n held).jobsPump 300)

/-- ARRAY_ERASE_DONE (R79, R237, R239): an erase of an array ends; it holds no weights and is open to every tenant. The PURGE
ends with its last array. -/
def execArrayEraseDone (tile : TileIx) (p : BitVec 5) (s : State) : Host.Outcome State Fault Refusal :=
  let t := tile.toNat
  match s.progOf t p.toNat with
  | none => .next s
  | some r =>
    let i := r.inst.toNat
    if r.why != .erase || s.engineWaits then .next s
    else
      let x := s.arrayRec t p.toNat
      let s := (s.progEnd t p.toNat).dropWeights t p.toNat
      let s := s.setArray t p.toNat { x with
        state := if x.bound then 0 else 2, suspect := none, cycles := x.cycles + 100, tenant := 0, inst := 0, gen := 0
        lslot := 0 }
      let s := s.journal 0x02 (pack [(0, t), (14, p.toNat)])
      match s.jobOf i with
      | none => .next s
      | some n =>
        match s.load.jobs[n]? with
        | none => .next s
        | some j =>
          if j.phase != .erasing then .next s
          else
            let busy := j.busy.filter (fun k => k != arrKey t p.toNat)
            let s := s.setJob n { j with arrays := j.arrays + 1, busy }
            .next (if busy.isEmpty then (s.jobEnd n 0 0 0 0).jobsPump 300 else s)

/-! ### The stacks' ports (R208 to R210) -/

/-- STACK_REQUEST_ACCEPT (R208, R209): the stack's next request takes a tag, or waits and is counted once. A write
is written and frees its tag, which may end the job that wrote it; a read keeps its tag until its data returns. -/
def execStackRequestAccept (stack : BitVec 5) (s : State) : Host.Outcome State Fault Refusal :=
  let k := stack.toNat
  let x := s.stack k
  match stackNext x with
  | none => .next s
  | some (r, y) =>
    if 2048 ≤ x.busy.length then
      .next (if x.waited then s else (s.setStack k { x with waited := true }).bump aMemTagWaitCnt)
    else
      match r.data with
      | some fs =>
        let src := match r.who with
          | .tile t => some (s.domOf t)
          | .engine => none
        let s := ((s.setStack k { y with waited := false }).loupeStackLand src r.addr (128 * r.flits)).stkFlits r.addr fs
        .next (if r.who = .engine then s.jobsPump 300 else s)
      | none =>
        .next ((s.setStack k { y with busy := y.busy ++ [r], waited := false }).pagesTouch
          false r.addr (128 * r.flits))

/-- STACK_READ_RETURN (R210): the oldest read of a stack that holds a tag returns its data, for a tile by the mesh. -/
def execStackReadReturn (stack : BitVec 5) (ecc : Ecc) (s : State) : Host.Outcome State Fault Refusal :=
  .next (s.readReturn stack.toNat ecc).1

end Sys2Proof.Machine
end

