-- ==== Sys2Proof/Machine/RingPorts.lean ====
section
/-! DEFINITION. The windows of the rings outside the sync blocks (R129 to R136, R312 to R314): RING_APPEND_WRITE, RING_HOLD_ACCEPT, RING_CONSUME_READ and RING_SAFE_POINT. -/

namespace Sys2Proof.Machine

/-! ### Where the windows are (R243, R274) -/

/-- The append window of an address: ring, window number and offset in the window's place. -/
def windowOf (a : Nat) : Option (Nat × Nat × Nat) :=
  if 0x22800000 ≤ a ∧ a < 0x23000000 then
    some ((a - 0x22800000) / 0x8000, (a - 0x22800000) % 0x8000 / 0x1000, (a - 0x22800000) % 0x1000)
  else if 0x21001000 ≤ a ∧ a < 0x21002000 then
    some (loadRing, (a - 0x21001000) / 0x200, (a - 0x21001000) % 0x200)
  else none

/-- The address of a ring's consume window, where the management space has one. -/
def consumeAddr (r : Nat) : Option Nat :=
  if 256 ≤ r ∧ r < 512 then some (0x22400000 + 0x2000 * (r - 256))
  else if r = respRing then some 0x21002000
  else none

/-- The ring and offset of an address in a consume window. -/
def consumeOf (a : Nat) : Option (Nat × Nat) :=
  if 0x22400000 ≤ a ∧ a < 0x22600000 then some (256 + (a - 0x22400000) / 0x2000, (a - 0x22400000) % 0x2000)
  else if 0x21002000 ≤ a ∧ a < 0x21002080 then some (respRing, a - 0x21002000)
  else none

/-! ### Appending (R129 to R132) -/

/-- The bytes of a window's entry: what was not written since its last completion is zero. -/
def State.partEntry (s : State) (r w : Nat) : List Byte := memRead 0 0 (s.ringEsz r) (kvGet [] w (s.ring r).part)

/-- Empty a window's assembly buffer. -/
def State.partClear (s : State) (r w : Nat) : State :=
  s.setRing r { s.ring r with
    part := kvDel w (s.ring r).part
    host := natDel w (s.ring r).host
    waiting := natDel w (s.ring r).waiting }

/-- A window's entry completes: it enters the ring at the tail, is dropped, or waits on a full ring with policy HOLD
(R131, R132). -/
def State.entryDone (s : State) (r w : Nat) : State :=
  if !s.ringEnabled r then (s.partClear r w).bump (aRingDrop r)
  else if s.ringFull r then
    if s.ringPolicy r = 0 then s.setRing r { s.ring r with waiting := natAdd w (s.ring r).waiting }
    else (s.partClear r w).bump (aRingDrop r)
  else
    let bs := s.partEntry r w
    (s.partClear r w).ringPut r bs

/-- Whether a write into an append window keeps R129: a natural alignment, 8 bytes or more, within the window. -/
def appendOk (esz off n : Nat) : Bool :=
  [8, 16, 32, 64, 128, 256, 512, 1024, 2048, 4096].contains n && off % n == 0 && decide (off + n ≤ esz)

/-- A producer's write into an append window, in order (R130); the write that covers the last word completes the
entry. -/
def State.partWrite (s : State) (host : Bool) (r w off : Nat) (data : List Byte) : State :=
  let x := s.ring r
  let part := memWrite 0 off data (kvGet [] w x.part)
  let s := s.setRing r { x with
    part := kvSet w part x.part
    host := if host then natAdd w x.host else x.host }
  if off + data.length = s.ringEsz r then s.entryDone r w else s

/-- Ring r takes whole entries through a window, as a service port delivers them (R130). -/
def State.entryWrite (s : State) (r w : Nat) (bs : List Byte) : State :=
  if s.ringCount r = 0 then s.bump (aRingDrop r) else (s.partClear r w).partWrite false r w 0 bs

/-- A write of a path into an append window: the tenant check of the host's I/O agent (R313), R129 and the sizes of the
host port (R312). -/
def State.appendWrite (s : State) (path : Path) (a : Nat) (data : List Byte) : State :=
  match windowOf a with
  | none => s.ok
  | some (r, w, off) =>
    if path == .host && s.frozenAt 2 0 then s.err
    else
      match s.reach path a true with
      | .absent => s.err
      | .dark => s.ok
      | .served =>
        if path == .host && s.agentTag 0 != 0 && s.agentTag 0 != s.ringTenant r then s.hostViolate 4 0 true a
        else if s.ringCount r = 0 then (s.bump (aRingDrop r)).ok
        else if !(appendOk (s.ringEsz r) off data.length && decide (w < s.ringWindows r)) then
          match path with
          | .host => s.hostViolate 3 0 true a
          | _ => s.err
        else if path == .host && decide (256 < data.length) then s.refuse path 1 true a
        else if (s.ring r).waiting.contains w then s.err
        else (s.partWrite (path == .host) r w off data).ok

/-- RING_APPEND_WRITE (R129). -/
def execRingAppendWrite (path : Path) (addr : Nat) (data : List Byte) (s : State) : Host.Outcome State Fault Refusal :=
  .next (s.appendWrite path addr data)

/-- RING_HOLD_ACCEPT (R132, R217): once a slot is free, the oldest entry that waits of a module producer enters the ring,
else the held completing write of the window; a ring that has been disabled discards it and counts it. -/
def execRingHoldAccept (ring : RingId) (window : BitVec 3) (s : State) : Host.Outcome State Fault Refusal :=
  let r := ringNo ring
  let x := s.ring r
  if s.ringEnabled r && !s.ringSpace r then .next s
  else
    match x.outbox with
    | bs :: rest =>
      let s := if s.ringSpace r then s.ringPut r (memRead 0 0 (s.ringEsz r) (memWrite 0 0 bs [])) else s.bump (aRingDrop r)
      let s := s.setRing r { s.ring r with outbox := rest }
      .next (if r = respRing then s.jobsPump 300 else s)
    | [] =>
      if x.waiting.contains window.toNat then .next (s.entryDone r window.toNat) else .next s

/-! ### Consuming (R134) -/

/-- `n` bytes of a consume window from an offset: the status word, zeros and the head entry. -/
def State.consumeBytes (s : State) (r off n : Nat) : List Byte :=
  let st := natLe 8 (pack [(0, s.ringHolds r), (17, b2n (s.ringFull r))])
  let all := st ++ List.replicate 56 0 ++ s.ringHead r
  let all := all ++ List.replicate (off + n - all.length) 0
  (all.drop off).take n

/-- A read of a consume window as the ring sees it: reading the last word of the head entry releases it. -/
def State.consume (s : State) (r off n : Nat) : State :=
  let bs := s.consumeBytes r off n
  let last := 64 + s.ringEsz r - 8
  let s := if 64 < off + n then s.headTouch r else s
  let s := if off ≤ last ∧ last + 8 ≤ off + n then s.ringPop r else s
  s.answer 0 bs

/-- The reads that the host port takes of a window (R312). -/
def readOk (off n : Nat) : Bool := [8, 16, 32, 64].contains n && off % n == 0

/-- A read of a path in a consume window. -/
def State.consumeRead (s : State) (path : Path) (r off n : Nat) : State :=
  match consumeAddr r with
  | none => if path == .firmware && readOk off n then s.consume r off n else s.err
  | some b =>
    let a := b + off
    if path == .host && s.frozenAt 2 0 then s.err
    else
      match s.reach path a false with
      | .absent => s.err
      | .dark => s.answer 0 (List.replicate n 0)
      | .served =>
        if path == .host && s.agentTag 0 != 0 && s.agentTag 0 != s.ringTenant r then s.hostViolate 4 0 false a
        else if !readOk off n then s.refuse path 1 false a
        else s.consume r off n

/-- RING_CONSUME_READ (R134). -/
def execRingConsumeRead (path : Path) (ring : RingId) (offset len : Nat) (s : State) :
    Host.Outcome State Fault Refusal :=
  .next (s.consumeRead path (ringNo ring) offset len)

/-- The committed configuration of a ring is taken (R136): one that changes only ENABLE or POLICY between two entries, any other
when the ring is empty with no partial entry, head and tail at 0. -/
def State.ringSafe (s : State) (r : Nat) : State :=
  let x := s.ring r
  let due := (kvFind (aRing r) s.reg.committed).isSome || (kvFind (aRing r + 8) s.reg.committed).isSome
  let light := s.committedOf (aRing r + 8) == s.reg64 (aRing r + 8) &&
    (s.committedOf (aRing r) ^^^ s.reg64 (aRing r)) &&& ~~~0x1000C == 0
  if due && light then (s.applyReg (aRing r)).applyReg (aRing r + 8)
  else if due && s.ringHolds r == 0 && x.part.isEmpty then
    ((s.applyReg (aRing r)).applyReg (aRing r + 8)).setRing r { x with head := 0, tail := 0 }
  else s

/-- RING_SAFE_POINT (R136). -/
def execRingSafePoint (ring : RingId) (s : State) : Host.Outcome State Fault Refusal := .next (s.ringSafe (ringNo ring))

end Sys2Proof.Machine
end

