-- ==== Sys2Proof/Machine/FabOps.lean ====
section
/-! DEFINITION. Remote operations at both ends (R286 to R291, R299, R300), windows (R292 to R295) and freezing across modules (R296). -/

namespace Sys2Proof.Machine

/-! ### Flits of an operation in the port's buffers -/

/-- The flits of an operation leave the receive buffer; `freed` of them leave the port's storage, whose credit returns
(R279). -/
def State.rxTake (s : State) (t n freed : Nat) : State :=
  let p := s.port t
  s.setPort t { p with rx := p.rx.drop n, freed := p.freed + BitVec.ofNat 16 freed }

/-- The data flits of an operation that stands first in a port's receive buffer, as the link delivered them: its header with the
OP that the command names, and LEN + 1 data flits where the operation carries data (R288). Operations are performed in the order
of the buffer (R289). -/
def State.rxOp (s : State) (t op : Nat) (h : Header) (data : List (List Byte)) : Option (List Flit) :=
  let n := if op = 1 ∨ op = 4 ∨ op = 6 then h.len.toNat + 1 else 0
  match (s.port t).rx with
  | f :: r =>
    if h.op.toNat = op ∧ f.bytes = headerBytes h ∧ data.length = n ∧ (r.take n).map (fun g => g.bytes) = data then some (r.take n)
    else none
  | [] => none

/-- Flits of this module's answer wait at the port to leave. -/
def State.txPut (s : State) (t : Nat) (fs : List Flit) : State :=
  s.setPort t { s.port t with tx := (s.port t).tx ++ fs }

/-- The COMPL or RDATA header that answers an operation (R288, R289). -/
def State.answerHeader (s : State) (h : Header) (op status : Nat) (len : BitVec 12) : Flit :=
  { bytes := headerBytes { h with
      op := BitVec.ofNat 4 op, dest := h.src, src := BitVec.ofNat 10 s.modNumber, len, status := BitVec.ofNat 8 status
      value := 0, flag := 0 }
    kind := .remote }

/-- Send COMPL through the port of arrival. -/
def State.sendCompl (s : State) (t : Nat) (h : Header) (status : Nat) : State := s.txPut t [s.answerHeader h 5 status 0]

/-! ### The owner's checks (R293) -/

/-- The REASON of R293 that an operation meets first, arriving at a port; 0 when none does. `ops` says what the operation
needs of the window. A window of another edge group than the port's is out of reach: DEDUCED (notes/assumptions/33.md). -/
def State.winReason (s : State) (t : Nat) (h : Header) (fits : Nat → Bool) (permits : Nat → Nat → Bool) : Nat :=
  let g := h.edge.toNat
  let w := h.window.toNat
  if s.winState g w = 0 ∨ g ≠ t / 24 then 1
  else if h.src.toNat ≠ s.winPeer g w ∨ h.tenant.toNat ≠ s.winPeerTenant g w then 2
  else if !fits (s.winLen g w) then 3
  else if !permits g w then 4
  else 0

/-- A window violation (R293): the operation is dropped without completion, counted and recorded, and FREEZE goes to its
source. -/
def State.winViolate (s : State) (h : Header) (reason : Nat) : State :=
  let s := s.bump aFabWinViolCnt
  let s := s.setReg aFabWinViolInfo (BitVec.ofNat 64 (pack [(0, reason), (4, h.src.toNat), (14, h.srcTile.toNat),
    (28, h.tenant.toNat), (36, h.window.toNat), (48, h.edge.toNat), (50, h.op.toNat)]))
  let s := s.setReg aFabWinViolAddr (BitVec.ofNat 64 h.offset.toNat)
  let s := s.trace 3 2 0 0x3FFF (s.reg64 aFabWinViolInfo) (s.reg64 aFabWinViolAddr)
  s.ctrlSend (.freeze {
    src := BitVec.ofNat 10 s.modNumber, dest := h.src, tile := h.srcTile, tenant := h.tenant, window := h.window
    edge := h.edge, reason := BitVec.ofNat 3 reason, closeId := 0 })

/-- Whether the range of an operation fits a window. -/
def rangeFits (h : Header) (len : Nat) : Bool := decide (h.offset.toNat + 128 * (h.len.toNat + 1) ≤ len)

/-- Take an operation addressed to this module; another is dropped and counted (R299). -/
def State.forMe (s : State) (dest : BitVec 10) (k : State → State) : State :=
  if dest.toNat = s.modNumber then k s else s.bump aFabMisrouteCnt

/-- Perform the operation that a command names when it stands first in the port's receive buffer; its flits leave the buffer,
and the port's storage but for what still waits for the mesh. -/
def State.onOp (s : State) (t op : Nat) (h : Header) (data : List (List Byte)) (k : List Flit → State → State) : State :=
  match s.rxOp t op h data with
  | none => s
  | some fs => (s.rxTake t (fs.length + 1) (fs.length + 1)).forMe h.dest (k fs)

/-- Data flits land behind a window, one after another, with their parity (R114, R210). The spec names no turn that delivers
them inside the owner's mesh: they land when they are performed. DEDUCED (notes/assumptions/175.md). -/
def State.winLand (s : State) (g w off : Nat) : List Flit → State
  | [] => s
  | f :: r =>
    let base := s.winBase g w
    let t := bits base 37 24
    let a := bits base 21 0 + off
    let s := if s.winKind g w = 0 then (s.landScratch t a f.bytes).scrSpoil t a f.bad
      else (s.loupeStackLand none (base + off) f.bytes.length).stkFlit (base + off) f
    s.winLand g w (off + 128) r

/-- RWR (R289, R293): a remote write that the window admits lands, and COMPL returns. -/
def execRwr (port : BitVec 7) (h : Header) (data : List (List Byte)) (s : State) : Host.Outcome State Fault Refusal :=
  let t := port.toNat
  let g := h.edge.toNat
  let w := h.window.toNat
  .next (s.onOp t 1 h data (fun fs s =>
    let r := s.winReason t h (rangeFits h) (fun g w => s.winWrite g w && decide (s.winKind g w < 2))
    if r ≠ 0 then s.winViolate h r else (s.winLand g w h.offset.toNat fs).sendCompl t h 0))

/-- The flits behind a window that a remote read returns. -/
def State.winFlits (s : State) (g w off n : Nat) : List Flit :=
  let base := s.winBase g w
  (List.range n).map (fun i =>
    let f := if s.winKind g w = 0 then s.flitAt (bits base 37 24) (bits base 21 0 + off + 128 * i) .remote
      else s.stkRead (base + off + 128 * i) (s.stackOffline (stackOf base))
    { f with kind := .remote })

/-- RRD (R289, R293): a remote read that the window admits is answered with RDATA and its data. -/
def execRrd (port : BitVec 7) (h : Header) (s : State) : Host.Outcome State Fault Refusal :=
  let t := port.toNat
  let g := h.edge.toNat
  let w := h.window.toNat
  let n := h.len.toNat + 1
  .next (s.onOp t 2 h [] (fun _ s =>
    let r := s.winReason t h (rangeFits h) (fun g w => s.winRead g w && decide (s.winKind g w < 2))
    if r ≠ 0 then s.winViolate h r
    else
      let s := if s.winKind g w = 1 then s.pagesTouch false (s.winBase g w + h.offset.toNat) (128 * n) else s
      s.txPut t (s.answerHeader h 4 0 h.len :: s.winFlits g w h.offset.toNat n)))

/-- RFLAG (R289, R293): a remote flag signal that the window admits is an asynchronous signal, and COMPL returns. -/
def execRflag (port : BitVec 7) (h : Header) (s : State) : Host.Outcome State Fault Refusal :=
  let t := port.toNat
  .next (s.onOp t 3 h [] (fun _ s =>
    let r := s.winReason t h (fun len => decide (h.flag.toNat < len)) (fun g w => s.winKind g w == 2)
    if r ≠ 0 then s.winViolate h r
    else
      let f := BitVec.ofNat 18 (bits (s.winBase h.edge.toNat h.window.toNat) 17 0 + h.flag.toNat)
      (s.asyncArrive (.signal f h.value)).sendCompl t h 0))

/-- MSG (R300): a rack message of tenant 0 enters the named ring, or is dropped with STATUS 1. -/
def execMsg (port : BitVec 7) (h : Header) (data : List (List Byte)) (s : State) : Host.Outcome State Fault Refusal :=
  let t := port.toNat
  .next (s.onOp t 6 h data (fun _ s =>
    if h.tenant ≠ 0 then s.winViolate h 2
    else
      let r := 514 + h.window.toNat % 16
      let bs := data.flatten
      let bs := bs.take (s.ringEsz r) ++ List.replicate (s.ringEsz r - bs.length) 0
      if s.ringSpace r then (s.ringPut r bs).sendCompl t h 0 else (s.bump (aRingDrop r)).sendCompl t h 1))

/-- Issue a rack message from a control pair (R299, R300): it takes an entry of the completion table of the port's edge group
and leaves by the first port toward its module that is up. Without one, or with the table full, it waits to be issued again. -/
def State.msgIssue (s : State) (dest ring : Nat) (entry : List Byte) : State :=
  match s.portFor dest with
  | none => s
  | some t =>
    let used := s.ctabOf (t / 24)
    if 32768 ≤ used.length then s.bump aFabCtabWaitCnt
    else
      let s := s.applyReg aFabRcompTmo
      let tag := firstGap (t / 24 * 32768) used
      let n := (entry.length + 127) / 128
      let e : Ctab := {
        tile := 0x3FFF, op := 6, owner := BitVec.ofNat 10 dest, window := BitVec.ofNat 12 ring, edge := BitVec.ofNat 2 (t / 24)
        tenant := 0, since := s.clock, limit := s.rfld aFabRcompTmo 9 0, kept := false, live := false }
      let h : Header := {
        op := 6, dest := e.owner, src := BitVec.ofNat 10 s.modNumber, tenant := 0, window := e.window, edge := e.edge
        len := BitVec.ofNat 12 (n - 1), offset := 0, tag := BitVec.ofNat 17 tag, srcTile := 0x3FFF, status := 0, value := 0, flag := 0 }
      let s : State := { s with fab.ctab := kvSet tag e s.fab.ctab }
      s.txPut t ({ bytes := headerBytes h, kind := .header } ::
        (List.range n).map (fun i =>
          let b := (entry.drop (128 * i)).take 128
          ({ bytes := b ++ List.replicate (128 - b.length) 0, kind := .remote } : Flit)))

/-! ### Completions at the issuer (R290, R291) -/

/-- Whether a completion names a held entry of this module's operation. -/
def State.ctabHit (s : State) (h : Header) (ops : List Nat) : Option Ctab :=
  match kvFind h.tag.toNat s.fab.ctab with
  | some e => if e.owner == h.src && !e.kept && ops.contains e.op.toNat then some e else none
  | none => none

/-- An operation's entry is released, and the count of outstanding operations of the tile that it stands in falls (R290). -/
def State.ctabRelease (s : State) (h : Header) (e : Ctab) : State :=
  let s := { s with fab.ctab := kvDel h.tag.toNat s.fab.ctab }
  if !e.live then s
  else
    let x := s.tile e.tile
    s.setTile e.tile { x with seq := { x.seq with remoteOut := x.seq.remoteOut - 1 } }

/-- COMPL (R290, R300): the completion of an RWR, RFLAG or MSG releases its entry. -/
def execCompl (port : BitVec 7) (h : Header) (s : State) : Host.Outcome State Fault Refusal :=
  .next (s.onOp port.toNat 5 h [] (fun _ s =>
    match s.ctabHit h [1, 3, 6] with
    | some e => s.ctabRelease h e
    | none => s))

/-- RDATA (R279, R287, R290): the data of a remote read waits at the port for its read-return turns, its header removed, and the
entry is released. The data holds its place in the receive buffer until the mesh takes it. Data for an attempt that its tile has
been restored from is dropped (R165). -/
def execRdata (port : BitVec 7) (h : Header) (data : List (List Byte)) (s : State) : Host.Outcome State Fault Refusal :=
  let t := port.toNat
  match s.rxOp t 4 h data, s.ctabHit h [2] with
  | some fs, some e =>
    if h.dest.toNat = s.modNumber ∧ e.live then
      let s := s.rxTake t (fs.length + 1) 1
      let fs := fs.map (fun f => { f with src := e.tile })
      .next ((s.setPort t { s.port t with mesh := (s.port t).mesh ++ fs }).ctabRelease h e)
    else .next (s.onOp t 4 h data (fun _ s => s.ctabRelease h e))
  | _, _ => .next (s.onOp t 4 h data (fun _ s => s))

/-- RCOMP_TIMEOUT (R291): an entry held for FAB.RCOMP_TMO.MS stops the issuing tile's domain as an abort; the entry stays
held. A control pair's operation, or that of a tile whose choreography is unloaded, has no domain to stop, and its entry is
dropped. DEDUCED (notes/assumptions/176.md). -/
def execRcompTimeout (edge : BitVec 2) (entry : BitVec 15) (s : State) : Host.Outcome State Fault Refusal :=
  let k := edge.toNat * 32768 + entry.toNat
  match kvFind k s.fab.ctab with
  | none => .next s
  | some e =>
    if e.kept || decide (s.clock < e.since + 1000 * e.limit) then .next s
    else
      let s := s.bump aFabRcompTmoCnt
      if (s.tile e.tile).dom.isNone then
        .next (({ s with fab.ctab := kvDel k s.fab.ctab } : State).fault 3 (if e.tile < positions then some e.tile else none) none k)
      else
        let d := s.domOf e.tile
        let s : State := { s with fab.ctab := kvSet k { e with kept := true } s.fab.ctab }
        let s := s.fault 3 (some e.tile) (some d) k
        .next (if (s.dom d).state = 2 ∨ (s.dom d).state = 3 then s.abortDom d else s)

/-! ### Opening and closing a window (R292, R294, R295) -/

/-- The checks of OPEN (R292). -/
def State.openOk (s : State) (g w : Nat) : Bool :=
  let base := s.winBase g w
  let len := s.winLen g w
  let tag := s.winTenant g w
  match s.winKind g w with
  | 0 =>
    let t := bits base 37 24
    let a := bits base 21 0
    decide (t < positions) && decide (0x10000 ≤ a) && decide (a + len ≤ kindScratch (tileKind t)) && len % 128 == 0 &&
      decide (0 < len) && (List.range ((a + len - 1) / 16384 + 1 - a / 16384)).all (fun i => s.segTag t (a / 16384 + i) == tag)
  | 1 =>
    len % 128 == 0 && decide (0 < len) && stackAddrOk (base + len - 1) &&
      (match s.regionOf (pageOf base) with
       | some r => decide (pageOf (base + len - 1) < s.regionFirst r + s.regionPages r)
       | none => false) &&
      (List.range (pageOf (base + len - 1) + 1 - pageOf base)).all (fun i => s.pageTag (pageOf base + i) == some tag)
  | 2 =>
    let f := bits base 17 0
    decide (0 < len) && f / 4096 == (f + len - 1) / 4096 && decide (f / 4096 < 49) &&
      (List.range len).all (fun i => (s.flag (f + i)).cho.isSome && (s.tile (s.flag (f + i)).waiter).tenant.toNat == tag)
  | _ => false

/-- FAB.WIN_CMD with OPEN as the block takes it. -/
def State.winOpen (s : State) (path : Path) (g w : Nat) : State :=
  if s.winState g w = 0 ∧ s.openOk g w then (s.setRfld (aFabWin g w) 1 0 1).ok
  else s.refuse path 2 true aFabWinCmd

/-- FAB.WIN_CMD with CLOSE as the block takes it: the window drains and WIN_CLOSE goes to the peer with a new CLOSE_ID. -/
def State.winDrain (s : State) (path : Path) (g w : Nat) : State :=
  if s.winState g w ≠ 1 then s.refuse path 2 true aFabWinCmd
  else
    let s := s.applyReg aFabWinCloseTmo
    let id := s.fab.closeSeq + 1
    let s : State := { s with
      fab.closeSeq := id
      fab.closing := kvSet (winKey g w) { closeId := id, since := s.clock, limit := s.rfld aFabWinCloseTmo 13 0 } s.fab.closing }
    let s := s.setRfld (aFabWin g w) 1 0 2
    (s.ctrlSend (.winClose {
      src := BitVec.ofNat 10 s.modNumber, dest := BitVec.ofNat 10 (s.winPeer g w), tile := 0, tenant := 0
      window := BitVec.ofNat 12 w, edge := BitVec.ofNat 2 g, reason := 0, closeId := id })).ok

/-- WIN_CMD_OPEN (R292). -/
def execWinCmdOpen (path : Path) (edge : BitVec 2) (window : BitVec 12) (s : State) : Host.Outcome State Fault Refusal :=
  .next (s.access path aFabWinCmd true (fun s => s.winOpen path edge.toNat window.toNat))

/-- WIN_CMD_CLOSE (R294). -/
def execWinCmdClose (path : Path) (edge : BitVec 2) (window : BitVec 12) (s : State) : Host.Outcome State Fault Refusal :=
  .next (s.access path aFabWinCmd true (fun s => s.winDrain path edge.toNat window.toNat))

/-- WIN_CLOSE (R294 order 2): the peer starts to watch its outstanding operations to the window. -/
def execWinClose (m : WinMsg) (s : State) : Host.Outcome State Fault Refusal :=
  .next (s.forMe m.dest (fun s => { s with
    fab.watches := s.fab.watches.filter (fun x => !(x.owner == m.src && x.edge == m.edge && x.window == m.window)) ++
      [{ owner := m.src, edge := m.edge, window := m.window, closeId := m.closeId }] }))

/-- WIN_CLOSE_ACK_SEND (R294 order 4): with no operation outstanding to a watched window, the peer answers with its
CLOSE_ID. -/
def execWinCloseAckSend (owner : BitVec 10) (edge : BitVec 2) (window : BitVec 12) (s : State) :
    Host.Outcome State Fault Refusal :=
  match s.fab.watches.find? (fun x => x.owner == owner && x.edge == edge && x.window == window) with
  | none => .next s
  | some x =>
    if s.fab.ctab.any (fun e => e.2.owner == owner && e.2.edge == edge && e.2.window == window) then .next s
    else
      let s : State := { s with fab.watches := s.fab.watches.filter (fun y => !(y == x)) }
      .next (s.ctrlSend (.winCloseAck {
        src := BitVec.ofNat 10 s.modNumber, dest := owner, tile := 0, tenant := 0, window, edge, reason := 0, closeId := x.closeId }))

/-- WIN_CLOSE_ACK (R294 order 5, R295): a matching CLOSE_ID closes the window; another is ignored and counted. -/
def execWinCloseAck (m : WinMsg) (s : State) : Host.Outcome State Fault Refusal :=
  let g := m.edge.toNat
  let w := m.window.toNat
  .next (s.forMe m.dest (fun s =>
    match kvFind (winKey g w) s.fab.closing with
    | some c =>
      if c.closeId = m.closeId ∧ s.winState g w = 2 ∧ s.winPeer g w = m.src.toNat then s.winClose g w aFabWinCloseCnt
      else s.bump aFabMisrouteCnt
    | none => s.bump aFabMisrouteCnt))

/-- WIN_CLOSE_TIMEOUT (R295): without an ACK within FAB.WIN_CLOSE_TMO.MS the window closes. -/
def execWinCloseTimeout (edge : BitVec 2) (window : BitVec 12) (s : State) : Host.Outcome State Fault Refusal :=
  let g := edge.toNat
  let w := window.toNat
  match kvFind (winKey g w) s.fab.closing with
  | some c =>
    if s.clock < c.since + 1000 * c.limit then .next s
    else .next (s.winClose g w aFabWinCloseTmoCnt)
  | none => .next s

/-! ### Freezing (R296) -/

/-- The ID of a remote channel as CFG.FRZ_CMD codes it (R359). The message names a control pair only as 0x3FFF: which of the
28 pairs it is, is a free value. -/
def State.channelId (s : State) (tile : Nat) : Nat :=
  if tile ≠ 0x3FFF then tile else 0xC000 + fld (Config.fresh s.freeCtr) 63 32 % 28

/-- FREEZE (R296): the remote channel freezes and its held entries stay; for a tile, kind 9 is recorded and its domain stops;
a tile in no domain has none to stop, and the record's domain is a free value. The message carries no address: the address
recorded is a free value. The trace takes one record of the freeze and one of the violation. -/
def execFreeze (m : WinMsg) (s : State) : Host.Outcome State Fault Refusal :=
  .next (s.forMe m.dest (fun s =>
    let t := m.tile.toNat
    let id := s.channelId t
    let addr := fld (Config.fresh (s.freeCtr + 1)) 47 0
    let d := if (s.tile t).dom.isSome then s.domOf t else (Config.faultDom s.freeCtr).toNat
    let s := s.tickFree.tickFree
    let s := s.setReg aFabFrzInfo (BitVec.ofNat 64 (pack [(0, t), (14, m.tenant.toNat), (22, m.src.toNat), (32, m.window.toNat),
      (44, m.edge.toNat), (46, m.reason.toNat)]))
    let s := (s.bump aFabFrzNoticeCnt).freezeMaster 1 id m.tenant.toNat
    let s : State := { s with fab.ctab := s.fab.ctab.map (fun e => (e.1, if e.2.tile = t then { e.2 with kept := true } else e.2)) }
    let s := s.violEntry 1 id m.tenant.toNat (16 + m.reason.toNat) addr
    let s := s.trace 3 2 (if t = 0x3FFF then 0 else d) t (s.reg64 aFabFrzInfo) 0
    if t = 0x3FFF then s
    else
      let s := s.recordViol 9 m.tenant.toNat t d addr
      let s := s.trace 3 2 d t (s.reg64 aChoViolInfo) (s.reg64 aChoViolAddr)
      if (s.tile t).dom.isSome then s.stopDom d 6 else s))

end Sys2Proof.Machine
end

