-- ==== Sys2Proof/Machine/Ledger.lean ====
section
/-! DEFINITION. The life ledger (R372 to R383): its records and flushes, what a start restores, the calendar, the fault log's acknowledgement, and wear. -/

namespace Sys2Proof.Machine

/-! ### Bodies (R376 to R379) -/

/-- A journal entry as two words (R379). -/
def entryWords (e : Entry) : List Word := [BitVec.ofNat 64 (pack [(0, e.kind), (32, e.time.toNat)]), e.payload]

/-- The journal entries of a body. -/
def wordsEntries : List Word → List Entry
  | a :: b :: r => { kind := fld a 15 0, time := BitVec.ofNat 32 (fld a 63 32), payload := b } :: wordsEntries r
  | _ => []

/-- The nine REP counters of a SUMMARY, in its order. -/
def repSaved : List Nat :=
  [aRepLaneSwapCnt, aRepLinkRetireCnt, aRepArrayRetireCnt, aRepConvSwapCnt, aRepArrayWornCnt, aRepTileRetireCnt,
    aRepFieldRetireCnt, aRepPairSwapCnt, aRepPhaseFailCnt]

/-- The seven LEDG counters of a SUMMARY, in its order. -/
def ledgSaved : List Nat :=
  [aLedgFlushCnt, aLedgCkptCnt, aLedgMacFailCnt, aLedgUncleanCnt, aLedgFlogOvfCnt, aLedgCalRejectCnt, aLedgFlashErrCnt]

/-- The counters that a SUMMARY preserves, with the index of each in its body. -/
def savedCounters : List (Nat × Nat) :=
  [(aLedgPoweredS, 0), (aLedgThermCycles, 1), (aKeepBootCnt, 2), (aKeepRecoveryCnt, 3)] ++
    (repSaved.zip ((List.range 9).map (fun i => 8 + i))) ++
    (List.range 96).map (fun t => (aTnpLaneFaultCnt t, 20 + t)) ++
    (ledgSaved.zip ((List.range 7).map (fun i => 116 + i)))

/-- The body of a SUMMARY record (R376). -/
def State.summaryBody (s : State) (clean : Bool) : List Word :=
  let r := fun a => s.reg64 a
  [r aLedgPoweredS, r aLedgThermCycles, r aKeepBootCnt, r aKeepRecoveryCnt, r aCalCount, r aCalLastTime,
    BitVec.ofNat 64 (s.rfld aRepMapGen 31 0), BitVec.ofNat 64 (pack [(0, b2n clean), (1, s.rfld aLedgStatus 0 0)])] ++
    repSaved.map r ++ [BitVec.ofNat 64 s.keep.ledger.viols, BitVec.ofNat 64 s.keep.ledger.faults, 0] ++
    (List.range 96).map (fun t => r (aTnpLaneFaultCnt t)) ++ ledgSaved.map r ++
    [BitVec.ofNat 64 (pack [(0, s.rfld aLedgFlogPtr 31 0), (32, s.rfld aLedgFlogAck 31 0)]), r aPwrStopInfo]

/-- The body of a FIELDS record (R377). -/
def State.fieldsBody (s : State) : List Word :=
  (List.range 49).flatMap (fun n =>
    let st := s.rfld (aRepFieldState n) 15 0
    let band := fun b => s.rfld (aLedgFieldBand n b) 31 0
    [BitVec.ofNat 64 (st - bits st 3 3 * 8)] ++
      (List.range 4).map (fun i => BitVec.ofNat 64 (pack [(0, band (2 * i)), (32, band (2 * i + 1))])) ++
      [s.reg64 (aLedgFieldCycles n), 0, 0])

/-- WORN_WARN: 900,000 cycles, counted in hundredths (R79). -/
def wornWarn (x : ArrayRec) : Bool := decide (90000000 ≤ x.cycles.toNat)

/-- The entry of an array in an ARRAYS record (R378). The value 3 is never written: an array in programming is written as
committed, or as a spare while it is unbound. -/
def arrayWords (x : ArrayRec) : List Word :=
  let st := if x.state = 3 then (if x.bound then 0 else 2) else x.state.toNat
  [BitVec.ofNat 64 (pack [(0, x.cycles.toNat), (40, st), (43, b2n (wornWarn x)), (44, x.colSwaps.length),
      (46, x.rowSwaps.length), (48, x.logical.toNat), (52, x.tenant.toNat)]),
    BitVec.ofNat 64 (pack [(0, x.verify.toNat), (32, x.inst.toNat), (42, x.gen.toNat)])]

/-- An array as an ARRAYS record gives it. TOL is the factory's; which converters its spares replace is in the CONV_SWAP entries
of REPAIRS (R379). -/
def wordsArray (a b : Word) : ArrayRec :=
  { state := BitVec.ofNat 3 (fld a 42 40)
    logical := BitVec.ofNat 4 (fld a 51 48), bound := fld a 42 40 != 2 && fld a 42 40 != 4
    tenant := BitVec.ofNat 8 (fld a 59 52), verify := BitVec.ofNat 32 (fld b 31 0), cycles := BitVec.ofNat 40 (fld a 39 0)
    inst := BitVec.ofNat 10 (fld b 41 32), gen := BitVec.ofNat 16 (fld b 57 42) }

/-- The arrays of one tile row of a field, as (tile, physical array). -/
def rowArrays (f ty : Nat) : List (Nat × Nat) :=
  ((List.range 16).filter (fun tx => tileKind (posIn f tx ty) == 0)).flatMap (fun tx =>
    (List.range 17).map (fun p => (posIn f tx ty, p)))

/-- The body of an ARRAYS record (R378). -/
def State.arraysBody (s : State) (f ty : Nat) : List Word :=
  BitVec.ofNat 64 (pack [(0, f), (6, ty)]) :: (rowArrays f ty).flatMap (fun e => arrayWords (s.arrayRec e.1 e.2))

/-! ### Records in the flash (R374) -/

/-- The 4,096 bytes of a record's slot: header, body, and the MAC under the key K_L that is derived from UDS. -/
def ledgerBytes (uds : BitVec 256) (r : Record) : List Byte :=
  let b := r.body.flatMap (fun w => natLe 8 w.toNat)
  let m := natLe 4 0x4C454447 ++ natLe 2 r.type ++ natLe 2 b.length ++ natLe 8 r.seq ++ natLe 8 r.ckpt ++ natLe 8 r.time.toNat ++
    b ++ List.replicate (4032 - b.length) 0
  m ++ natLe 32 (Config.kmac256 (Config.kmac256 uds "IVP LEDGER" []) "IVP LEDGER REC" m).toNat

/-- The bytes of a slot of the ledger region; an erased one reads as the device's erased value. -/
def State.ledgerSlot (s : State) (k : Nat) : List Byte :=
  match kvFind k s.keep.ledger.records with
  | some r => ledgerBytes s.trust.fuses.uds r
  | none => List.replicate 4096 0xFF

/-! ### Writing (R374, R381) -/

/-- Write one record to the next slot; the next eight slots are erased (R374, R381). -/
def State.putRecord (s : State) (type : Nat) (body : List Word) : State :=
  let l := s.keep.ledger
  let seq := l.nextSeq
  let gone := (List.range 8).map (fun i => (seq + 1 + i) % 16384)
  let r : Record := { type, seq, ckpt := (s.reg64 aLedgCkptSeq).toNat, time := s.reg64 aLedgCalendar, body }
  let s : State := { s with keep.ledger := { l with
    records := kvSet (seq % 16384) r (l.records.filter (fun e => !gone.contains e.1)), nextSeq := seq + 1 } }
  s.setRfld aLedgStatus 63 32 s.calendar

/-- A program or erase that the flash reports as failed: the write is retried in the next slot (R381). -/
def State.flashFail (s : State) (ok : Bool) : State :=
  if ok then s
  else
    let l := s.keep.ledger
    ({ s with keep.ledger := { l with records := kvDel (l.nextSeq % 16384) l.records, nextSeq := l.nextSeq + 1 } } : State).bump
      aLedgFlashErrCnt

/-- Entries in records of 252. -/
def entryGroups : Nat → List Entry → List (List Entry)
  | 0, _ => []
  | n + 1, es => if es.isEmpty then [] else es.take 252 :: entryGroups n (es.drop 252)

/-- Entries as the bodies of records of a type. -/
def State.putEntries (s : State) (type : Nat) (es : List Entry) : State :=
  (entryGroups es.length es).foldl (fun s g => s.putRecord type (g.flatMap entryWords)) s

/-- Write the pending journal. -/
def State.putJournal (s : State) : State :=
  ({ s.putEntries 7 s.keep.ledger.journal with keep.ledger.journal := [] } : State)

/-- Whether the keeper has formed the ledger's state and can flush it: from order 6 of a start, and in the recovery state
(R345, R347). -/
def State.ledgerRuns (s : State) : Bool :=
  s.keep.pins.keep12v && (decide (6 ≤ s.rfld aKeepState 4 0) || s.inRecovery)

/-- LEDGER_SUMMARY_FLUSH (R381): every 10 minutes. -/
def execLedgerSummaryFlush (flashOk : Bool) (s : State) : Host.Outcome State Fault Refusal :=
  if !s.ledgerRuns || decide (s.clock < s.keep.ledger.flushAt + 600000000) then .next s
  else
    let s := s.flashFail flashOk
    let s := ((s.putRecord 1 (s.summaryBody false)).putJournal).bump aLedgFlushCnt
    .next { s with keep.ledger.flushAt := s.clock }

/-- LEDGER_JOURNAL_FLUSH (R381): 252 entries are pending, or one of a repair, fault or violation kind. -/
def execLedgerJournalFlush (flashOk : Bool) (s : State) : Host.Outcome State Fault Refusal :=
  let es := s.keep.ledger.journal
  let due := decide (252 ≤ es.length) || es.any (fun e => decide (0x10 ≤ e.kind) && decide (e.kind ≤ 0x21))
  if !s.ledgerRuns || !due then .next s else .next ((s.flashFail flashOk).putJournal.bump aLedgFlushCnt)

/-- The fault log's 1,024 entries from the oldest (R375); a place that holds none reads zero. -/
def State.flogEntries (s : State) : List Entry :=
  let next := s.rfld aLedgFlogPtr 31 0
  (List.range 1024).map (fun i => kvGet { kind := 0, time := 0, payload := 0 } ((next + i) % 1024) s.keep.ledger.flog)

/-- Write a checkpoint (R375): the pending journal first, so that no entry both lies in the checkpoint and follows it. -/
def State.checkpoint (s : State) : State :=
  let s := s.putJournal
  let first := s.keep.ledger.nextSeq
  let s := s.setReg aLedgCkptSeq (BitVec.ofNat 64 first)
  let s := s.putRecord 1 (s.summaryBody false)
  let s := s.putRecord 2 s.fieldsBody
  let s := ((List.range 49).filter (fun f => !fieldIsMem f)).foldl (fun s f =>
    (List.range 16).foldl (fun s ty => s.putRecord 3 (s.arraysBody f ty)) s) s
  let s := s.putEntries 4 s.keep.ledger.repairs
  let s := s.putEntries 5 s.flogEntries
  let s := s.putRecord 6 [BitVec.ofNat 64 (s.keep.ledger.nextSeq - first)]
  ({ s with keep.ledger.ckptAt := s.clock } : State).bump aLedgCkptCnt

/-- LEDGER_CHECKPOINT (R381): every 24 h, and when the write pointer comes within 1,024 slots of the latest checkpoint. -/
def execLedgerCheckpoint (flashOk : Bool) (s : State) : Host.Outcome State Fault Refusal :=
  let l := s.keep.ledger
  let due := decide (l.ckptAt + 86400000000 ≤ s.clock) ||
    decide ((s.reg64 aLedgCkptSeq).toNat + 15360 ≤ l.nextSeq)
  if !s.ledgerRuns || !due then .next s else .next (s.flashFail flashOk).checkpoint

/-- The stop flush (R381, R402 order 3): the pending journal, then a SUMMARY; CLEAN unless a stage was abandoned. -/
def State.stopFlush (s : State) : State :=
  if !s.ledgerRuns then s
  else
    let s := s.putJournal
    (s.putRecord 1 (s.summaryBody (!s.rbit aPwrStopInfo 7))).bump aLedgFlushCnt

/-! ### Restoring (R382) -/

/-- The records in SEQ order. -/
def State.recordsInOrder (s : State) : List Record :=
  (s.keep.ledger.records.foldl (fun m e => kvSet e.2.seq e.2 m) ([] : KV Record)).map (fun e => e.2)

/-- Whether a record ends a checkpoint all of whose records are there: from its CKPT on, as many as the CKPT_END counts. -/
def ckptWhole (rs : List Record) (r : Record) : Bool :=
  r.type == 6 && recFld r.body 0 31 0 == r.seq - r.ckpt &&
    (rs.filter (fun q => decide (r.ckpt ≤ q.seq) && decide (q.seq < r.seq))).length == r.seq - r.ckpt

/-- SEQ of the first record of the latest complete checkpoint (R375, R382). -/
def latestCheckpoint (rs : List Record) : Option Nat := ((rs.filter (ckptWhole rs)).getLast?).map (fun r => r.ckpt)

/-- The generation of the field map rises with an entry that follows the checkpoint (R41). -/
def State.mapGen (s : State) (full : Bool) : State := if full then s.setReg aRepMapGen (s.reg64 aRepMapGen + 1) else s

/-- Apply one repair-kind entry to the field map and the state of spares (R379). `full` says that the entry follows the
checkpoint, so that what FIELDS and ARRAYS hold changes too. -/
def State.applyRepair (s : State) (e : Entry) (full : Bool) : State :=
  let p := e.payload
  let tile := fld p 13 0
  let arr := fld p 18 14
  let input := fld p 16 14
  match e.kind with
  | 0x10 =>
    if !full then s
    else
      let x := s.arrayRec tile arr
      let s := s.setArray tile arr { x with state := 4 }
      match s.spareArray tile with
      | some q =>
        if x.bound then
          let s := s.rebind tile arr q
          s.setArray tile q { s.arrayRec tile q with state := 0 }
        else s
      | none => s
  | 0x11 =>
    let x := s.arrayRec tile arr
    s.setArray tile arr (if bit p.toNat 19 then { x with rowSwaps := x.rowSwaps ++ [fld p 25 20] }
      else { x with colSwaps := x.colSwaps ++ [fld p 25 20] })
  | 0x12 => (s.setMap tile 2).mapGen full
  | 0x13 =>
    let s := s.setMap tile 0
    if !full then s
    else
      let f := spareField (tileKind tile)
      let a := aRepFieldState (fieldOf tile)
      s.setRfld a f.1 f.2 (s.rfld a f.1 f.2 - 1)
  | 0x14 => (s.setRfld (aRepFieldState (fld p 5 0)) 2 0 (if bit p.toNat 6 then 3 else 2)).mapGen full
  | 0x15 => (s.setRfld (aRepFieldState (fld p 5 0)) 2 0 0).mapGen full
  | 0x16 =>
    let k := linkKey tile input
    s.setLink k { s.link k with swapped := (s.link k).swapped ++ [fld p 23 17] }
  | 0x17 =>
    let k := linkKey tile input
    s.setLink k (if bit p.toNat syncMark then { s.link k with syncRetired := true } else { s.link k with retired := true })
  | 0x18 =>
    let k := linkKey tile input
    s.setLink k (if bit p.toNat 17 then { s.link k with bFailed := true } else { s.link k with aFailed := true })
  | 0x19 =>
    let t := fld p 6 0
    let x := kvGet ({} : Port) t s.fab.ports
    let wave := BitVec.ofNat 9 (2 ^ fld p 10 7)
    let x := if Config.laneTx p.toNat then { x with badTx := x.badTx ||| wave } else { x with badRx := x.badRx ||| wave }
    { s with fab.ports := kvSet t { x with spare := true } s.fab.ports }
  | 0x1A =>
    let t := fld p 6 0
    let x := kvGet ({} : Port) t s.fab.ports
    { s with fab.ports := kvSet t { x with state := 6 } s.fab.ports }
  | 0x1B =>
    let a := aRepClusterState (fld p 2 0)
    let k := fld p 4 3
    let s := s.setRfld a (2 * k + 1) (2 * k) 2
    match (List.range 4).find? (fun i => s.rfld a (2 * i + 1) (2 * i) == 1) with
    | some i => s.setRfld a (2 * i + 1) (2 * i) 0
    | none => s
  | 0x1C =>
    let d := fld p 5 0
    let s : State := { s with
      keep.thermal.phasesBad := kvPut 0 d (kvGet 0 d s.keep.thermal.phasesBad ||| 2 ^ fld p 9 6) s.keep.thermal.phasesBad }
    s.setRfld (aRepDomainHealth d) 1 0 (min 2 (s.rfld (aRepDomainHealth d) 1 0 + 1))
  | 0x1D => s.setRfld (aRepDomainHealth (fld p 5 0)) 2 2 1
  | 0x1E => s.setRfld (aMemStackState (fld p 4 0)) 15 8 (s.rfld (aMemStackState (fld p 4 0)) 15 8 + 1)
  | _ => s

/-- Apply one journal entry that follows the checkpoint (R382). The tenant of a programmed array is not in its entry, a
free value. -/
def State.applyEntry (s : State) (e : Entry) : State :=
  let p := e.payload
  let tile := fld p 13 0
  let arr := fld p 18 14
  let x := s.arrayRec tile arr
  let s := match e.kind with
    | 0x01 => (s.setArray tile arr { x with
        state := 0, cycles := x.cycles + 100, verify := e.time, inst := BitVec.ofNat 10 (fld p 28 19)
        gen := BitVec.ofNat 16 (fld p 44 29), tenant := BitVec.ofNat 8 (Config.fresh s.freeCtr).toNat }).tickFree
    | 0x02 => s.setArray tile arr { x with
        state := if x.bound then 0 else 2, cycles := x.cycles + 100, tenant := 0, inst := 0, gen := 0 }
    | 0x03 => s.setArray tile arr { x with cycles := x.cycles + 1, verify := e.time }
    | _ => s
  let s := if 0x10 ≤ e.kind ∧ e.kind ≤ 0x1F then
      ({ s with keep.ledger.repairs := s.keep.ledger.repairs ++ [e] } : State).applyRepair e true else s
  let s := if e.kind = 0x20 then { s with keep.ledger.faults := s.keep.ledger.faults + 1 } else s
  let s := if e.kind = 0x21 then { s with keep.ledger.viols := s.keep.ledger.viols + 1 } else s
  if 0x10 ≤ e.kind then s.flogAdd e else s

/-- Apply a SUMMARY: the counters it preserves. The numbers that journal entries carry forward themselves, the fault log's
NEXT, the map generation and the life counts, are taken from the checkpoint's SUMMARY only. -/
def State.applySummary (s : State) (b : List Word) (first : Bool) : State :=
  let s := savedCounters.foldl (fun s e => s.setReg e.1 (wordAt b e.2)) s
  let s := ((s.setReg aCalCount (wordAt b 4)).setReg aCalLastTime (wordAt b 5)).setReg aPwrStopInfo (wordAt b 124)
  let s := s.setRfld aLedgFlogAck 31 0 (recFld b 123 63 32)
  if !first then s
  else
    let s : State := { s with
      keep.ledger.viols := (wordAt b 17).toNat
      keep.ledger.faults := (wordAt b 18).toNat }
    (s.setReg aRepMapGen (wordAt b 6)).setRfld aLedgFlogPtr 31 0 (recFld b 123 31 0)

/-- Apply a FIELDS body. -/
def State.applyFields (s : State) (b : List Word) : State :=
  (List.range 49).foldl (fun s n =>
    let s := s.setRfld (aRepFieldState n) 15 0 (recFld b (8 * n) 15 0)
    let s := (List.range 4).foldl (fun s i =>
      (s.setReg (aLedgFieldBand n (2 * i)) (BitVec.ofNat 64 (recFld b (8 * n + 1 + i) 31 0))).setReg
        (aLedgFieldBand n (2 * i + 1)) (BitVec.ofNat 64 (recFld b (8 * n + 1 + i) 63 32))) s
    s.setReg (aLedgFieldCycles n) (wordAt b (8 * n + 5))) s

/-- Apply an ARRAYS body. -/
def State.applyArrays (s : State) (b : List Word) : State :=
  let arrs := rowArrays (recFld b 0 5 0) (recFld b 0 9 6)
  ((List.range arrs.length).zip arrs).foldl (fun s e =>
    s.setArray e.2.1 e.2.2 (wordsArray (wordAt b (1 + 2 * e.1)) (wordAt b (2 + 2 * e.1)))) s

/-- Apply a FLOG body: entries from place `k` of the log on. -/
def State.applyFlog (s : State) (k : Nat) (es : List Entry) : State :=
  let next := s.rfld aLedgFlogPtr 31 0
  ((List.range es.length).zip es).foldl (fun s e =>
    if e.2.kind = 0 then s
    else { s with keep.ledger.flog := kvSet ((next + k + e.1) % 1024) e.2 s.keep.ledger.flog }) s

/-- Apply one record of the latest checkpoint or after it. -/
def State.applyRecord (s : State) (first flog0 : Nat) (r : Record) : State :=
  match r.type with
  | 1 => s.applySummary r.body (r.seq == first)
  | 2 => s.applyFields r.body
  | 3 => s.applyArrays r.body
  | 4 =>
    let es := wordsEntries r.body
    let s : State := { s with keep.ledger.repairs := s.keep.ledger.repairs ++ es }
    es.foldl (fun s e => s.applyRepair e false) s
  | 5 => s.applyFlog (252 * (r.seq - flog0)) (wordsEntries r.body)
  | 7 => (wordsEntries r.body).foldl State.applyEntry s
  | _ => s

/-- LEDG.STATUS.LAST_FLUSH after a start: the second of the last record that is sound (R385). -/
def State.lastFlush (s : State) (rs : List Record) : State :=
  match rs.getLast? with
  | some r => s.setRfld aLedgStatus 63 32 (r.time.toNat % 2 ^ 32)
  | none => s

/-- Restore the ledger's state (R382): the latest complete checkpoint, then every later record. A record in one of the slots
`bad` fails its MAC or its MAGIC: it is ignored and, where the restoring would use it, counted. What a start has counted already
is added to the restored counters. With no complete checkpoint the module stands on the factory repair map, which the fault log
tells; the code of that entry is a free value. DESIGN CHOICE (notes/assumptions/184.md). -/
def State.ledgerRestore (s : State) (bad : List Nat) : State :=
  let all := s.recordsInOrder
  let rs := all.filter (fun r => !bad.contains (r.seq % 16384))
  match latestCheckpoint rs with
  | none =>
    let s := (((s.setRfld aLedgStatus 2 1 0).lastFlush rs).bump aLedgUncleanCnt).bumpBy aLedgMacFailCnt (all.length - rs.length)
    (s.fault ((Config.fresh s.freeCtr).toNat % 256) none none ((Config.fresh s.freeCtr).toNat / 256)).tickFree
  | some first =>
    let failed := (all.filter (fun r => decide (first ≤ r.seq) && bad.contains (r.seq % 16384))).length
    let rs := rs.filter (fun r => decide (first ≤ r.seq))
    let flog0 := match rs.find? (fun r => r.type == 5) with
      | some r => r.seq
      | none => first
    let clean := (rs.filter (fun r => r.type == 1 && r.seq != first)).any (fun r => bit (wordAt r.body 7).toNat 0)
    let now := savedCounters.map (fun e => (e.1, (s.reg64 e.1).toNat))
    let s := rs.foldl (fun s r => s.applyRecord first flog0 r) s
    let s := ((now.foldl (fun s e => s.bumpBy e.1 e.2) s).lastFlush rs).bumpBy aLedgMacFailCnt failed
    let s := (s.setReg aLedgCkptSeq (BitVec.ofNat 64 first)).setRfld aLedgStatus 2 1 (pack [(0, b2n clean), (1, 1)])
    if clean then s else s.bump aLedgUncleanCnt

/-! ### The calendar (R373) -/

/-- Whether this module may set its calendar: the root manager, a rack manager without an upper tier, or a module of no
rack. -/
def State.maySetCal (s : State) : Bool :=
  s.isRoot || !s.fab.inRack ||
    (s.isManager && !s.fab.ports.any (fun e => decide (15 ≤ e.1 % 24) && (e.2.state == 2 || e.2.state == 3 || e.2.state == 4)))

/-- Whether a value would set the calendar back by more than 60 s. -/
def State.calBack (s : State) (v : Nat) : Bool := decide (v + 60 < s.calendar)

/-- Set the calendar: forward at once, back by up to 60 s by holding it still, further back refused. An applied set of
more than 1 s is logged. -/
def State.calSetTo (s : State) (v : Nat) : State :=
  let old := s.calendar
  if s.calBack v then s.bump aLedgCalRejectCnt
  else
    let s := s.setRfld aLedgStatus 0 0 1
    let far := decide (old + 1 < v) || decide (v + 1 < old)
    let s := if old ≤ v then
        ({ s with keep.ledger.calHold := 0 } : State).setReg aLedgCalendar (BitVec.ofNat 64 v)
      else { s with keep.ledger.calHold := old - v }
    if far then s.journal 0x22 ((v + 2 ^ 32 - old % 2 ^ 32) % 2 ^ 32) else s

/-- LEDG.CAL_SET as its block takes it. -/
def State.calSetWrite (s : State) (path : Path) (v : Word) : State :=
  if !s.maySetCal then s.refuse path 2 true aLedgCalSet
  else
    let t := s.calSetTo v.toNat
    if s.calBack v.toNat then t.refuse path 2 true aLedgCalSet else t.ok

/-- CAL_SET (R373). -/
def execCalSet (path : Path) (value : Word) (s : State) : Host.Outcome State Fault Refusal :=
  .next (s.access path aLedgCalSet true (fun s => s.calSetWrite path value))

/-- A manager sends its calendar to the modules below it, those whose JOIN it has taken (R300, R373). The message is the
firmware's own: its ring, TYPE, LEN, SEQ and payload are free values. DESIGN CHOICE (notes/assumptions/177.md). -/
def State.sendCalendar (s : State) : State :=
  s.fab.joined.foldl (fun s m =>
    let v := Config.fresh s.freeCtr
    let n := fld v 27 20 % 97
    let head := natLe 8 (pack [(0, s.modNumber), (10, fld v 6 0), (18, n), (32, fld v 63 32)]) ++ List.replicate 24 0
    s.tickFree.msgIssue m (fld v 11 8) (head ++ (List.range n).map (Config.calendarMsg (s.reg64 aLedgCalendar)))) s

/-- CALENDAR_BROADCAST (R373): every 60 s a manager sends its calendar; a module below a manager applies the calendar it
receives. -/
def execCalendarBroadcast (received : Option Word) (s : State) : Host.Outcome State Fault Refusal :=
  match received with
  | none => if s.isReady && s.isManager then s.paced 6 60000000 (fun s => .next s.sendCalendar) else .next s
  | some v => if s.isReady && s.fab.inRack && !s.isRoot then .next (s.calSetTo v.toNat) else .next s

/-! ### The fault log (R383) -/

/-- LEDG.FLOG_ACK as its block takes it: a value between the oldest entry in the log and NEXT. -/
def State.flogAck (s : State) (path : Path) (v : Nat) : State :=
  if (s.rfld aLedgFlogPtr 31 0 + 2 ^ 32 - v % 2 ^ 32) % 2 ^ 32 ≤ 1024 then (s.setRfld aLedgFlogAck 31 0 v).ok
  else s.refuse path 2 true aLedgFlogAck

/-- FLOG_ACK_WRITE (R383). -/
def execFlogAckWrite (path : Path) (value : Half) (s : State) : Host.Outcome State Fault Refusal :=
  .next (s.access path aLedgFlogAck true (fun s => s.flogAck path value.toNat))

/-! ### Wear (R372) -/

/-- The reading of a wafer diode in 1/128 °C. -/
def State.sensorTemp (s : State) (i : Nat) : Int := sext 16 (s.rfld (aThmSensor i) 15 0)

/-- The temperature of a field: the hotter of its two diodes, in 1/128 °C. -/
def State.fieldTemp (s : State) (n : Nat) : Int := max (s.sensorTemp (2 * n)) (s.sensorTemp (2 * n + 1))

/-- The temperature band of a field (R372). -/
def State.bandOf (s : State) (n : Nat) : Nat :=
  if !s.fieldOn n then 0
  else
    let t := s.fieldTemp n
    if t < 40 * 128 then 1 else if t < 60 * 128 then 2 else if t < 75 * 128 then 3 else if t < 85 * 128 then 4
    else if t < 92 * 128 then 5 else if t < 97 * 128 then 6 else 7

/-- One second of powered time, and of each field's band (R372). -/
def State.bandSecond (s : State) : State :=
  let on := (List.range 63).any (fun i => s.domainOn (i + 1))
  let s := if on then s.setReg aLedgPoweredS (s.reg64 aLedgPoweredS + 1) else s
  (List.range 49).foldl (fun s n =>
    let a := aLedgFieldBand n (s.bandOf n)
    s.setRfld a 31 0 (s.rfld a 31 0 + 1)) s

/-- TEMPERATURE_BAND_COUNT (R372): one second of powered time, and of each field's band. -/
def execTemperatureBandCount (s : State) : Host.Outcome State Fault Refusal :=
  if !s.keeperRuns then .next s else s.paced 4 1000000 (fun s => .next s.bandSecond)

end Sys2Proof.Machine
end

