-- ==== Sys2Proof/Machine/FabManage.lean ====
section
/-! DEFINITION. The rack (R285, R301 to R305): barrier messages, holds, heartbeats, takeover, joining, and fabric time. -/

namespace Sys2Proof.Machine

/-- Drop a message for another module, counted (R299). -/
def State.msgFor (s : State) (dest : BitVec 10) (k : State → State) : State :=
  if dest.toNat = s.modNumber then k s else s.bump aFabMisrouteCnt

/-! ### Barriers that span modules (R301, R302) -/

/-- BAR_ARRIVE (R301): the manager takes an arrival and, with every arrival, decides and releases. -/
def execBarArrive (m : BarMsg) (s : State) : Host.Outcome State Fault Refusal :=
  .next (s.msgFor m.dest (fun s => if s.isManager then s.managerArrive m else s))

/-- BAR_RELEASE (R301): a part acts on the decision; the rack manager of a domain that also spans racks passes it to the
parts of its rack. -/
def execBarRelease (m : BarMsg) (s : State) : Host.Outcome State Fault Refusal :=
  .next (s.msgFor m.dest (fun s =>
    match if s.isManager then s.rdirFind m.choId.toNat m.locDom.toNat 0 else none with
    | some e => if s.rdirUpper e then s.rackRelease e m else s.partRelease m
    | none => s.partRelease m))

/-- HOLD (R302): the manager relays it; a part's watchdog for the domain stops or runs again. -/
def execHold (m : BarMsg) (begins : Bool) (s : State) : Host.Outcome State Fault Refusal :=
  .next (s.msgFor m.dest (fun s => if s.isManager then s.managerHold m begins else s.partHold m begins))

/-! ### Heartbeats and takeover (R302) -/

/-- The mark of the arrival that a part still waits on. -/
def pendingMark (x : Domain) : Nat :=
  if x.state = 1 then 0 else if x.state = 2 ∨ x.state = 3 then domMark x else 2

/-- Every part that waits for a release sends its arrival again, to the manager now in charge. -/
def State.resendArrivals (s : State) : State :=
  (s.con.doms.filter (fun e => e.2.spans && e.2.awaitRelease)).foldl (fun s e => s.partArrive e.1 (pendingMark e.2)) s

/-- HEARTBEAT (R302): a manager's heartbeat with a TERM not below the module's own names the manager; a change makes the
module send its pending arrivals again, and a former manager that sees a higher TERM serves as standby. -/
def execHeartbeat (src : BitVec 10) (term : Half) (role : BitVec 8) (s : State) : Host.Outcome State Fault Refusal :=
  let near := decide (rackOf src.toNat = rackOf s.modNumber)
  if role ≠ 1 ∧ role ≠ 3 then .next s
  else if !near then .next (if s.isManager then { s with fab.lastBeat := s.clock } else s)
  else if term.toNat < s.term then .next s
  else if s.isManager ∧ term.toNat = s.term then .next s
  else
    let changed := decide (s.managerNo ≠ src.toNat)
    let s := if s.isManager then s.setRfld aFabModId 11 10 2 else s
    let s := ((s.setRfld aFabMgrState 1 0 0).setRfld aFabMgrState 11 2 src.toNat).setRfld aFabMgrState 43 12 term.toNat
    let s : State := { s with fab.lastBeat := s.clock }
    .next (if changed then s.resendArrivals else s)

/-- Send HEARTBEAT to each module of the rack on the first port toward it that is up. -/
def State.sendBeats (s : State) : State :=
  let own := s.modNumber
  let role := if s.isRoot then 3 else 1
  (((List.range 16).map (fun i => rackOf own * 16 + i)).filter (fun m => m != own)).foldl (fun s m =>
    match s.portFor m with
    | some t => s.ctrlSendOn t [.heartbeat (BitVec.ofNat 10 own) (BitVec.ofNat 10 m) (BitVec.ofNat 32 s.term) (BitVec.ofNat 8 role)]
    | none => s) s

/-- HEARTBEAT_SEND (R302): every 1 ms. A takeover in progress ends with the first heartbeats after it. DEDUCED
(notes/assumptions/85.md). -/
def execHeartbeatSend (s : State) : Host.Outcome State Fault Refusal :=
  if !s.isManager then .next s else s.paced 5 1000 (fun s => .next (s.setRfld aFabMgrState 1 0 0).sendBeats)

/-- MANAGER_LOSS (R302): no heartbeat for 100 ms. Every part of a spanning domain stops as after a stall. -/
def execManagerLoss (s : State) : Host.Outcome State Fault Refusal :=
  if s.isManager || s.rfld aFabMgrState 1 0 == 2 || decide (s.clock < s.fab.lastBeat + 100000) then .next s
  else
    let s := s.setRfld aFabMgrState 1 0 2
    .next ((s.con.doms.filter (fun e => e.2.spans && (e.2.state == 1 || e.2.state == 2 || e.2.state == 3))).foldl
      (fun s e => s.stallDom e.1) s)

/-- STANDBY_TAKEOVER (R302): the standby, without heartbeat for 20 ms, raises TERM and says so as manager; FAB.MGR_STATE reads
that its takeover is in progress. -/
def execStandbyTakeover (s : State) : Host.Outcome State Fault Refusal :=
  if s.rfld aFabModId 11 10 ≠ 2 ∨ s.clock < s.fab.lastBeat + 20000 then .next s
  else
    let s := (s.setRfld aFabModId 11 10 1).bump aFabMgrTakeoverCnt
    let s := s.setRfld aFabMgrState 43 12 ((s.term + 1) % 2 ^ 32)
    let s := (s.setRfld aFabMgrState 11 2 s.modNumber).setRfld aFabMgrState 1 0 1
    .next (s.ranNow 5).sendBeats.resendArrivals

/-- JOIN (R285): a module whose number is already present in the rack is refused and counted. -/
def execJoin (src : BitVec 10) (_count : Half) (_slot : BitVec 8) (s : State) : Host.Outcome State Fault Refusal :=
  let m := src.toNat
  if m = s.modNumber ∨ s.fab.joined.contains m then .next (s.bump aFabJoinRejectCnt)
  else .next { s with fab.joined := natAdd m s.fab.joined }

/-! ### Fabric time (R304, R305) -/

/-- FAB.TIME_CFG.MODE. -/
def State.timeMode (s : State) : Nat := s.rfld aFabTimeCfg 0 0

/-- The module that a follower takes its time from: its rack manager, or the root manager. -/
def State.timeParent (s : State) : Nat := if s.isManager then s.rfld aFabTimeCfg 10 1 else s.managerNo

/-- SYNC_EXCHANGE (R304): a follower in mode 1 sends a SYNC request to its parent; t1 is taken when it leaves. -/
def execSyncExchange (port : BitVec 7) (s : State) : Host.Outcome State Fault Refusal :=
  let t := port.toNat
  if s.timeMode ≠ 1 ∨ s.isRoot ∨ !portUp (s.port t) then .next s
  else
    let s : State := { s with fab.syncPort := some t }
    .next (s.ctrlSendOn t [.sync (BitVec.ofNat 10 s.modNumber) (BitVec.ofNat 10 s.timeParent) false 0])

/-- SYNC (R304): a request is answered with T2, the counter as it arrives, and a SYNC_RES in the same slot, whose residence is
taken as the two leave; a response gives t2 and t4. -/
def execSync (port : BitVec 7) (src : BitVec 10) (response : Bool) (t2 : Word) (s : State) :
    Host.Outcome State Fault Refusal :=
  let t := port.toNat
  if !response then
    let own := BitVec.ofNat 10 s.modNumber
    .next (s.ctrlSendOn t [.sync own src true s.fcount, .syncRes own src 0])
  else if s.timeMode = 1 ∧ s.fab.syncPort = some t then
    .next { s with fab.syncT2 := t2, fab.syncT4 := s.fcount }
  else .next s

/-- The difference of two counter values, as a signed number. -/
def wordDiff (a b : Word) : Int := (a - b).toInt

/-- The rate correction of an offset in ns (R304): offset / 1 ms, at most 1 ppm either way, in units of 2^−32. -/
def rateOf (offset : Int) : Int := max (-4294) (min 4294 (offset * 2 ^ 32 / 1000000))

/-- SYNC_RES (R304): the exchange is complete. The first one, at join, steps the counter; later ones correct its rate. -/
def execSyncRes (port : BitVec 7) (residence : Half) (s : State) : Host.Outcome State Fault Refusal :=
  if s.timeMode ≠ 1 ∨ s.isRoot ∨ s.fab.syncPort ≠ some port.toNat then .next s
  else
    let t3 := s.fab.syncT2 + BitVec.ofNat 64 residence.toNat
    let offset := (wordDiff s.fab.syncT2 s.fab.syncT1 - wordDiff s.fab.syncT4 t3) / 2
    let s := if s.fab.lastSync = 0 then s.setReg aFabFcount (s.fcount + BitVec.ofInt 64 offset)
      else { s with fab.rate := rateOf offset }
    .next ((({ s with fab.lastSync := s.clock, fab.syncPort := none } : State)).setRfld aFabTimeCfg 12 12 0)

/-- HOLDOVER_ENTER (R305): a follower in mode 1 without a response for 1 s holds its rate. -/
def execHoldoverEnter (s : State) : Host.Outcome State Fault Refusal :=
  if s.timeMode ≠ 1 || s.isRoot || s.rbit aFabTimeCfg 12 || decide (s.clock < s.fab.lastSync + 1000000) then .next s
  else .next ((s.setRfld aFabTimeCfg 12 12 1).bump aFabHoldoverCnt)

/-- RACK_EPOCH_EDGE (R304): in mode 0 the counter goes to the next multiple of 1,000,000 ns, or to that of the epoch number,
where the manager has given it. How a number and the counter's multiple are one is DEDUCED (notes/assumptions/178.md). -/
def execRackEpochEdge (s : State) (epoch : Option Word := none) : Host.Outcome State Fault Refusal :=
  if s.timeMode ≠ 0 then .next s
  else
    let n := match epoch with
      | some e => e.toNat
      | none => (s.fcount.toNat + 999999) / 1000000
    .next (s.setReg aFabFcount (BitVec.ofNat 64 (n * 1000000)))

/-- Set CAL.STATUS.REF_FALLBACK; in time mode 0 FAB.TIME_CFG.REF_FALLBACK follows (R305, R413). -/
def State.refFallback (s : State) (b : Bool) : State :=
  let s := s.setRfld aCalStatus 3 3 (b2n b)
  if s.timeMode = 0 then s.setRfld aFabTimeCfg 11 11 (b2n b) else s

/-- RACK_REF_ABSENT (R413); order 4 of a service calibration ends the run with STATE 5 (R418). -/
def execRackRefAbsent (s : State) : Host.Outcome State Fault Refusal :=
  let s := ({ s with keep.pins.rackRef := false } : State).refFallback true
  if s.keep.calOrder = 4 then .next (({ s with keep.calOrder := 0 } : State).setRfld aCalStatus 2 0 5) else .next s

/-- RACK_REF_RESTORED (R413): after READY the fallback clears once RACK_REF has been present for 1 s. -/
def execRackRefRestored (s : State) : Host.Outcome State Fault Refusal :=
  let s : State := { s with keep.pins.rackRef := true }
  .next (if s.isReady && !s.inRecovery then s.refFallback false else s)

end Sys2Proof.Machine
end

