-- ==== Sys2Proof/Machine/HostPort.lean ====
section
/-! DEFINITION. The host port (R308 to R318): its link and reset, the HDM window, and the reads of host memory by the load engines. -/

namespace Sys2Proof.Machine

/-! ### Host-fed shards (R221, R317) -/

/-- The host-fed shards that are being fetched, as (instance, shard). -/
def State.hostFetches (s : State) : List (Nat × Nat) :=
  s.load.jobs.flatMap (fun j =>
    ((List.range j.env.shards.length).filter (fun k =>
      shHost (j.env.shards.getD k []) && (s.fetchJob (descInst j.desc) k).isSome)).map (fun k => (descInst j.desc, k)))

/-- Fail the attempt of a host-fed shard that is being fetched (R234, R317). -/
def State.hostFail (s : State) (i k : Nat) : State :=
  match s.fetchJob i k with
  | some (n, j) => if shHost (j.env.shards.getD k []) then (s.attemptFail n k).jobsPump 300 else s
  | none => s

/-- Fail the attempt of every host-fed shard. -/
def State.hostFailAll (s : State) : State := s.hostFetches.foldl (fun s e => s.hostFail e.1 e.2) s

/-! ### Link and reset (R318) -/

/-- HOST.LINK_STATE with STATE, WIDTH and RATE; a link that is not up is not secure, and its keys are gone (R330). -/
def State.hostLink (s : State) (st width rate : Nat) : State :=
  let up := st == 2 || st == 3
  let s := s.setRfld aHostLinkState 6 0 (pack [(0, st), (3, width), (5, rate)])
  let s := if up then s else ({ s with ideLost := 0 } : State).setRfld aHostLinkState 8 7 0
  s.setRfld aHostLinkState 9 9 (b2n (up && s.inRecovery))

/-- The streams that CXL IDE key management has keyed are secure, and run again after a failure (R308, R317, R330): bit 0
CXL.io, bit 1 CXL.cache and CXL.mem. -/
def State.ideKeyed (s : State) (streams : BitVec 2) : State :=
  ({ s with ideLost := s.ideLost &&& ~~~streams } : State).setRfld aHostLinkState 8 7
    (s.rfld aHostLinkState 8 7 ||| streams.toNat)

/-- Empty every append window's assembly buffer that holds part of a host entry, counted by window. -/
def State.partialDrop (s : State) : State :=
  s.mem.rings.foldl (fun s e => e.2.host.foldl (fun s w => (s.partClear e.1 w).bump aHostPartialDropCnt) s) s

/-- The host is gone: partial entries and host-fed attempts are lost; counted while READY. -/
def State.hostGone (s : State) : State :=
  let s := if s.isReady then s.bump aHostLinkDownCnt else s
  s.partialDrop.hostFailAll

/-- PERST_N_ASSERT (R318): the port is held in reset. -/
def execPerstNAssert (s : State) : Host.Outcome State Fault Refusal :=
  .next ((({ s with keep.pins.perstN := false } : State)).hostLink 0 0 0).hostGone

/-- Whether the host port may train: PD_HOST is on, and the start sequence has reached order 13 or RECOVERY_HOST has powered
it (R318, R327, R346). -/
def State.hostMayTrain (s : State) : Bool :=
  s.domainOn 62 && (decide (13 ≤ s.rfld aKeepState 4 0) || s.inRecovery)

/-- PERST_N_RELEASE (R318): training begins at once, or when the start sequence reaches order 13. -/
def execPerstNRelease (s : State) : Host.Outcome State Fault Refusal :=
  let s : State := { s with keep.pins.perstN := true }
  .next (if s.hostMayTrain && s.rfld aHostLinkState 2 0 == 0 then s.hostLink 1 0 0 else s)

/-- HOST_LINK_DOWN (R318): the link goes down without PERST_N and retrains. -/
def execHostLinkDown (s : State) : Host.Outcome State Fault Refusal :=
  if !s.hostUp then .next s else .next (s.hostLink 1 0 0).hostGone

/-- HOST_LINK_TRAINED (R308, R309, R318): the link, in training or retraining from L0 or L1, is in L0 at a width and rate, or
DOWN below ×4 at 32 GT/s. The table has no command of its own for an L0 link that goes to L1, `l1`, nor for the streams that the
host keys over DOE, `ide`. DESIGN CHOICE (notes/assumptions/179.md). -/
def execHostLinkTrained (width rate : BitVec 2) (s : State) (l1 : Bool := false) (ide : BitVec 2 := 0) :
    Host.Outcome State Fault Refusal :=
  let st := s.rfld aHostLinkState 2 0
  if (st ≠ 1 ∧ !s.hostUp) ∨ !s.keep.pins.perstN then .next s
  else if width = 0 ∨ rate = 0 then .next (if s.hostUp then (s.hostLink 4 0 0).hostGone else s.hostLink 4 0 0)
  else .next ((s.hostLink (if l1 && st == 2 then 3 else 2) width.toNat rate.toNat).ideKeyed ide)

/-! ### The HDM window (R313 to R316) -/

/-- CXL_MEM_ACCESS (R210, R308, R314, R315): 64 bytes of the HDM window, checked against the memory agent's tag. A frozen agent's
reads return data with poison and its writes are discarded. A poisoned write stores the poison pattern, and a read that the
stack's ECC cannot correct returns poison. -/
def execCxlMemAccess (write : Bool) (offset : Nat) (data : List Byte) (s : State) (poison : Bool := false) (ecc : Ecc := .clean) :
    Host.Outcome State Fault Refusal :=
  let off := offset / 64 * 64
  let open64 := (List.range 64).map (fun i => Config.poisonByte i)
  if !s.hostUp || s.outputsReleased || s.inRecovery || s.ideLost.getLsbD 1 then .next s.err
  else if s.frozenAt 2 1 then .next (s.answer 2 (if write then [] else open64))
  else
    match s.hdmAt off with
    | none => .next (s.hostViolate 6 1 write offset)
    | some (kind, a) =>
      let tag := s.agentTag 1
      if tag ≠ 0 ∧ s.pageTag (pageOf a) ≠ some tag then .next (s.hostViolate 4 1 write offset)
      else if write && kind == 6 then .next (s.hostViolate 5 1 write offset)
      else if write then
        let s := s.stkLand a (data.take 64)
        .next (if poison then (s.stkPoison (a / 32)).stkPoison (a / 32 + 1) else s).ok
      else
        let s := s.pagesTouch false a 64
        let bad := s.stackOffline (stackOf a) || ecc == .uncorrectable || s.stkBad a || s.stkBad (a + 32)
        .next ((s.eccNote a ecc none none).answer (if bad then 2 else 0) (s.stk a 64))

/-! ### The module as requester (R317) -/

/-- HOST_READ_COMPLETION (R317): poison, UR or CA fails the shard attempt. -/
def execHostReadCompletion (inst : BitVec 10) (shard : Nat) (c : HostCpl) (s : State) : Host.Outcome State Fault Refusal :=
  if !s.hostFetches.contains (inst.toNat, shard) then .next s
  else
    match c with
    | .data => .next s
    | .poison => .next ((s.bump aHostPoisonRxCnt).hostFail inst.toNat shard)
    | _ => .next (s.hostFail inst.toNat shard)

/-- HOST_CPL_TIMEOUT (R317): a read without completion for 50 ms fails the attempt. -/
def execHostCplTimeout (inst : BitVec 10) (shard : Nat) (s : State) : Host.Outcome State Fault Refusal :=
  match s.fetchJob inst.toNat shard with
  | none => .next s
  | some (_, j) =>
    if !s.hostFetches.contains (inst.toNat, shard) || decide (s.clock < kvGet 0 shard j.since + 50000) then .next s
    else .next ((s.bump aHostCplTmoCnt).hostFail inst.toNat shard)

/-- IDE_FAILURE (R317): the stream is secure no longer, and what it carried is lost until it is re-keyed; on the CXL.io stream the
reads in flight fail their attempts. -/
def execIdeFailure (memStream : Bool) (s : State) : Host.Outcome State Fault Refusal :=
  let s := s.bump aHostIdeErrCnt
  let s : State := { s with ideLost := s.ideLost ||| (if memStream then 2 else 1) }
  if memStream then .next (s.setRfld aHostLinkState 8 8 0) else .next (s.setRfld aHostLinkState 7 7 0).hostFailAll

end Sys2Proof.Machine
end

