-- ==== Sys2Proof/Machine/Service.lean ====
section
/-! DEFINITION. The service ports (R319 to R324, R331): connections, RDMA WRITE, RDMA READ, SEND, response SENDs, errors and QP_CMD. -/

namespace Sys2Proof.Machine

/-! ### Queue pairs (R331) -/

/-- The number of a queue pair across both ports. -/
def qpKey (p n : Nat) : Nat := p * 4096 + n

/-- STATE of a queue pair: 0 free, 1 connected, 2 error, 3 frozen. -/
def State.qpState (s : State) (p n : Nat) : Nat := s.rfld (aSvcQp p n) 1 0

/-- Set STATE of a queue pair and the count of connected ones. -/
def State.setQpState (s : State) (p n st : Nat) : State :=
  let old := s.qpState p n
  let c := s.rfld (aSvcPortState p) 28 16
  let s := s.setRfld (aSvcQp p n) 1 0 st
  s.setRfld (aSvcPortState p) 28 16 (c + b2n (st == 1) - b2n (old == 1))

/-- The profile word of a connection. -/
def State.connWord (s : State) (p n : Nat) : Word := kvGet 0 (qpKey p n) s.srv.conns

/-- The tag of a connection. -/
def connTag (w : Word) : Nat := fld w 7 0
/-- REQ_RING, WINDOW and REQ_EN; RESP_RING and RESP_EN; MSG_RING and MSG_EN. -/
def connReq (w : Word) : Nat := fld w 15 8
def connWin (w : Word) : Nat := fld w 18 16
def connReqEn (w : Word) : Bool := bit w.toNat 19
def connResp (w : Word) : Nat := 256 + fld w 27 20
def connRespEn (w : Word) : Bool := bit w.toNat 28
def connMsg (w : Word) : Nat := 514 + fld w 32 29
def connMsgEn (w : Word) : Bool := bit w.toNat 33

/-- SENDS_OUT. -/
def State.sendsOut (s : State) (p n : Nat) : Nat := s.rfld (aSvcQp p n + 8) 4 0

/-- A queue pair enters the error state (R324): its port stops consuming its ring. -/
def State.qpFail (s : State) (p n : Nat) : State :=
  ((s.setQpState p n 2).setRfld (aSvcQp p n + 8) 4 0 0).bump aSvcQpErrCnt

/-- An operation outside the address table (R321): a NAK, and the queue pair goes to error. -/
def State.qpNak (s : State) (p n : Nat) : State := ((s.qpFail p n).bump aSvcNakCnt).err

/-- A tenant check fails (R324): the connection freezes, recorded and counted, and sends nothing. -/
def State.connViolate (s : State) (p n ring family addr : Nat) : State :=
  let tag := connTag (s.connWord p n)
  let s := (s.setQpState p n 3).freezeMaster 3 (qpKey p n) tag
  let s := s.setReg aSvcViolInfo (BitVec.ofNat 64 (pack [(0, p), (1, n), (13, tag), (21, ring), (29, family)]))
  (s.bump aSvcViolCnt).violEntry 3 (qpKey p n) tag 4 addr

/-- Whether a connection's tag may use a ring (R137, R324). -/
def State.connMay (s : State) (p n r : Nat) : Bool :=
  let tag := connTag (s.connWord p n)
  tag == 0 || s.ringTenant r == tag

/-! ### Connections (R320) -/

/-- The response ring is bound by a queue pair in use. -/
def State.respBound (s : State) (r : Nat) : Bool :=
  s.srv.conns.any (fun e => s.qpState (e.1 / 4096) (e.1 % 4096) != 0 && connRespEn e.2 && connResp e.2 == r)

/-- Whether a source address lies in a profile's prefix. -/
def State.inPrefix (s : State) (k : Nat) (src : BitVec 128) : Bool :=
  let n := s.rfld (aSvcProfile k + 8) 7 0
  let pre := (s.reg64 (aSvcProfile k + 16)).toNat + 2 ^ 64 * (s.reg64 (aSvcProfile k + 24)).toNat
  decide (n ≤ 128) && src.toNat / 2 ^ (128 - n) == pre / 2 ^ (128 - n)

/-- CM_CONNECT_REQUEST (R320): accepted against an enabled profile of the port, with the source in its prefix, its response
ring unbound and a queue pair free, the lowest; else rejected and counted. The profile as a COMMIT left it applies from here
(R351). The local queue pair number and the R_Key that the port returns are free values. -/
def execCmConnectRequest (port : BitVec 1) (profile : BitVec 8) (source : BitVec 128) (rqpn : BitVec 24) (s : State) :
    Host.Outcome State Fault Refusal :=
  let p := port.toNat
  let k := profile.toNat
  if s.rfld (aSvcPortState p) 1 0 ≠ 2 then .next s.err
  else
    let s := [0, 8, 16, 24].foldl (fun (s : State) o => s.applyReg (aSvcProfile k + o)) s
    let w := s.reg64 (aSvcProfile k)
    let n := firstGap 0 (((List.range 4096).filter (fun i => s.qpState p i != 0)))
    if !bit w.toNat 37 || !bit w.toNat (34 + p) || !s.inPrefix k source || (connRespEn w && s.respBound (connResp w)) ||
        decide (4096 ≤ n) then .next (s.bump aSvcConnRejectCnt).err
    else
      let lqpn := fld (Config.fresh s.freeCtr) 23 0
      let rkey := fld (Config.fresh s.freeCtr) 63 32
      let s := s.tickFree.setReg (aSvcQp p n) (BitVec.ofNat 64 (pack [(2, k), (10, lqpn), (34, rqpn.toNat)]))
      let s := (s.setReg (aSvcQp p n + 8) 0).setQpState p n 1
      .next (({ s with
        srv.conns := kvSet (qpKey p n) w s.srv.conns
        srv.rkeys := kvSet (qpKey p n) (BitVec.ofNat 32 rkey) s.srv.rkeys } : State).answer 0 (natLe 4 rkey))

/-- Whether an operation names the R_Key of its connection (R321). -/
def State.keyOk (s : State) (p n : Nat) (rkey : Half) : Bool := kvFind (qpKey p n) s.srv.rkeys == some rkey

/-! ### Operations (R321 to R323) -/

/-- Cut a byte string into entries. -/
def entryCut (esz : Nat) : Nat → List Byte → List (List Byte)
  | 0, _ => []
  | n + 1, bs => bs.take esz :: entryCut esz n (bs.drop esz)

/-- RDMA_WRITE (R321): each ESZ bytes enters the bound request ring as one whole entry, in order. -/
def execRdmaWrite (port : BitVec 1) (qp : BitVec 12) (addr : RdmaAddr) (data : List Byte) (s : State) : Host.Outcome State Fault Refusal :=
  let p := port.toNat
  let n := qp.toNat
  let w := s.connWord p n
  let r := connReq w
  let esz := s.ringEsz r
  let k := data.length / esz
  if s.qpState p n ≠ 1 then .next s
  else if !connReqEn w || !s.keyOk p n addr.rkey || addr.va != 0 || data.length % esz != 0 || k == 0 || decide (64 < k) then .next (s.qpNak p n)
  else if !s.connMay p n r then .next (s.connViolate p n r 0 addr.va)
  else .next ((entryCut esz k data).foldl (fun s bs => s.entryWrite r (connWin w) bs) s).ok

/-- RDMA_READ (R321): the request ring's status block. -/
def execRdmaRead (port : BitVec 1) (qp : BitVec 12) (addr : RdmaAddr) (len : Nat) (s : State) : Host.Outcome State Fault Refusal :=
  let p := port.toNat
  let n := qp.toNat
  let w := s.connWord p n
  let r := connReq w
  if s.qpState p n ≠ 1 then .next s
  else if !connReqEn w || !s.keyOk p n addr.rkey || addr.va != 0x1000 || decide (len < 8) || decide (64 < len) then .next (s.qpNak p n)
  else if !s.connMay p n r then .next (s.connViolate p n r 0 addr.va)
  else
    let block := natLe 8 (s.ringPtr r) ++ natLe 8 (s.reg64 (aRingDrop r)).toNat ++ List.replicate 48 0
    .next (s.answer 0 (block.take len))

/-- SEND (R321, R323): one rack message ring entry, whose header bytes 8 to 11 the port writes; a full ring drops it. A SEND
has no address: the one recorded with a violation is a free value. -/
def execSend (port : BitVec 1) (qp : BitVec 12) (data : List Byte) (s : State) : Host.Outcome State Fault Refusal :=
  let p := port.toNat
  let n := qp.toNat
  let w := s.connWord p n
  let r := connMsg w
  let esz := s.ringEsz r
  if s.qpState p n ≠ 1 then .next s
  else if !connMsgEn w || decide (esz < data.length) then .next (s.qpNak p n)
  else if !s.connMay p n r then .next (s.tickFree.connViolate p n (r - 514) 2 (fld (Config.fresh s.freeCtr) 31 0))
  else
    let bs := data ++ List.replicate (esz - data.length) 0
    let bs := bs.take 8 ++ natLe 4 (pack [(0, 1), (1, p), (2, n)]) ++ bs.drop 12
    .next (if s.ringSpace r then s.ringPut r bs else s.bump (aRingDrop r)).ok

/-- RESPONSE_SEND (R322): the port sends the next entry of the bound response ring, with at most 16 unacknowledged. -/
def execResponseSend (port : BitVec 1) (qp : BitVec 12) (s : State) : Host.Outcome State Fault Refusal :=
  let p := port.toNat
  let n := qp.toNat
  let w := s.connWord p n
  let r := connResp w
  let k := s.sendsOut p n
  if s.qpState p n ≠ 1 ∨ !connRespEn w ∨ 16 ≤ k ∨ s.ringHolds r ≤ k then .next s
  else if !s.connMay p n r then .next (s.tickFree.connViolate p n (r - 256) 1 (fld (Config.fresh s.freeCtr) 31 0))
  else
    let bs := s.slotRead r (((s.ring r).head + k) % s.ringCount r)
    let s := s.slotTouch r (((s.ring r).head + k) % s.ringCount r)
    .next ((s.setRfld (aSvcQp p n + 8) 4 0 (k + 1)).answer 0 bs)

/-- RESPONSE_SEND_ACK (R322): the oldest SEND is acknowledged and its entry leaves the ring. -/
def execResponseSendAck (port : BitVec 1) (qp : BitVec 12) (s : State) : Host.Outcome State Fault Refusal :=
  let p := port.toNat
  let n := qp.toNat
  let k := s.sendsOut p n
  if s.qpState p n ≠ 1 ∨ k = 0 then .next s
  else .next ((s.setRfld (aSvcQp p n + 8) 4 0 (k - 1)).ringPop (connResp (s.connWord p n)))

/-! ### Errors (R324) -/

/-- QP_ERROR (R324). -/
def execQpError (port : BitVec 1) (qp : BitVec 12) (s : State) : Host.Outcome State Fault Refusal :=
  if s.qpState port.toNat qp.toNat = 1 then .next (s.qpFail port.toNat qp.toNat) else .next s

/-- SVC_LINK_DOWN (R324): every connected queue pair of the port goes to error. -/
def execSvcLinkDown (port : BitVec 1) (s : State) : Host.Outcome State Fault Refusal :=
  let p := port.toNat
  if s.rfld (aSvcPortState p) 1 0 ≠ 2 then .next s
  else
    let s := (s.setRfld (aSvcPortState p) 1 0 3).bump aSvcLinkDownCnt
    .next ((s.srv.conns.filter (fun e => e.1 / 4096 == p && s.qpState p (e.1 % 4096) == 1)).foldl
      (fun s e => s.qpFail p (e.1 % 4096)) s)

/-- Free a queue pair index and unbind its response ring. -/
def State.qpFree (s : State) (p n : Nat) : State :=
  let s := ((s.setQpState p n 0).setReg (aSvcQp p n) 0).setReg (aSvcQp p n + 8) 0
  { s with
    srv.conns := kvDel (qpKey p n) s.srv.conns
    srv.rkeys := kvDel (qpKey p n) s.srv.rkeys }

/-- SVC.QP_CMD.RESET as the block takes it: refused but in the error state. -/
def State.qpReset (s : State) (path : Path) (p n : Nat) : State :=
  if s.qpState p n = 2 then (s.qpFree p n).ok else s.refuse path 2 true aSvcQpCmd

/-- QP_CMD_RESET (R331). -/
def execQpCmdReset (path : Path) (port : BitVec 1) (qp : BitVec 12) (s : State) : Host.Outcome State Fault Refusal :=
  .next (s.access path aSvcQpCmd true (fun s => s.qpReset path port.toNat qp.toNat))

end Sys2Proof.Machine
end

