-- ==== Sys2Proof/Machine/Power.lean ====
section
/-! DEFINITION. The power domains (R39, R40, R394, R396), failing fields and supplies (R366, R369), control pairs (R368), stacks without an interface (R370), and the recovery state (R347). -/

namespace Sys2Proof.Machine

/-! ### Setpoints (R394) -/

/-- The wafer domains. -/
def waferDomains : List Nat := (List.range 63).map (fun i => i + 1)

/-- Whether any wafer domain is on. -/
def State.waferOn (s : State) : Bool := waferDomains.any (fun d => s.domainOn d)

/-- The domain whose throttle setpoint a domain follows: PD_Ci is paired with PD_Mi (R392). -/
def throttlePair (d : Nat) : Nat := if 50 ≤ d ∧ d ≤ 56 then d - 7 else d

/-- The throttle setpoint of a domain; 850 mV limits nothing. -/
def State.throttleOf (s : State) (d : Nat) : Nat :=
  if 1 ≤ d ∧ d ≤ 56 then kvGet 850 (throttlePair d) s.keep.thermal.throttleMv else 850

/-- The cap setpoint as it acts on a domain: every PD_F and PD_M (R393). -/
def State.capOf (s : State) (d : Nat) : Nat := if 1 ≤ d ∧ d ≤ 49 then s.rfld aPwrPower 25 16 else 850

/-- Regulate a domain to the lowest of its setpoints and show which governs (R394, R405). -/
def State.regulate (s : State) (d : Nat) : State :=
  let a := aPwrDomain d
  if !s.domainOn d then (s.setRfld a 19 10 0).setRfld a 22 21 0
  else
    let set := s.rfld a 9 0
    let t := s.throttleOf d
    let c := s.capOf d
    (s.setRfld a 19 10 (min set (min t c))).setRfld a 22 21
      (pack [(0, b2n (decide (t < set) && decide (t ≤ c))), (1, b2n (decide (c < set) && decide (c ≤ t)))])

/-- Regulate every wafer domain; CAP_ACTIVE shows whether the cap setpoint limits any of them. -/
def State.regulateAll (s : State) : State :=
  let s := waferDomains.foldl State.regulate s
  s.setRfld aPwrPower 26 26 (b2n (waferDomains.any (fun d => s.rbit (aPwrDomain d) 22)))

/-! ### Domains that go off -/

/-- The domains that require a domain, of those that are on or ramping (R40). -/
def State.needers (s : State) (d : Nat) : List Nat :=
  (List.range 64).filter (fun e => (domainNeeds e).contains d && (s.domainOn e || s.keep.thermal.ramping.contains e))

/-- Whether a field drives the link into a router input (R39). -/
def drivenBy (f k : Nat) : Bool :=
  match feedOf (k / 5) (k % 5) with
  | some o => fieldOf (outPos o) == f
  | none => false

/-- What a field loses with its supply (R39): the flits in its routers and on the links it drives, its tiles' operations and
scratch, and the flags and queues of its sync block. Nothing leaves an unpowered field. -/
def State.fieldDark (s : State) (f : Nat) : State :=
  { s with
    wafer.links := kvMap {} (fun k l =>
      if fieldOf (k / 5) = f then { l with buf := [], wire := [] }
      else if drivenBy f k then { l with wire := [] }
      else l) s.wafer.links
    con.flags := s.con.flags.filter (fun e => flagField e.1 != f)
    con.queues := s.con.queues.filter (fun e => queueField e.1 != f)
    wafer.tiles := kvMap {} (fun t x => if fieldOf t = f then { x with outbox := [], reads := [], product := none } else x)
      s.wafer.tiles
    wafer.scratch := s.wafer.scratch.filter (fun c => fieldOf (c.1 / 2 ^ 22) != f)
    wafer.scratchBad := s.wafer.scratchBad.filter (fun a => fieldOf (a / 2 ^ 22) != f) }

/-- The stacks of a memory field lose their contents; they are cleared at power-on. -/
def State.stacksDark (s : State) (i : Nat) : State :=
  let mine := fun a => stackOf a / 4 == i
  { s with
    mem.stack := s.mem.stack.filter (fun c => !mine c.1)
    mem.stackBad := s.mem.stackBad.filter (fun w => !mine (w * 32))
    mem.stackUnits := s.mem.stackUnits.filter (fun e => e.1 / 4 != i) }

/-- The ports and the completion table of an edge group are gone (R39, R369): its 24 ports read STATE 0. -/
def State.edgeDark (s : State) (g : Nat) : State :=
  let s := (List.range 24).foldl (fun s k =>
    let t := 24 * g + k
    let p := s.port t
    s.setPort t { badTx := p.badTx, badRx := p.badRx, spare := p.spare, state := if p.state = 6 then 6 else 0 }) s
  { s with
    fab.ctab := s.fab.ctab.filter (fun e => e.1 / 32768 != g)
    fab.joined := s.fab.joined.filter (fun m => s.reaches m) }

/-- Every queue pair of the service ports goes to error (R324, R369). -/
def State.svcDark (s : State) : State :=
  let s := (s.srv.conns.filter (fun e => s.qpState (e.1 / 4096) (e.1 % 4096) == 1)).foldl
    (fun s e => s.qpFail (e.1 / 4096) (e.1 % 4096)) s
  (s.setRfld (aSvcPortState 0) 1 0 0).setRfld (aSvcPortState 1) 1 0 0

/-- Loupe and the trace buffers stop (R369): every domain under Loupe stops with STATE 8. -/
def State.debugDark (s : State) : State :=
  let s := (s.con.doms.filter (fun e => e.2.loupe && (e.2.state == 2 || e.2.state == 3))).foldl (fun s e => s.stopDom e.1 8) s
  ({ s with dbg := {}, con.doms := s.con.doms.map (fun e => (e.1, { e.2 with loupe := false })) } : State).setRfld aDbgStatus 0 0 0

/-- The sequences of the instances homed on a control cluster end with INSTANCE_FAULT (R368, R369). -/
def State.clusterDark (s : State) (i : Nat) : State :=
  let s := (s.load.insts.filter (fun e => s.ifaceHome e.1 == i && s.ifaceOn e.1)).foldl (fun s e => s.endSeqs e.1 8) s
  { s with mem.sram := s.mem.sram.filter (fun c => c.1 / 2 ^ 25 != i) }

/-- What is lost with the supply of a domain. -/
def State.dark (s : State) (d : Nat) : State :=
  if 1 ≤ d ∧ d ≤ 42 then (s.fieldDark (domainField d)).setRfld (aRepFieldState (domainField d)) 3 3 0
  else if 43 ≤ d ∧ d ≤ 49 then
    ((s.fieldDark (domainField d)).stacksDark (d - 43)).setRfld (aRepFieldState (domainField d)) 3 3 0
  else if 50 ≤ d ∧ d ≤ 56 then s.clusterDark (d - 50)
  else if 57 ≤ d ∧ d ≤ 60 then s.edgeDark (d - 57)
  else if d = 61 then s.svcDark
  else if d = 62 then (s.hostLink 0 0 0).hostGone
  else s.debugDark

/-- A ramp that is broken off, since a prerequisite has gone (R40). -/
def State.rampStop (s : State) (d : Nat) : State :=
  ({ s with keep.thermal.ramping := natDel d s.keep.thermal.ramping } : State).setRfld (aPwrDomain d) 23 23 0

/-- Switch one domain off, counted (R396); of a domain that only ramps the ramp ends. -/
def State.switchOff (s : State) (d : Nat) : State :=
  if s.keep.thermal.ramping.contains d then s.rampStop d
  else if !s.domainOn d then s
  else ((((s.setRfld (aPwrDomain d) 20 20 0).setRfld (aPwrDomain d) 23 23 0).bump aPwrDomainSwitchCnt).dark d).regulate d

/-- Remove a domain's supply after every domain that requires it (R40). -/
def State.powerOff (s : State) (d : Nat) : State := (s.needers d ++ [d]).foldl State.switchOff s

/-! ### Domains that come on (R396) -/

/-- Start the ramps that may start: at most four at once, in order, each after its prerequisites. A domain whose
prerequisites will not come is passed over. -/
def State.rampGo (s : State) : Nat → State
  | 0 => s
  | fuel + 1 =>
    let th := s.keep.thermal
    match th.rampQueue with
    | [] => s
    | d :: rest =>
      if 4 ≤ th.ramping.length then s
      else
        let wait := (domainNeeds d).filter (fun e => !s.domainOn e)
        if wait.isEmpty then
          let s : State := { s with keep.thermal := { th with rampQueue := rest, ramping := natAdd d th.ramping } }
          (s.setRfld (aPwrDomain d) 23 23 1).rampGo fuel
        else if wait.any (fun e => th.ramping.contains e) then s
        else ({ s with keep.thermal.rampQueue := rest } : State).rampGo fuel

/-- Ask for domains to be powered, in the order given. -/
def State.powerOn (s : State) (ds : List Nat) : State :=
  let th := s.keep.thermal
  let new := ds.filter (fun d => !s.domainOn d && !th.ramping.contains d && !th.rampQueue.contains d)
  ({ s with keep.thermal.rampQueue := th.rampQueue ++ new } : State).rampGo 64

/-- Bring in a spare field if one remains, the lowest (R366; DESIGN CHOICE, notes/assumptions/22.md): it is powered now
and committed after its self-test. -/
def State.bringSpareField (s : State) : State :=
  let th := s.keep.thermal
  let free := (List.range 49).find? (fun f =>
    s.rfld (aRepFieldState f) 2 0 == 1 && !s.fieldOn f && !th.ramping.contains (fieldDomain f) &&
      !th.rampQueue.contains (fieldDomain f))
  match free with
  | some f => s.powerOn [fieldDomain f]
  | none => s

/-! ### Retired fields (R366) -/

/-- Whether a replay domain has a participant in a field, or, when the field is unpowered, a route or sync path across it
(R33, R366): the release crosses its whole rectangle, and flag operations their way to the sync block. -/
def State.domInField (s : State) (d f : Nat) (off : Bool) : Bool :=
  let x := s.dom d
  (x.members ++ x.routers).any (fun p => fieldOf p == f) ||
    (off && ((decide (x.rect.1 / 16 ≤ fieldX f) && decide (fieldX f ≤ x.rect.2.1 / 16) &&
      decide (x.rect.2.2.1 / 16 ≤ fieldY f) && decide (fieldY f ≤ x.rect.2.2.2 / 16)) ||
      (s.domPaths d).any (fun p => p.any (fun q => fieldOf q == f)) ||
      s.con.queues.any (fun e => e.2.cho.isSome && queueField e.1 == f && (e.2.prodDom.toNat == d || e.2.consDom.toNat == d))))

/-- Retire a compute field (R366), unpowered or in place: it is logged and counted, the map has a new generation (R41), its
domains stop as for a retired tile, and a spare field is brought in. -/
def State.retireField (s : State) (f : Nat) (off : Bool) : State :=
  let st := s.rfld (aRepFieldState f) 2 0
  if 2 ≤ st then s
  else
    let s := s.setRfld (aRepFieldState f) 2 0 (if off then 2 else 3)
    let s := (s.bump aRepFieldRetireCnt).journal 0x14 (pack [(0, f), (6, b2n (!off))])
    let s := s.setReg aRepMapGen (s.reg64 aRepMapGen + 1)
    let s := (s.con.doms.filter (fun e => s.domInField e.1 f off)).foldl (fun s e => s.refStop e.1) s
    let s := if off then s.powerOff (fieldDomain f) else s
    s.bringSpareField

/-- A spare field passes its self-test and is committed (R366, R396). -/
def State.commitField (s : State) (f : Nat) : State :=
  let s := s.setRfld (aRepFieldState f) 2 0 0
  (s.setReg aRepMapGen (s.reg64 aRepMapGen + 1)).journal 0x15 f

/-- FIELD_SELF_TEST_DONE (R366, R396): the self-test of a spare field powered at run time ends. -/
def execFieldSelfTestDone (field : BitVec 6) (pass : Bool) (s : State) : Host.Outcome State Fault Refusal :=
  let f := field.toNat
  if 49 ≤ f ∨ s.rfld (aRepFieldState f) 2 0 ≠ 1 ∨ !s.fieldOn f then .next s
  else if pass then .next (s.commitField f)
  else .next ((s.fault 7 none none f).retireField f true)

/-! ### The orderly stop's start (R401) -/

/-- A field in calibration has returned: the RESTARTs and the loads that waited for it go on (R418). -/
def State.calReturn (s : State) : State :=
  let ds := s.keep.calWait
  let s : State := { s with keep.calWait := [] }
  (ds.foldl (fun s d => if 4 ≤ (s.dom d).state.toNat then s.restartDom d else s) s).jobsPump 300

/-- End a calibration run with STATE 5 (R418): the part in progress is abandoned and no channel is held any more. -/
def State.calEnd (s : State) : State :=
  if s.keep.calOrder = 0 then s
  else
    (({ s with
      keep.calOrder := 0
      keep.thermal.staleSince := [] } : State).setRfld aCalStatus 2 0 5).calReturn

/-- Whether a cause whose deadline in ms counts from now would end a stop sooner than the deadline in force (R401). -/
def State.stopSooner (s : State) (x : Stop) (deadline : Nat) : Bool :=
  decide (s.clock + 1000 * deadline < x.since + 1000 * x.deadline)

/-- Start an orderly stop with a cause and its deadline in ms, counted from now (R401). A second cause only shortens the deadline
if its own is earlier; MOD_RESET_N is remembered for the end. Admission stops at once (R402 order 1), and a calibration run ends
(R418). -/
def State.orderlyStop (s : State) (cause deadline : Nat) (recovery : Option (BitVec 4)) (toReset : Bool) : State :=
  match s.keep.stop with
  | some x =>
    if 6 ≤ x.stage then s
    else
      let y := { x with toReset := x.toReset || toReset }
      { s with keep.stop := some (if s.stopSooner x deadline then { y with deadline, since := s.clock } else y) }
  | none =>
    let s := s.calEnd.bump aPwrStopCnt
    let s := s.setReg aPwrStopInfo (BitVec.ofNat 64 (pack [(0, cause), (32, s.calendar % 2 ^ 32)]))
    let s := s.setRfld aThmStatus 6 6 1
    { s with keep.stop := some { cause := BitVec.ofNat 4 cause, deadline, since := s.clock, stage := 1, recovery, toReset } }

/-- The cause and the deadline of a stop for which R401's table has no row are free values: the loss of PD_Mi (R369). -/
def State.openStop (s : State) : State :=
  let v := (Config.fresh s.freeCtr).toNat
  let deadline := match v / 16 % 3 with
    | 0 => 20
    | 1 => 50
    | _ => 1000
  s.tickFree.orderlyStop (v % 16) deadline none false

/-! ### Failing supplies and phases (R369) -/

/-- A domain's supply has failed (R369): the domain goes off with every domain that requires it; a compute field is
retired, and the loss of a memory field stops the module. -/
def State.domainFail (s : State) (d : Nat) : State :=
  if !s.domainOn d then s
  else
    let s := (s.setRfld (aRepDomainHealth d) 2 2 1).journal 0x1D d
    let s := s.fault 9 none none d
    if 1 ≤ d ∧ d ≤ 42 then
      (s.retireField (domainField d) true).powerOff d
    else if 43 ≤ d ∧ d ≤ 49 then (s.powerOff d).openStop
    else s.powerOff d

/-- SUPPLY_FAULT (R369). -/
def execSupplyFault (dom : BitVec 6) (s : State) : Host.Outcome State Fault Refusal :=
  let d := dom.toNat
  if d = 0 ∨ !s.domainOn d then .next s else .next ((s.bump aRepSupplyFaultCnt).domainFail d)

/-- Whether any replay domain runs. -/
def State.anyRuns (s : State) : Bool := s.con.doms.any (fun e => e.2.state == 2 || e.2.state == 3)

/-- PHASE_FAIL (R369): the phase is isolated and counted; a third fails its domain at the next step boundary, or at once
when no domain of the module runs. -/
def execPhaseFail (dom : BitVec 6) (phase : BitVec 4) (s : State) : Host.Outcome State Fault Refusal :=
  let d := dom.toNat
  let bad := kvGet 0 d s.keep.thermal.phasesBad
  if !s.domainOn d || bad.testBit phase.toNat then .next s
  else
    let s : State := { s with keep.thermal.phasesBad := kvPut 0 d (bad + 2 ^ phase.toNat) s.keep.thermal.phasesBad }
    let s := (s.bump aRepPhaseFailCnt).journal 0x1C (pack [(0, d), (6, phase.toNat)])
    let n := s.rfld (aRepDomainHealth d) 1 0
    if n < 2 then .next (s.setRfld (aRepDomainHealth d) 1 0 (n + 1))
    else if d ≠ 0 ∧ s.anyRuns then .next { s with keep.thermal.failAtStep := natAdd d s.keep.thermal.failAtStep }
    else if d = 0 then .next s
    else .next (s.domainFail d)

/-- The power domains that wait for a step boundary fail at a barrier of the module (R369). -/
def State.boundary (s : State) : State :=
  s.keep.thermal.failAtStep.foldl State.domainFail { s with keep.thermal.failAtStep := [] }

/-- BARRIER_DECIDE (R161): the root decides once every participant has arrived, and a power domain with a third failed
phase fails at that boundary (R369). -/
def execBarrierDecide (dom : BitVec 10) (s : State) : Host.Outcome State Fault Refusal :=
  let t := s.barrierDecide dom.toNat
  .next (if t.dom dom.toNat = s.dom dom.toNat then t else t.boundary)

/-! ### Control pairs (R368) -/

/-- PAIR_LOCKSTEP_MISMATCH (R368): the firmware re-executes from its checkpoint; the second mismatch of a pair within 1 s
retires it for the cluster's spare, and a cluster's last pair takes the cluster with it. -/
def execPairLockstepMismatch (cluster : BitVec 3) (pair : BitVec 2) (s : State) : Host.Outcome State Fault Refusal :=
  let c := cluster.toNat
  let k := 4 * c + pair.toNat
  let a := aRepClusterState c
  let at' := fun (s : State) (i : Nat) => s.rfld a (2 * i + 1) (2 * i)
  if 7 ≤ c ∨ !s.domainOn (50 + c) ∨ at' s pair.toNat ≠ 0 then .next s
  else
    let s := s.bump aRepPairLockstepErrCnt
    let again := match kvFind k s.keep.pairErr with
      | some t => decide (s.clock ≤ t + 1000000)
      | none => false
    if !again then .next { s with keep.pairErr := kvSet k s.clock s.keep.pairErr }
    else
      let s : State := { s with keep.pairErr := kvDel k s.keep.pairErr }
      let s := (s.setRfld a (2 * pair.toNat + 1) (2 * pair.toNat) 2).journal 0x1B (pack [(0, c), (3, pair.toNat)])
      match (List.range 4).find? (fun i => at' s i == 1) with
      | some i => .next ((s.setRfld a (2 * i + 1) (2 * i) 0).bump aRepPairSwapCnt)
      | none => if (List.range 4).any (fun i => at' s i == 0) then .next s else .next (s.clusterDark c)

/-! ### Stacks (R370) -/

/-- A stack goes offline (R370). -/
def State.stackOff (s : State) (k : Nat) : State :=
  if s.stackOffline k then s else (s.setRfld (aMemStackState k) 1 0 2).journal 0x1F k

/-- STACK_INTERFACE_LOST (R370). -/
def execStackInterfaceLost (stack : BitVec 5) (s : State) : Host.Outcome State Fault Refusal :=
  if 28 ≤ stack.toNat ∨ !s.domainOn (43 + stack.toNat / 4) then .next s
  else .next (s.stackOff stack.toNat)

end Sys2Proof.Machine
end

