-- ==== Sys2Proof/Machine/Thermal.lean ====
section
/-! DEFINITION. The housekeeping converter (R406 to R411), the thermal limits (R386 to R391), throttling and the power cap (R392, R393), and the coolant loop (R397 to R400). -/

namespace Sys2Proof.Machine

/-! ### Arithmetic -/

/-- A quotient rounded to nearest. -/
def roundDiv (n : Int) (d : Nat) : Int := (2 * n + d) / (2 * d)

/-- A quotient whose rounding the spec does not state: when it is not whole, one of its two neighbours (a free value). -/
def State.openDiv (s : State) (n d : Nat) : State × Nat :=
  if n % d = 0 then (s, n / d) else (s.tickFree, n / d + (Config.fresh s.freeCtr).toNat % 2)

/-- ln (n / d) in fixed point. -/
def lnFix (n d : Nat) : Int :=
  let l : Int := (Nat.log2 n : Int) - Nat.log2 d
  let n' := if l < 0 then n * 2 ^ l.natAbs else n
  let d' := if l < 0 then d else d * 2 ^ l.toNat
  let u := (if n' < d' then d' - n' else n' - d') * 2 ^ fracBits / (n' + d')
  let a : Int := 2 * atanhSum (u * u / 2 ^ fracBits) 220 0 u
  l * ln2Fix + if n' < d' then -a else a

/-! ### Channels (R386, R387, R406) -/

/-- Whether a channel is differential. -/
def chanDiff (i : Nat) : Bool := decide (i < 112) || (decide (120 ≤ i) && decide (i < 124))

/-- Whether a channel is enabled (R387): thermistors and board diodes by THM.CHAN_EN, all others always. -/
def State.chanOn (s : State) (i : Nat) : Bool :=
  if 112 ≤ i ∧ i < 124 then s.rbit aThmChanEn (i - 112) else true

/-- Whether a calibration holds a diode channel (R417): for the first 150 ms of its field's part. -/
def State.chanHeld (s : State) (i : Nat) : Bool :=
  match kvFind i s.keep.thermal.staleSince with
  | some t => decide (s.clock < t + 150000)
  | none => false

/-- The domains whose supply a wafer diode's channel watches (R390): with PD_Mi goes PD_Ci, which requires it. -/
def watchDomain (i : Nat) : Nat :=
  if i < 98 then fieldDomain (i / 2) else if i < 110 then 57 + (i - 98) / 3 else 61

/-! ### Results as temperatures (R408) -/

/-- A diode's temperature in 1/128 °C by its code: ΔV_BE / (η × 238.922 µV/K) − 273.15 °C, rounded. -/
def State.diodeTemp (s : State) (i : Nat) (code : Int) : Int :=
  let eta := if i < 112 then Config.diodeEta i else s.rfld aHkcBrdEta (16 * (i - 120) + 15) (16 * (i - 120))
  let d := 524288 * eta * 238922
  roundDiv (code * 2500000 * 16384 * 1000 * 128 * 5 - 174816 * (d : Int)) (5 * d)

/-- A thermistor's temperature in 1/128 °C by its code; none where its configuration gives no temperature that the register
holds. -/
def State.thermTemp (s : State) (k : Nat) (code : Nat) : Option Int :=
  let r25 := s.rfld (aHkcThermCfg k) 15 0
  let beta := s.rfld (aHkcThermCfg k) 31 16
  if r25 = 0 ∨ beta = 0 ∨ code = 0 ∨ 65536 ≤ code then none
  else
    let f : Int := 2 ^ fracBits
    let d := 100 * f / 29815 + lnFix (1000 * code) ((65536 - code) * r25) / beta
    if d ≤ 0 then none
    else
      let t := roundDiv (128 * f * 5 - 174816 * d) (5 * d.toNat)
      if -32768 ≤ t ∧ t < 32768 then some t else none

/-! ### The THM registers -/

/-- Store a reading in THM.SENSOR. -/
def State.setTemp (s : State) (i : Nat) (t : Int) : State := s.setRfld (aThmSensor i) 15 0 (BitVec.ofInt 16 t).toNat

/-- Whether a channel is broken. -/
def State.chanBroken (s : State) (i : Nat) : Bool := s.rbit (aThmSensor i) 32

/-- Whether any enabled channel is broken. -/
def State.anyBroken (s : State) : Bool := (List.range 124).any (fun i => s.chanOn i && s.chanBroken i)

/-- THM.STATUS.HOTTEST and HOT_TEMP: the wafer diode with the highest reading. -/
def State.hottest (s : State) : State :=
  let best := (List.range 112).foldl (fun (b : Nat × Int) i => if b.2 < s.sensorTemp i then (i, s.sensorTemp i) else b)
    (0, s.sensorTemp 0)
  (s.setRfld aThmStatus 14 8 best.1).setRfld aThmStatus 31 16 (BitVec.ofInt 16 best.2).toNat

/-! ### Stops (R390, R391, R403) -/

/-- Whether a coolant stop would shorten no stop that already runs (R401). -/
def State.coolLate (s : State) : Bool :=
  match s.keep.stop with
  | some x => decide (6 ≤ x.stage) || !s.stopSooner x 50
  | none => false

/-- A coolant, board or flow stop (R391, R400, R401): counted, logged with a detail, thermal deadline. During a stop it is a
second cause: it counts where it shortens the deadline. DESIGN CHOICE (notes/assumptions/185.md). -/
def State.coolStop (s : State) (code detail : Nat) : State :=
  if s.coolLate then s else ((s.bump aThmCoolStopCnt).fault code none none detail).orderlyStop 2 50 none false

/-- A trip (R390): the watched domain loses its supply, THERM_TRIP_N is asserted and the orderly stop starts. -/
def State.trip (s : State) (i : Nat) : State :=
  if !s.domainOn (watchDomain i) then s
  else
    let s := (s.bump aThmTripCnt).setRfld aThmStatus 2 2 1
    let s : State := { s with
      keep.pins.thermTrip := true
      keep.tripWait := true }
    ((s.fault 11 none none i).powerOff (watchDomain i)).orderlyStop 1 50 none false

/-- A diode of an optical engine breaks (R403): its 8 tensor ports are retired. -/
def State.engineLost (s : State) (i : Nat) : State :=
  let first := 24 * ((i - 98) / 3) + 8 * ((i - 98) % 3)
  (List.range 8).foldl (fun s k =>
    let t := first + k
    if (s.port t).state = 6 then s else (s.setPort t { s.port t with state := 6 }).journal 0x1A t) s

/-- A diode of a service port breaks (R403): the port goes down. -/
def State.svcLost (s : State) (p : Nat) : State :=
  if s.rfld (aSvcPortState p) 1 0 = 2 then
    match execSvcLinkDown (BitVec.ofNat 1 p) s with
    | .next t => t
    | _ => s
  else s.setRfld (aSvcPortState p) 1 0 3

/-- What a broken channel reads (R388): a wafer diode at the shut-down level, a board diode at its stop level. A thermistor
keeps its last reading; its rise alone reads as too hot. -/
def State.brokenReading (s : State) (i : Nat) : State :=
  if i < 112 then (s.setTemp i (s.rfld aThmJctLimits 39 32 * 128)).hottest
  else if 120 ≤ i then s.setTemp i (s.rfld aThmBrdLimits (8 * (i - 120) + 39) (8 * (i - 120) + 32) * 128)
  else s

/-- A channel is found broken (R388, R403). -/
def State.sensorBroken (s : State) (i : Nat) : State :=
  if s.chanBroken i then s
  else
    let s := ((s.setRfld (aThmSensor i) 32 32 1).setRfld aThmStatus 5 5 1).brokenReading i
    let s := s.bump aThmSensorFaultCnt
    if 112 ≤ i then (if s.coolLate then s.fault 5 none none i else s.coolStop 5 i)
    else
      let s := s.fault 5 none none i
      if i < 98 then
        let n := i / 2
        if fieldIsMem n then
          if s.fieldOn n then (((s.powerOff (fieldDomain n)).bump aThmCoolStopCnt).orderlyStop 2 50 none false) else s
        else if s.fieldOn n then (s.retireField n true).powerOff (fieldDomain n)
        else s
      else if i < 110 then s.engineLost i
      else s.svcLost (i - 110)

/-- A channel gives a sound result again. -/
def State.sensorSound (s : State) (i : Nat) : State :=
  if !s.chanBroken i then s
  else
    let s := s.setRfld (aThmSensor i) 32 32 0
    s.setRfld aThmStatus 5 5 (b2n s.anyBroken)

/-! ### Junction levels (R389) -/

/-- The warning level: it sets at the set point and clears when every diode that set it reads at or below the clear
point. -/
def State.jctWarn (s : State) (i : Nat) (t : Int) : State :=
  let above := decide ((s.rfld aThmJctLimits 7 0 : Int) * 128 ≤ t)
  let s := s.setRfld (aThmSensor i) 35 35 (b2n above)
  if above then
    let s := if s.rbit aThmStatus 0 then s else (s.bump aThmWarnCnt).setRfld aThmStatus 0 0 1
    { s with keep.thermal.warnSet := natAdd i s.keep.thermal.warnSet }
  else if s.keep.thermal.warnSet.all (fun k => decide (s.sensorTemp k ≤ (s.rfld aThmJctLimits 15 8 : Int) * 128)) then
    ({ s with keep.thermal.warnSet := [] } : State).setRfld aThmStatus 0 0 0
  else s

/-- The diodes of a field domain. -/
def domDiodes (d : Nat) : List Nat := [2 * domainField d, 2 * domainField d + 1]

/-- A field enters throttling when a diode reaches the throttle set point (R392). -/
def State.throttleEnter (s : State) (i : Nat) (t : Int) : State :=
  let d := fieldDomain (i / 2)
  if t < (s.rfld aThmJctLimits 23 16 : Int) * 128 ∨ s.keep.thermal.throttled.contains d then s
  else
    let s : State := { s with keep.thermal.throttled := natAdd d s.keep.thermal.throttled }
    (s.bump aThmThrottleCnt).setRfld aThmStatus 1 1 1

/-- Count a thermal cycle (R372): above 80 °C after having been below 40 °C. -/
def State.cycleNote (s : State) (key : Nat) (t : Int) (cnt : Nat) : State :=
  let armed := kvGet false key s.keep.thermal.cycleArmed
  if t < 40 * 128 then { s with keep.thermal.cycleArmed := kvPut false key true s.keep.thermal.cycleArmed }
  else if armed && decide (80 * 128 < t) then
    ({ s with keep.thermal.cycleArmed := kvPut false key false s.keep.thermal.cycleArmed } : State).setReg cnt (s.reg64 cnt + 1)
  else s

/-- A sound result of a wafer diode. -/
def State.waferResult (s : State) (i : Nat) (t : Int) : State :=
  let s := ((s.sensorSound i).setTemp i t).hottest
  let s := s.jctWarn i t
  let s := if i < 98 then
      ((s.throttleEnter i t).cycleNote (i / 2) (s.fieldTemp (i / 2)) (aLedgFieldCycles (i / 2))) else s
  let s := s.cycleNote 49 (sext 16 (s.rfld aThmStatus 31 16)) aLedgThermCycles
  if (s.rfld aThmJctLimits 39 32 : Int) * 128 ≤ t then s.trip i else s

/-! ### Coolant levels (R391) -/

/-- Raise a coolant warning, or note that its condition is false (R391). -/
def State.coolWarning (s : State) (i : Nat) (on : Bool) : State :=
  let m := s.keep.thermal.coolWarn
  let s := s.setRfld (aThmSensor i) 35 35 (b2n on)
  if on then
    let s := if (kvFind i m).isSome then s else s.bump aThmWarnCnt
    ({ s with keep.thermal.coolWarn := kvSet i none m } : State).setRfld aThmStatus 3 3 1
  else
    match kvFind i m with
    | some none => { s with keep.thermal.coolWarn := kvSet i (some s.clock) m }
    | _ => s

/-- COOLANT_WARNING_CLEAR (R391): its condition has been false for 10 s. -/
def execCoolantWarningClear (chan : BitVec 9) (s : State) : Host.Outcome State Fault Refusal :=
  match kvFind chan.toNat s.keep.thermal.coolWarn with
  | some (some t) =>
    if s.clock < t + 10000000 then .next s
    else
      let m := kvDel chan.toNat s.keep.thermal.coolWarn
      .next (({ s with keep.thermal.coolWarn := m } : State).setRfld aThmStatus 3 3 (b2n (!m.isEmpty)))
  | _ => .next s

/-- A level in °C with its warning and stop points. -/
def State.levelEval (s : State) (i : Nat) (t : Int) (warn stop : Nat) : State :=
  if (stop : Int) * 128 < t then s.coolStop 11 i else s.coolWarning i (decide ((warn : Int) * 128 < t))

/-- The rise of a thermistor in 1/256 K/s: its reading less that of 2.0 s before; zero without 2 s of results. -/
def State.riseOf (s : State) (i : Nat) (t : Int) : Int :=
  match (kvGet [] i s.keep.thermal.history).find? (fun e => decide (e.1 + 2000000 ≤ s.clock)) with
  | some e => t - e.2
  | none => 0

/-- A sound result of a thermistor is evaluated (R391). The rounding of RISE is not stated: nearest. -/
def State.coolResult (s : State) (i : Nat) (t : Int) : State :=
  let rise := s.riseOf i t
  let s := (s.sensorSound i).setTemp i t
  let old := kvGet [] i s.keep.thermal.history
  let young := old.filter (fun e => decide (s.clock < e.1 + 2000000))
  let s : State := { s with
    keep.thermal.history := kvSet i ((s.clock, t) :: young ++ (old.drop young.length).take 1) s.keep.thermal.history }
  let s := s.setRfld (aThmSensor i) 31 16 (BitVec.ofInt 16 (max (-32767) (min 32766 (roundDiv (rise * 100) 256)))).toNat
  let k := i - 112
  if k = 2 ∨ k = 3 then
    if (s.rfld aThmCoolLimits 15 8 : Int) * 256 < rise * 10 then s.coolStop 11 i
    else s.coolWarning i (decide ((s.rfld aThmCoolLimits 7 0 : Int) * 256 < rise * 10))
  else if k < 2 then s.levelEval i t (s.rfld aThmCoolLimits 23 16) (s.rfld aThmCoolLimits 31 24)
  else
    let j := k - 4
    s.levelEval i t (s.rfld aThmAuxLimits (8 * j + 7) (8 * j)) (s.rfld aThmAuxLimits (8 * j + 39) (8 * j + 32))

/-- A sound result of a board diode (R391). -/
def State.boardResult (s : State) (i : Nat) (t : Int) : State :=
  let s := (s.sensorSound i).setTemp i t
  let j := i - 120
  s.levelEval i t (s.rfld aThmBrdLimits (8 * j + 7) (8 * j)) (s.rfld aThmBrdLimits (8 * j + 39) (8 * j + 32))

/-! ### Conversions (R407 to R411) -/

/-- A diode's result (R409): a code that saturates, or a temperature below −60 °C or above 200 °C, gives no reading, and in
three frames running the channel is broken. -/
def State.diodeDone (s : State) (i : Nat) (code : Int) (saturated : Bool) : State :=
  let t := s.diodeTemp i code
  let bad := saturated || decide (t < -60 * 128) || decide (200 * 128 < t)
  let n := if bad then kvGet 0 i s.keep.thermal.badFrames + 1 else 0
  let s : State := { s with keep.thermal.badFrames := kvPut 0 i (min n 3) s.keep.thermal.badFrames }
  if bad then (if 3 ≤ n then s.sensorBroken i else s)
  else if i < 112 then s.waferResult i t
  else s.boardResult i t

/-- A thermistor's result (R409): broken on one code above 65,000 or below 500. A configuration that gives no temperature
leaves the reading a free value. -/
def State.thermDone (s : State) (i : Nat) (code : Int) : State :=
  if 65000 < code ∨ code < 500 then (s.setRfld (aThmSensor i) 31 16 0x7FFF).sensorBroken i
  else
    match s.thermTemp (i - 112) code.toNat with
    | some t => s.coolResult i t
    | none => s.tickFree.coolResult i (sext 16 (fld (Config.fresh s.freeCtr) 15 0))

/-- The code as HKC.DATA.VALUE shows it (R410). -/
def hkcValue (left diff : Bool) (code : Int) : Nat :=
  let c := (BitVec.ofInt 16 code).toNat
  if left then c * 65536 else if diff then (BitVec.ofInt 32 code).toNat else c

/-- Write a result into HKC.DATA (R410, R411): an unread result is replaced, and the overrun counted. -/
def State.hkcShow (s : State) (i : Nat) (code : Int) : State :=
  if !s.rbit aHkcCfg 10 || s.rfld aHkcCfg 9 1 != i then s
  else if s.chanHeld i then (if s.rfld aHkcData 40 32 = i then s.setRfld aHkcData 45 45 1 else s)
  else
    let beyond := s.rbit aHkcData 43
    let left := s.rbit aHkcCfg 0
    let s := if beyond then s.bump aHkcOverrunCnt else s
    s.setReg aHkcData (BitVec.ofNat 64 (pack [(0, hkcValue left (chanDiff i) code), (32, i), (41, b2n (chanDiff i)),
      (42, b2n left), (43, 1), (44, b2n beyond), (48, s.clock / 10000 % 65536)]))

/-- The code of a channel clamped to its range (R406). -/
def clampCode (i : Nat) (code : Int) : Int :=
  if chanDiff i then max (-32768) (min 32767 code) else max 0 (min 65535 code)

/-- An input voltage in mV: the fraction of full scale that a code stands for. -/
def State.setInput (s : State) (hi lo full : Nat) (code : Int) : State :=
  let r := s.openDiv (code.toNat * full) 65536
  r.1.setRfld aPwrInput hi lo r.2

/-- A conversion of a channel completes (R407). Its result feeds THM, PWR and HKC.DATA, unless a calibration holds the channel
(R417). -/
def State.conversion (s : State) (i : Nat) (code : Int) (saturated : Bool) : State :=
  let code := clampCode i code
  let s := s.bump aHkcConvCnt
  let s : State := { s with keep.thermal.codes := kvSet i code s.keep.thermal.codes }
  let s := s.hkcShow i code
  if s.chanHeld i then s.setRfld (aThmSensor i) 33 33 1
  else
    let s := if i < 124 then s.setRfld (aThmSensor i) 33 33 0 else s
    if chanDiff i then s.diodeDone i code saturated
    else if i < 124 then s.thermDone i code
    else if i = 128 then s.setInput 15 0 60000 code
    else if i = 129 then s.setInput 31 16 15000 code
    else s

/-- Whether a register is one of THM, PWR, HKC or CAL, which apply together (R351, R352). -/
def isKeeperObject (a : Nat) : Bool := decide (aPwrCap ≤ a) && decide (a < aLedgCalendar)

/-- Whether committed values of THM, PWR, HKC and CAL wait for a conversion boundary. -/
def State.keeperWaits (s : State) : Bool := s.reg.committed.any (fun e => isKeeperObject e.1)

/-- The conversion boundary (R351, R407, R411): THM, PWR, HKC and CAL take their committed values together; setpoints are regulated,
a channel that is no longer enabled is not broken (R387, R394), and a new monitored channel clears HKC.DATA.NEW. -/
def State.keeperApply (s : State) : State :=
  let chan := s.rfld aHkcCfg 9 1
  let s := ((s.reg.committed.map Prod.fst).filter isKeeperObject).foldl State.applyReg s
  let s := (List.range 12).foldl (fun (s : State) k =>
    if s.chanOn (112 + k) then s else (s.sensorSound (112 + k)).setRfld (aThmSensor (112 + k)) 35 35 0) s
  let s := s.regulateAll
  if s.rfld aHkcCfg 9 1 = chan then s else s.setRfld aHkcData 43 43 0

/-- HKC_CONVERSION (R407): a conversion completes, which is a conversion boundary. -/
def execHkcConversion (chan : BitVec 9) (code : Int) (saturated : Bool) (s : State) : Host.Outcome State Fault Refusal :=
  let i := chan.toNat
  if 131 ≤ i ∨ !s.keeperRuns ∨ !s.chanOn i then .next s
  else
    let t := s.conversion i code saturated
    .next (if s.keeperWaits then t.keeperApply else t)

/-- Read HKC.DATA: NEW and OVERRUN clear (R411). -/
def State.hkcRead (s : State) : State :=
  let w := s.reg64 aHkcData
  (s.setRfld aHkcData 44 43 0).answer 0 (natLe 8 w.toNat)

/-- HKC_DATA_READ (R411). -/
def execHkcDataRead (path : Path) (s : State) : Host.Outcome State Fault Refusal :=
  .next (s.access path aHkcData false State.hkcRead)

/-! ### Throttle and cap (R392, R393) -/

/-- The highest setpoint of the domains that share a throttle setpoint. -/
def State.throttleTop (s : State) (d : Nat) : Nat :=
  let a := s.rfld (aPwrDomain d) 9 0
  if 43 ≤ d ∧ d ≤ 49 then max a (s.rfld (aPwrDomain (d + 7)) 9 0) else a

/-- Store a throttle setpoint; one that limits nothing ends the throttling of its field. -/
def State.setThrottle (s : State) (d mv : Nat) : State :=
  let done := decide (s.throttleTop d ≤ mv)
  let th := s.keep.thermal
  let s : State := { s with keep.thermal := { th with
    throttleMv := if done then kvDel d th.throttleMv else kvPut 850 d mv th.throttleMv
    throttled := if done then natDel d th.throttled else th.throttled } }
  let s := s.setRfld aThmStatus 1 1 (b2n (!s.keep.thermal.throttled.isEmpty))
  if 43 ≤ d ∧ d ≤ 49 then (s.regulate d).regulate (d + 7) else s.regulate d

/-- THROTTLE_STEP (R392): a field's throttle setpoint moves 10 mV: down every 10 ms while a diode is at or above the throttle
set point, up every 100 ms while every diode is at or below the clear point. -/
def execThrottleStep (dom : BitVec 6) (s : State) : Host.Outcome State Fault Refusal :=
  let d := dom.toNat
  if d = 0 ∨ 49 < d ∨ !s.domainOn d then .next s
  else
    let now := min (s.throttleOf d) (s.throttleTop d)
    let hot := (domDiodes d).any (fun i => decide ((s.rfld aThmJctLimits 23 16 : Int) * 128 ≤ s.sensorTemp i))
    let cool := (domDiodes d).all (fun i => decide (s.sensorTemp i ≤ (s.rfld aThmJctLimits 31 24 : Int) * 128))
    if hot then s.paced (100 + d) 10000 (fun s => .next (s.setThrottle d (max 620 (now - 10))))
    else if cool && s.keep.thermal.throttled.contains d then s.paced (100 + d) 100000 (fun s => .next (s.setThrottle d (now + 10)))
    else .next s

/-- The power cap after a measurement of the input power (R393). -/
def State.capStep (s : State) (w : Nat) : State :=
  let cap := s.rfld aPwrCap 15 0
  let floor := s.rfld aPwrCap 25 16
  let mv := s.rfld aPwrPower 25 16
  let s := s.setRfld aPwrPower 15 0 w
  if cap < w then
    let s : State := { s with keep.thermal.capBelow := none }
    if floor < mv then
      ((((s.setRfld aPwrPower 25 16 (max floor (mv - 10))).setRfld aPwrPower 27 27 0).bump aPwrCapStepCnt).regulateAll)
    else s.setRfld aPwrPower 27 27 1
  else
    let s := s.setRfld aPwrPower 27 27 0
    if cap * 97 ≤ w * 100 then { s with keep.thermal.capBelow := none }
    else
      match s.keep.thermal.capBelow with
      | none => { s with keep.thermal.capBelow := some s.clock }
      | some t =>
        if s.clock < t + 100000 ∨ s.clock < s.keep.thermal.capRise + 10000 ∨ 850 ≤ mv then s
        else
          let s : State := { s with keep.thermal.capRise := s.clock }
          (s.setRfld aPwrPower 25 16 (min 850 (mv + 10))).regulateAll

/-- POWER_CAP_STEP (R393): the regulator arrays measure the input power, every 1 ms. -/
def execPowerCapStep (watts : BitVec 16) (s : State) : Host.Outcome State Fault Refusal :=
  s.paced 1 1000 (fun s => .next (s.capStep watts.toNat))

/-- PWR.CAP as its block takes it (R405): both fields in range, or the write is refused whole. -/
def State.pwrCapSet (s : State) (path : Path) (v : Word) : State :=
  let w := fld v 15 0
  let f := fld v 25 16
  if 4000 ≤ w ∧ w ≤ 15500 ∧ 620 ≤ f ∧ f ≤ 750 then (s.setReg aPwrCap (BitVec.ofNat 64 (pack [(0, w), (16, f)]))).ok
  else s.refuse path 2 true aPwrCap

/-- PWR_CAP_WRITE (R405). -/
def execPwrCapWrite (path : Path) (value : Word) (s : State) : Host.Outcome State Fault Refusal :=
  .next (s.access path aPwrCap true (fun s => s.pwrCapSet path value))

/-! ### Pump, valve and flow (R397 to R400) -/

/-- Whether the outputs are in their running state (R439): from order 7 until order 4 of an orderly stop. -/
def State.running (s : State) : Bool :=
  decide (7 ≤ s.rfld aKeepState 4 0) && !s.outputsReleased && !s.inRecovery && s.keep.pins.keep12v

/-- THM.LOOP_CMD as its block takes it (R399): a valve close with a wafer domain on is refused whole. -/
def State.loopCmdSet (s : State) (path : Path) (v : Word) : State :=
  if bit v.toNat 11 && s.waferOn then (s.bump aThmValveRejectCnt).refuse path 2 true aThmLoopCmd
  else
    let s := s.setReg aThmLoopCmd (BitVec.ofNat 64 (fld v 11 0))
    (s.setRfld aThmFlow 20 20 (b2n (!(bit v.toNat 11 && s.running)))).ok

/-- LOOP_CMD_WRITE (R399). -/
def execLoopCmdWrite (path : Path) (value : Word) (s : State) : Host.Outcome State Fault Refusal :=
  .next (s.access path aThmLoopCmd true (fun s => s.loopCmdSet path value))

/-- The hottest enabled outlet, in 1/128 °C (R398). -/
def State.outletTemp (s : State) : Int :=
  let l := [114, 115].filter (fun i => s.chanOn i)
  l.foldl (fun m i => max m (s.sensorTemp i)) (-32768)

/-- The demand that automatic mode asks for: linear from PUMP_MIN at OUT_LO to 100 % at OUT_HI. -/
def State.autoDemand (s : State) : State × Nat :=
  let least := s.rfld aThmPumpAuto 9 0
  let lo := s.rfld aThmPumpAuto 17 10
  let hi := s.rfld aThmPumpAuto 25 18
  let t := s.outletTemp
  if t ≤ (lo : Int) * 128 then (s, least)
  else if (hi : Int) * 128 ≤ t then (s, 1000)
  else
    let r := s.openDiv ((1000 - least) * (t - lo * 128).toNat) ((hi - lo) * 128)
    (r.1, least + r.2)

/-- The pump demand as the keeper sets it (R398). -/
def State.pumpSet (s : State) : State :=
  if !s.running then s.setRfld aThmFlow 19 10 1000
  else
    let r := if s.rbit aThmLoopCmd 0 then (s, min 1000 (s.rfld aThmLoopCmd 10 1)) else s.autoDemand
    let s := r.1
    let d := if s.waferOn then max r.2 (s.rfld aThmPumpAuto 9 0) else r.2
    let full := s.rbit aThmStatus 0 || s.rbit aThmStatus 3 || s.rbit aThmStatus 4
    s.setRfld aThmFlow 19 10 (if full then 1000 else d)

/-- PUMP_DEMAND_UPDATE (R398): every 100 ms. Outside the running state the output is released, which is full flow. -/
def execPumpDemandUpdate (s : State) : Host.Outcome State Fault Refusal :=
  s.paced 2 100000 (fun s => .next s.pumpSet)

/-- The flow as one second of tachometer pulses gives it (R400). -/
def State.flowSet (s : State) (pulses : Nat) : State :=
  let ppl := s.rfld aThmFlowCfg 15 0
  let r := if ppl = 0 then (s.tickFree, (Config.fresh s.freeCtr).toNat % 1024) else s.openDiv (600 * pulses) ppl
  let s := r.1
  let flow := min 1023 r.2
  let low := decide (flow < s.rfld aThmFlowCfg 25 16)
  let s := s.setRfld aThmFlow 9 0 flow
  let s := if low && !s.rbit aThmStatus 4 then s.bump aThmFlowLowCnt else s
  let s := s.setRfld aThmStatus 4 4 (b2n low)
  { s with
    keep.thermal.flowLowFor := if flow < s.rfld aThmFlowCfg 35 26 then s.keep.thermal.flowLowFor + 1 else 0
    keep.thermal.flowOkSince := if low then none else some (s.keep.thermal.flowOkSince.getD s.clock) }

/-- FLOW_MEASURE (R400): the tachometer pulses of one second. Without PULSES_PER_L the flow is a free value. -/
def execFlowMeasure (pulses : Nat) (s : State) : Host.Outcome State Fault Refusal :=
  if !s.keeperRuns then .next s else s.paced 3 1000000 (fun s => .next (s.flowSet pulses))

/-- FLOW_STOP (R400): 5 consecutive seconds below FLOW_STOP with a wafer domain on. The detail of its FAULT entry names a
channel, and flow has none: a free value. -/
def execFlowStop (s : State) : Host.Outcome State Fault Refusal :=
  if s.keep.thermal.flowLowFor < 5 ∨ !s.waferOn then .next s
  else .next (s.tickFree.coolStop 11 (fld (Config.fresh s.freeCtr) 31 0))

end Sys2Proof.Machine
end

