-- ==== Sys2Proof/Machine/Startup.lean ====
section
/-! DEFINITION. The start sequence (R345, R346), the recovery state (R347), the domains as they come on (R396), and the stages and triggers of the orderly stop (R401, R402, R443). -/

namespace Sys2Proof.Machine

/-! ### Keeper reset -/

/-- KEEP.STATE.ORDER. -/
def State.order (s : State) : Nat := s.rfld aKeepState 4 0

/-- Reach an order of the start sequence. -/
def State.toOrder (s : State) (k : Nat) : State := s.setRfld aKeepState 4 0 k

/-- The repair map of the fuses (R19, R21, R41): the state of each field and the spare tiles it has left, where they differ from
the reset values of REP.FIELD_STATE, and the tiles of the map. -/
def State.fuseMap (s : State) : State :=
  let z := s.trust.fuses
  let s : State := { s with wafer.map := z.tileMap }
  let left := fun (f k : Nat) (v : BitVec 2) => (z.tileMap.filter (fun e => fieldOf e.1 == f && tileKind e.1 == k && e.2 == v)).length
  ((List.range 49).filter (fun f => !fieldIsMem f)).foldl (fun s f =>
    let a := aRepFieldState f
    let s := s.setRfld a 2 0 (b2n (z.spareFields.contains f))
    [0, 1, 2].foldl (fun s k =>
      s.setRfld a (spareField k).1 (spareField k).2
        (s.rfld a (spareField k).1 (spareField k).2 + left f k 1 - left f k 0)) s) s

/-- The keeper held in reset, with every wafer domain off: what outlives it is the flash, the fuses, the ferroelectric cells
of the arrays, the calendar while KEEP_12V stays (R373), and the levels at the pins. -/
def State.keeperReset (s : State) : State :=
  let l := s.keep.ledger
  let t : State := { State.reset with
    pending := s.pending
    freeCtr := s.freeCtr
    clock := s.clock
    resp := s.resp
    arr := { cells := s.arr.cells, scales := s.arr.scales, ksums := s.arr.ksums }
    trust := { flash := s.trust.flash, fuses := s.trust.fuses }
    keep := {
      pins := { s.keep.pins with thermTrip := false }
      tripWait := s.keep.tripWait
      ledger := { records := l.records, nextSeq := l.nextSeq, ckptAt := s.clock, flushAt := s.clock } } }
  let t := t.fuseMap
  let t := if s.trust.fuses.grade then t.setRfld aDbgTracePtr 43 32 2112 else t
  (t.setReg aLedgCalendar (s.reg64 aLedgCalendar)).setRfld aLedgStatus 0 0 (s.rfld aLedgStatus 0 0)

/-- The keeper leaves reset: order 1, counted in KEEP.BOOT_CNT (R345, R346). -/
def State.keeperStart (s : State) : State := (s.keeperReset.toOrder 1).bump aKeepBootCnt

/-! ### Domains off (R396) -/

/-- The wafer domains in the order in which they power (R396). -/
def powerOrder : List Nat :=
  (List.range 7).map (fun i => 43 + i) ++ (List.range 7).map (fun i => 50 + i) ++ (List.range 42).map (fun i => 1 + i) ++
    [57, 58, 59, 60, 61, 62, 63]

/-- Every wafer domain off, in the reverse order. -/
def State.waferOff (s : State) : State :=
  let s := s.keep.thermal.ramping.foldl (fun s d => s.setRfld (aPwrDomain d) 23 23 0) s
  let s : State := { s with
    keep.thermal.ramping := []
    keep.thermal.rampQueue := [] }
  powerOrder.reverse.foldl State.powerOff s

/-! ### The recovery state (R347) -/

/-- Enter the recovery state with a cause: every wafer domain is off, READY is gone, REF_FALLBACK reads 1 (R413). -/
def State.enterRecovery (s : State) (cause : Nat) : State :=
  let s := s.waferOff
  let s := ({ s with keep.stop := none } : State).setRfld aThmStatus 6 6 0
  let s := (s.setRfld aKeepState 6 5 2).setRfld aKeepState 11 8 cause
  (s.bump aKeepRecoveryCnt).refFallback true

/-! ### What the orders do (R345) -/

/-- Order 2: the straps are sampled and kept (R438). -/
def State.sampleStraps (s : State) : State :=
  let p := s.keep.pins
  let s := s.setReg aKeepStraps (BitVec.ofNat 64 (pack [(0, b2n p.role), (1, p.slot.toNat), (5, b2n p.debug)]))
  s.setRfld aFabModId 3 0 p.slot.toNat

/-- Write an applied value as a REGISTERS entry or a RW write gives it, with what its block does at once. -/
def State.liveSet (s : State) (a : Nat) (w : Word) : State :=
  if isTileAddr a then
    let t := tileOfAddr a
    s.setTile t { s.tile t with aper := BitVec.ofNat 8 (fld w 21 14) }
  else
    let s := s.setReg a w
    if aPwrDomain 1 ≤ a ∧ a ≤ aPwrDomain 49 then s.regulate ((a - aPwrDomain 0) / 8)
    else if a = aRepCtrl ∧ !bit w.toNat 0 then s.fault 12 none none 0
    else if a = aThmLoopCmd then s.setRfld aThmFlow 20 20 (b2n (!(bit w.toNat 11 && s.running)))
    else s

/-- Apply the REGISTERS entries of the keeper's blocks or of the wafer's, in section order and entry order; a block that has no
power takes none (R335). -/
def State.applyEntries (s : State) (keeper : Bool) : State :=
  (s.imgEntries.filter (fun e => isKeeperAddr e.1.toNat == keeper && (keeper || s.blockOn e.1.toNat))).foldl (fun s e =>
    let a := e.1.toNat
    s.liveSet a (mergeMask (entryMask a) (s.reg64 a) e.2)) s

/-- Whether the flash device counts as present (R332): it answers, has at least 512 MiB, and reports the three 8D-8D-8D
features. -/
def flashPresent (d : FlashDev) : Bool := d.answers && decide (512 ≤ d.mib) && d.read8d && d.program8d && d.erase8d

/-- Order 4 (R338, steps 1 to 3), and the owner (R342): an unowned module enters the recovery state at every start. -/
def State.readImage (s : State) (env : StartEnv) : State :=
  let there := flashPresent env.verify.flash
  if !s.trust.fuses.owned then (if there then s.ledgerRestore env.badRecords else s).enterRecovery 10
  else if !there then s.enterRecovery 1
  else if !s.headerOk then (s.ledgerRestore env.badRecords).enterRecovery 2
  else ({ s with trust.fwDigest := Config.digest s.imgFirmware } : State).toOrder 5

/-- What KEEP and SEC report of an image whose signatures have verified. -/
def State.reportImage (s : State) : State :=
  let d := (Config.digest s.imgSigned).toNat
  let s := (s.setRfld aKeepState 63 32 (s.imgNat 0x1C 4)).setRfld aSecSvn 15 0 (s.imgNat 0x18 2)
  (List.range 8).foldl (fun s k => s.setReg (aSecImageDig k) (BitVec.ofNat 64 (d / 2 ^ (64 * k)))) s

/-- A section differs when it is read again (R339): the index of the section, then the orderly stop. -/
def State.flashChanged (s : State) (index : Nat) : State := (s.fault 10 none none index).orderlyStop 7 1000 (some 9) false

/-- Order 5 (R338, steps 4 to 9; R340), then the ledger's state is formed (order 6) and the keeper's REGISTERS entries are read
again and applied (R335, R339). -/
def State.verifyImage (s : State) (env : StartEnv) : State :=
  let c := s.verifyCause env.verify true
  let s := if c = 3 ∨ c = 4 ∨ c = 5 then s else s.reportImage
  let s := s.ledgerRestore env.badRecords
  if c ≠ 0 then s.enterRecovery c
  else if env.changed then s.flashChanged (s.imgSects.findIdx (fun x => x.type == 2))
  else
    let asked := s.imgNat 6 2 % 2 == 1
    let s := s.setRfld aKeepState 7 7 (b2n (asked && s.trust.fuses.grade))
    let s := s.setRfld aDbgStatus 1 1 (b2n (asked && !s.trust.fuses.grade))
    (s.applyEntries true).toOrder 6

/-- Whether the wafer may be powered (R390, R396, R438, R441). -/
def State.mayPower (s : State) : Bool :=
  let p := s.keep.pins
  let cool := (s.rfld aPwrStopInfo 3 0 != 1 && !s.keep.tripWait) || (List.range 112).all (fun i =>
    s.rbit (aThmSensor i) 32 || decide (s.sensorTemp i < 128 * s.rfld aThmJctLimits 47 40))
  p.pwrGood && p.holdupOk && s.keep.thermal.flowOkSince.isSome && cool

/-- The domains that the start powers (R334, R340, R396): an attachment field retired in place stays powered (R38). -/
def State.startDomains (s : State) : List Nat :=
  let fields := match s.sectsOf 5 with
    | x :: _ => s.sectBytes x
    | [] => List.replicate 56 1
  powerOrder.filter (fun d =>
    if 1 ≤ d ∧ d ≤ 42 then
      let st := s.rfld (aRepFieldState (domainField d)) 2 0
      (st == 0 || st == 3) && fields.getD (domainField d) 0 == 1
    else if d = 63 then s.rbit aKeepState 7 || bit (s.imgNat 6 2) 2
    else true)

/-- Order 6: the keeper holds while the bench hold lasts; then it releases VALVE_CMD to open, and waits until the wafer may be
powered (R396, R438). -/
def State.beginPower (s : State) : State :=
  let held := s.rbit aKeepStraps 5 && s.keep.pins.debug
  let s := s.setRfld aKeepStraps 6 6 (b2n held)
  if held then s
  else
    let s := s.setRfld aThmFlow 20 20 1
    if !s.mayPower then s
    else ({ s with keep.tripWait := false } : State).toOrder 7 |>.powerOn s.startDomains

/-- A compute field fails its self-test at start (R346, R366): retired in place when it carries attachments whose routers and
links passed. -/
def State.fieldFails (s : State) (f : Nat) (supply : Bool) : State :=
  (s.fault 7 none none f).retireField f (supply || !attachFields.contains f)

/-- The compute fields that are powered and committed, of a list. -/
def State.liveFields (s : State) (l : List Nat) : List Nat :=
  (List.range 49).filter (fun f => l.contains f && !fieldIsMem f && s.fieldOn f && s.rfld (aRepFieldState f) 2 0 == 0)

/-- Order 8: logic self-test of every powered domain, stacks trained (R346, R366, R370, R403). A memory field whose domain has
failed fails it (R369). -/
def State.orderSelfTest (s : State) (env : StartEnv) : State :=
  let bad := env.failFields ++ env.failSupply
  let mem := (List.range 7).filter (fun i =>
    bad.contains (21 + i) || !s.domainOn (43 + i) || s.rbit (aRepDomainHealth (43 + i)) 2 || s.rbit (aThmSensor (2 * (21 + i))) 32 ||
      s.rbit (aThmSensor (2 * (21 + i) + 1)) 32)
  if !mem.isEmpty ∨ env.pairsFail then
    let s := mem.foldl (fun s i => s.fault 7 none none (21 + i)) s
    let s := if env.pairsFail then (s.fault 7 none none (Config.fresh s.freeCtr).toNat).tickFree else s
    s.enterRecovery 11
  else
    let s := (s.liveFields bad).foldl (fun s f => s.fieldFails f (env.failSupply.contains f)) s
    let s := ((List.range 28).filter (fun k => env.failStacks.contains k)).foldl State.stackOff s
    s.toOrder 9

/-- The index of the FIRMWARE section. -/
def State.firmwareIndex (s : State) : Nat := s.imgSects.findIdx (fun x => x.type == 1)

/-- Channel 125 or 126 within 0.2 % of its healthy code (R406, R414). -/
def State.refCodeOk (s : State) (chan : Nat) (healthy : Int) : Bool :=
  decide (((kvGet healthy chan s.keep.thermal.codes) - healthy).natAbs * 500 ≤ healthy.natAbs)

/-- Order 11: the calibration check (R414). -/
def State.calCheck (s : State) (env : StartEnv) : State :=
  if !env.refsOk || !s.refCodeOk 125 32768 || !s.refCodeOk 126 31457 then s.enterRecovery 11
  else ((s.liveFields env.failFields).foldl (fun s f => s.fieldFails f false) s).toOrder 12

/-- Preload a choreography section (R147); a refused one is kept by its CHO_ID with the reason, for the jobs that name it
(R346). -/
def State.preloadCho (s : State) (bs : List Byte) : State :=
  match s.choLoad bs with
  | (s, some _) => s
  | (s, none) => { s with load.refused := kvSet (choIdOf bs).toNat (s.rfld aChoLastReject 7 0) s.load.refused }

/-- The base schedule of an image, in the canonical form of a table by output (R37). -/
def baseOf (image : List Byte) : KV (List Phase) :=
  (Config.baseSchedule image).foldl (fun m e =>
    kvPut [] e.1 (e.2.map (fun p => { repeats := p.1, entries := p.2 })) m) []

/-- Order 12: REGISTERS applied, the base schedule in force, choreographies preloaded, the manifest taken (R37, R147, R238,
R335). A refused choreography leaves the start as it is. -/
def State.preload (s : State) (env : StartEnv) : State :=
  if env.changed then (s.flashChanged (Config.fresh s.freeCtr).toNat).tickFree
  else
    let s := (s.applyEntries false).refFallback (s.rbit aCalStatus 3)
    let s : State := { s with
      wafer.base := baseOf s.imgSigned
      load.refused := [] }
    let s := (s.sectsOf 3).foldl (fun s x => s.preloadCho (s.sectBytes x)) s
    let ms := (s.sectsOf 4).flatMap (fun x => manifestDescs (s.sectBytes x))
    let s : State := { s with
      load.manifest := ms
      load.left := List.range ms.length }
    let s := s.toOrder 13
    if s.keep.pins.perstN && s.domainOn 62 then s.hostLink 1 0 0 else s

/-- Order 14 begins: the tensor ports and the service ports train. -/
def State.opticsTrain (s : State) : State :=
  let s := (List.range 96).foldl (fun s t =>
    if s.domainOn (57 + t / 24) && (s.port t).state != 6 then s.setPort t { s.port t with state := 1 } else s) s
  if s.domainOn 61 then (s.setRfld (aSvcPortState 0) 1 0 1).setRfld (aSvcPortState 1) 1 0 1 else s

/-- Order 14 ends: a tensor port that has not trained has no peer, and the service ports are up. -/
def State.opticsDone (s : State) : State :=
  let s := (List.range 96).foldl (fun s t =>
    if (s.port t).state = 1 then s.setPort t { s.port t with state := 7 } else s) s
  (List.range 2).foldl (fun s p => if s.rfld (aSvcPortState p) 1 0 = 1 then s.setRfld (aSvcPortState p) 1 0 2 else s) s

/-- Order 15: the rack join (R285, R301), or the module serves alone. -/
def State.rackJoin (s : State) (joined : Bool) : State :=
  if !joined then s.bump aFabJoinRejectCnt
  else
    let n := s.modNumber
    let slot := s.rfld aFabModId 3 0
    let mgr := n / 16 * 16
    let s : State := { s with fab.inRack := true }
    let s := s.setRfld aFabModId 12 10
      (pack [(0, if slot = 0 then 1 else if slot = 1 then 2 else 0), (2, b2n (n == s.rfld aFabTimeCfg 10 1))])
    let s := s.setRfld aFabMgrState 11 2 mgr
    if slot = 0 then s
    else s.ctrlSend (.join (BitVec.ofNat 10 n) (BitVec.ofNat 10 mgr) (BitVec.ofNat 32 s.con.chos.length) (BitVec.ofNat 8 slot))

/-- START_SEQUENCE_ADVANCE (R345): the order that KEEP.STATE.ORDER shows completes and the next begins. The patrols of order 10
are PATROL commands. DEDUCED (notes/assumptions/183.md). -/
def State.advance (s : State) (env : StartEnv) : State :=
  match s.order with
  | 1 => s.toOrder 2
  | 2 => (s.sampleStraps).toOrder 3
  | 3 => s.toOrder 4
  | 4 => s.readImage env
  | 5 => s.verifyImage env
  | 6 =>
    if env.changed && !(s.sectsOf 5).isEmpty then s.flashChanged (s.imgSects.findIdx (fun x => x.type == 5)) else s.beginPower
  | 7 => if s.keep.thermal.rampQueue.isEmpty && s.keep.thermal.ramping.isEmpty then s.toOrder 8 else s
  | 8 => s.orderSelfTest env
  | 9 => if env.changed then s.flashChanged s.firmwareIndex else s.toOrder 10
  | 10 => s.toOrder 11
  | 11 => s.calCheck env
  | 12 => s.preload env
  | 13 =>
    if !s.keep.pins.perstN && s.domainOn 62 then s
    else
      let s := if s.rfld aHostLinkState 2 0 = 1 then s.hostLink 4 0 0 else s
      (s.toOrder 14).opticsTrain
  | 14 =>
    let s := s.opticsDone
    s.toOrder (if s.rbit aKeepStraps 0 then 15 else 16)
  | 15 => (s.rackJoin env.joined).toOrder 16
  | _ => s

/-- START_SEQUENCE_ADVANCE (R345, R346): nothing advances in reset, in the recovery state, during a stop or after READY. -/
def execStartSequenceAdvance (env : StartEnv) (s : State) : Host.Outcome State Fault Refusal :=
  .next (if s.stopping || s.inRecovery then s else s.advance env)

/-- MOD_RESET_N_RELEASE (R345, R346): the start begins at order 1; a stop that still runs completes first (R443). -/
def execModResetNRelease (s : State) : Host.Outcome State Fault Refusal :=
  if s.keep.pins.modResetN then .next s
  else
    let s : State := { s with keep.pins.modResetN := true }
    .next (if s.keep.pins.keep12v && s.order == 0 then s.keeperStart else s)

/-- KEEP_12V_PRESENT (R373, R436, R441): the keeper's supply comes up. The calendar starts from the time of the last ledger
record, and CAL_VALID reads 0. -/
def execKeep12vPresent (s : State) : Host.Outcome State Fault Refusal :=
  if s.keep.pins.keep12v then .next s
  else
    let s : State := { s with keep.pins.keep12v := true }
    let t : Word := match s.recordsInOrder.getLast? with
      | some r => r.time
      | none => 0
    let s := (s.setReg aLedgCalendar t).setRfld aLedgStatus 0 0 0
    .next (if s.keep.pins.modResetN then s.keeperStart else s.keeperReset)

/-! ### READY (R346) -/

/-- The arrays that hold weights that no instance owns become orphaned (R238, R239). -/
def State.orphanRest (s : State) : State :=
  let owned := fun (t p : Nat) (x : ArrayRec) =>
    let i := s.inst x.inst.toNat
    x.bound && i.gen == x.gen && i.state != 0 && i.placed.any (fun e => e.tile == t && s.physOf t e.larr == some p)
  (s.arr.recs.filter (fun e => e.2.gen != 0 && e.2.state == 0 && !owned (e.1 / 17) (e.1 % 17) e.2)).foldl (fun s e =>
    s.setArray (e.1 / 17) (e.1 % 17) { s.arrayRec (e.1 / 17) (e.1 % 17) with state := 5, suspect := none }) s

/-- READY (R346): every manifest job has written its FINAL. -/
def execReady (s : State) : Host.Outcome State Fault Refusal :=
  if s.stopping || s.inRecovery || s.order != 16 || !s.load.left.isEmpty then .next s
  else
    let s := (s.toOrder 17).setRfld aKeepState 5 5 1
    let s := s.setRfld aCfgStatus 17 17 1
    let s : State := if bit (s.imgNat 6 2) 1 then
        { s with trust.fuses.svnMin := max s.trust.fuses.svnMin (s.imgNat 0x18 2) } else s
    let s := if s.keep.pins.rackRef then s.refFallback false else s
    .next s.orphanRest

/-! ### Domains that come on (R396) -/

/-- A domain fails to reach its setpoint, which counts as a failed supply (R366): a compute field is retired; a memory field
fails the self-test of order 8. -/
def State.rampFails (s : State) (d : Nat) : State :=
  let s := (s.setRfld (aRepDomainHealth d) 2 2 1).journal 0x1D d
  let s := s.fault 9 none none d
  let s := if 1 ≤ d ∧ d ≤ 42 ∧ !s.inRecovery then s.retireField (domainField d) true else s
  s.rampGo 64

/-- DOMAIN_RAMP_DONE (R40, R396): the ramp of a domain ends, and the next may start. -/
def execDomainRampDone (dom : BitVec 6) (ok : Bool) (s : State) : Host.Outcome State Fault Refusal :=
  let d := dom.toNat
  if !s.keep.thermal.ramping.contains d then .next s
  else
    let s := ({ s with keep.thermal.ramping := natDel d s.keep.thermal.ramping } : State).setRfld (aPwrDomain d) 23 23 0
    if !ok then .next (s.rampFails d)
    else
      let s := ((s.setRfld (aPwrDomain d) 20 20 1).bump aPwrDomainSwitchCnt).regulate d
      let s := if 1 ≤ d ∧ d ≤ 49 then s.setRfld (aRepFieldState (domainField d)) 3 3 1 else s
      let s := if d = 62 ∧ s.hostMayTrain ∧ s.keep.pins.perstN then s.hostLink 1 0 0 else s
      let s := if d = 63 then s.setRfld aDbgStatus 0 0 (s.rfld aKeepState 7 7) else s
      .next (s.rampGo 64)

/-- STRAP_DEBUG_RELEASE (R438): the pin returns to 0 and the bench hold ends. -/
def execStrapDebugRelease (s : State) : Host.Outcome State Fault Refusal :=
  .next (({ s with keep.pins.debug := false } : State).setRfld aKeepStraps 6 6 0)

/-! ### The stages of a stop (R402) -/

/-- Order 2: ask every running domain to stop at its next barrier; one that waits at its barrier stops at once. -/
def State.stopAsk (s : State) : State :=
  (s.con.doms.filter (fun e => e.2.state == 2 || e.2.state == 3)).foldl (fun s e =>
    if e.2.state = 2 ∧ e.2.waiting then (s.setDom e.1 { e.2 with waiting := false }).stopDom e.1 7
    else s.setDom e.1 { e.2 with stopReq := true }) s

/-- Order 4: outputs released. Optics go dark, the host lanes idle, the pump demand and the valve take their released states. -/
def State.releaseOutputs (s : State) : State :=
  let s := (List.range 4).foldl State.edgeDark s
  let s := s.svcDark
  let s := (s.hostLink 0 0 0).hostGone
  (s.setRfld aThmFlow 19 10 1000).setRfld aThmFlow 20 20 1

/-- The stop has ended: reset, the recovery state, or stopped until MOD_RESET_N. -/
def State.stopEnd (s : State) (x : Stop) : State :=
  let s := (s.setRfld aThmStatus 6 6 0).setRfld aKeepState 5 5 0
  if x.toReset then (if s.keep.pins.modResetN then s.keeperStart else s.keeperReset)
  else
    match x.recovery with
    | some c => s.enterRecovery c.toNat
    | none => { s with keep.stop := some { x with stage := 6 } }

/-- A stage of the stop is over, abandoned at its bound or completed, and the next starts. -/
def State.stageOver (s : State) (x : Stop) (inTime : Bool) : State :=
  let s := if inTime then s.setRfld aPwrStopInfo 6 4 x.stage else s.setRfld aPwrStopInfo 7 7 1
  { s with keep.stop := some { x with stage := x.stage + 1 } }

/-- The bound of a stage in µs from the trigger, under a deadline in ms (R402). -/
def stopBound (deadline stage : Nat) : Nat :=
  match deadline with
  | 50 => [100, 30000, 40000, 41000, 50000].getD (stage - 1) 0
  | 20 => [100, 5000, 15000, 16000, 20000].getD (stage - 1) 0
  | _ => [100, 900000, 950000, 960000, 1000000].getD (stage - 1) 0

/-- A stage of the stop ends, in time or abandoned. Order 2 ends in time only when no domain runs; an abandoned order 3 has not
written its flush. -/
def State.stopStage (s : State) (x : Stop) (inTime : Bool) : State :=
  match x.stage with
  | 1 => s.stopAsk.stageOver x inTime
  | 2 => if inTime && s.anyRuns then s else s.stageOver x inTime
  | 3 => (if inTime then s.stopFlush else s).stageOver x inTime
  | 4 => s.releaseOutputs.stageOver x inTime
  | 5 => (s.waferOff.stageOver x inTime).stopEnd x
  | _ => s

/-- STOP_STAGE_END (R5, R402): the stage in progress ends, and the next starts. A stage that has not ended is abandoned at its
bound and not before; one that ends after its bound has been abandoned. -/
def execStopStageEnd (inTime : Bool) (s : State) : Host.Outcome State Fault Refusal :=
  match s.keep.stop with
  | none => .next s
  | some x =>
    let bound := x.since + stopBound x.deadline x.stage
    if !inTime && decide (s.clock < bound) then .next s else .next (s.stopStage x (inTime && decide (s.clock ≤ bound)))

/-! ### Triggers (R401, R443) -/

/-- A cause starts the stop at once when the keeper runs. -/
def State.stopOn (s : State) (cause deadline : Nat) (recovery : Option (BitVec 4)) (toReset : Bool) : State :=
  if !s.keep.pins.keep12v || s.order == 0 then s else s.orderlyStop cause deadline recovery toReset

/-- PWR_GOOD_DEASSERT (R401, R441): starts no stop before the first wafer domain is powered. -/
def execPwrGoodDeassert (s : State) : Host.Outcome State Fault Refusal :=
  let s : State := { s with keep.pins.pwrGood := false }
  .next (if s.waferOn then s.stopOn 3 20 none false else s)

/-- MAIN_INPUT_LOW (R401, R443): the main input has been below 46.0 V for 10 µs. -/
def execMainInputLow (s : State) : Host.Outcome State Fault Refusal :=
  .next (if s.waferOn then s.stopOn 3 20 none false else s)

/-- STOP_REQ_N_ASSERT (R401). -/
def execStopReqNAssert (s : State) : Host.Outcome State Fault Refusal :=
  .next (({ s with keep.pins.stopReqN := false } : State).stopOn 4 1000 none false)

/-- MOD_RESET_N_ASSERT (R346, R401): the orderly stop runs, then the keeper is held in reset; at once when no stop is left to
run. -/
def execModResetNAssert (s : State) : Host.Outcome State Fault Refusal :=
  if !s.keep.pins.modResetN then .next s
  else
    let s : State := { s with keep.pins.modResetN := false }
    if !s.keep.pins.keep12v || s.order == 0 then .next s
    else
      match s.keep.stop with
      | some x => if 6 ≤ x.stage then .next s.keeperReset else .next (s.stopOn 5 20 none true)
      | none => .next (s.stopOn 5 20 none true)

/-- KEEP_12V_LOSS (R443): every wafer domain is off within 1 ms and the keeper loses its state, with no flush. -/
def execKeep12vLoss (s : State) : Host.Outcome State Fault Refusal :=
  let s : State := { s with keep.pins.keep12v := false }
  let s : State := { s.keeperReset with keep.tripWait := false }
  .next ((s.setReg aLedgCalendar 0).setRfld aLedgStatus 0 0 0)

/-- HOLDUP_OK_DEASSERT (R443): the module continues and ALERT_N is asserted. -/
def execHoldupOkDeassert (s : State) : Host.Outcome State Fault Refusal := .next { s with keep.pins.holdupOk := false }

/-- HOLDUP_OK_ASSERT (R396). -/
def execHoldupOkAssert (s : State) : Host.Outcome State Fault Refusal := .next { s with keep.pins.holdupOk := true }

/-- PWR_GOOD_ASSERT (R396, R441). -/
def execPwrGoodAssert (s : State) : Host.Outcome State Fault Refusal := .next { s with keep.pins.pwrGood := true }

/-- KEEPER_HEARTBEAT_LOSS (R371): the clusters stop admission and every domain, end programming, darken the optics and have the
sequencer remove every wafer domain. The ledger is not flushed. -/
def execKeeperHeartbeatLoss (s : State) : Host.Outcome State Fault Refusal :=
  if !s.anyCluster then .next s
  else
    let s := (s.con.doms.filter (fun e => e.2.state == 2 || e.2.state == 3)).foldl (fun s e => s.stopDom e.1 7) s
    let s : State := { s with
      arr.waiting := []
      arr.running := [] }
    let s := (s.releaseOutputs.waferOff).setRfld aKeepState 5 5 0
    .next { s with keep.stop := some { cause := 0, deadline := 0, since := s.clock, stage := 6, recovery := none, toReset := false } }

/-! ### Outputs (R327, R439) -/

/-- FAULT_N is driven high from order 7 until order 4 of a stop, and released otherwise. -/
def State.faultNHigh (s : State) : Bool := s.running

/-- THERM_TRIP_N is driven low after a trip. -/
def State.thermTripNLow (s : State) : Bool := s.keep.pins.keep12v && s.keep.pins.thermTrip

/-- ALERT_N is low while the keeper holds an alert (R327, R396, R443): a thermal warning, a fault-log entry not yet read, the
recovery state, a stop, a wait at order 6, or HOLDUP_OK deasserted while running. -/
def State.alertNLow (s : State) : Bool :=
  s.keep.pins.keep12v && s.order != 0 &&
    (s.rbit aThmStatus 0 || s.rbit aThmStatus 1 || s.rbit aThmStatus 3 || s.rbit aThmStatus 4 ||
      s.rfld aLedgFlogPtr 31 0 != s.rfld aLedgFlogAck 31 0 || s.inRecovery || s.stopping ||
      (s.order == 6 && !s.mayPower) || (s.running && !s.keep.pins.holdupOk))

/-- The one MSI-X vector of the host's function is raised while the keeper holds an alert (R311, R327, R383). -/
def State.msixRaised (s : State) : Bool := s.hostUp && s.alertNLow

/-- PUMP_DEMAND and VALVE_CMD are driven only while the module runs. -/
def State.loopDriven (s : State) : Bool := s.running

/-- The demand that PUMP_DEMAND shows in units of 0.1 %: released, it is full flow (R397, R439). -/
def State.pumpDuty (s : State) : Nat := if s.loopDriven then s.rfld aThmFlow 19 10 else 1000

/-- VALVE_CMD is driven low (R397, R399, R439). -/
def State.valveLow (s : State) : Bool := s.loopDriven && !s.rbit aThmFlow 20

/-- The keeper drives the flash interface: while it runs, and after a stop until the ledger flush has ended (R439). -/
def State.nvmDriven (s : State) : Bool :=
  s.keeperRuns && (match s.keep.stop with
    | some x => decide (x.stage ≤ 3)
    | none => true)

/-- The optical transmitters of a tensor port are lit: the module runs and the port trains or carries traffic (R439). -/
def State.portLit (s : State) (t : Nat) : Bool := s.running && decide (1 ≤ (s.port t).state.toNat) && decide ((s.port t).state.toNat ≤ 4)

/-- The host lanes are in electrical idle: no link trains or is up (R439). -/
def State.lanesIdle (s : State) : Bool := s.rfld aHostLinkState 2 0 == 0 || s.rfld aHostLinkState 2 0 == 4

end Sys2Proof.Machine
end

