-- ==== Sys2Proof/Machine/Trust.lean ====
section
/-! DEFINITION. Image sessions (R342, R348), the attestation report (R344), the recovery command (R347), and the sideband's own commands: I3C addressing, MCTP, SPDM and the Bexlys vendor commands (R325 to R327). -/

namespace Sys2Proof.Machine

/-! ### Image sessions (R348) -/

/-- Whether an image session is open. -/
def State.inSession (s : State) : Bool := s.rbit aNvmStatus 0

/-- The end of the flash area that BEGIN erases: LENGTH rounded up to whole erase sectors, within the image region. The size of
a sector is the device's own, a free value. -/
def eraseEnd (length : Nat) : Nat :=
  min 0x10000000 ((length + Config.eraseSector) / (Config.eraseSector + 1) * (Config.eraseSector + 1))

/-- Whether BEGIN is accepted. The ledger region is never erased or written by a session. -/
def State.mayBegin (s : State) (length : Nat) : Bool := s.inRecovery && !s.inSession && decide (length ≤ 0x10000000)

/-- BEGIN: the session opens and the image region is erased. -/
def State.sessionBegin (s : State) (sideband : Bool) (length : Nat) : State :=
  let s : State := { s with
    trust.flash := memClear 0 (eraseEnd length) s.trust.flash
    trust.length := length
    trust.written := [] }
  (s.setReg aNvmStatus (BitVec.ofNat 64 (pack [(0, 1), (2, b2n sideband)]))).ok

/-- Whether a byte has been written in the session. -/
def State.writtenAt (s : State) (a : Nat) : Bool := s.trust.written.any (fun r => decide (r.1 ≤ a) && decide (a < r.1 + r.2))

/-- Program bytes of the image region. A byte that the session has written before holds a free value. -/
def State.flashProgram (s : State) (a : Nat) : List Byte → State
  | [] => s
  | b :: r =>
    let v := if s.writtenAt a then BitVec.ofNat 8 (Config.fresh s.freeCtr).toNat else b
    let t : State := { s with
      freeCtr := s.freeCtr + 1
      trust.flash := memPut 0xFF a v s.trust.flash }
    t.flashProgram (a + 1) r

/-- Whether data may be written: in an open session, within LENGTH. -/
def State.mayWrite (s : State) (a n : Nat) : Bool := s.inSession && decide (a + n ≤ s.trust.length)

/-- Write data of the session. -/
def State.sessionWrite (s : State) (a : Nat) (bs : List Byte) : State :=
  let s := s.flashProgram a bs
  let s : State := { s with trust.written := s.trust.written ++ [(a, bs.length)] }
  (s.setRfld aNvmStatus 63 32 (s.rfld aNvmStatus 63 32 + bs.length)).ok

/-- The session closes; provisioning is no longer armed (R357). -/
def State.sessionClose (s : State) : State :=
  let s : State := { s with
    trust.length := 0
    trust.written := [] }
  (s.setRfld aNvmStatus 1 0 0).setRfld aSecProvision 1 1 0

/-- The cause with which END's verification fails (R338 with R342); 0 when it passes. -/
def State.endCause (s : State) (v : Verify) : Nat :=
  if !flashPresent v.flash then 1 else if !s.headerOk then 2 else s.verifyCause v s.trust.fuses.owned

/-- Bind the owner (R342): the digests of the image's two public keys are fused with OWNED. -/
def State.bindOwner (s : State) : State :=
  { s with trust.fuses := { s.trust.fuses with
      ownerEd := Config.digest s.imgKeyEd
      ownerMl := Config.digest s.imgKeyMl
      owned := true } }

/-- END: the region is read back and verified; the result appears in NVM.STATUS, and KEEP and SEC report an image that has passed
step 6. DEDUCED (notes/assumptions/118.md). -/
def State.sessionEnd (s : State) (v : Verify) : State :=
  let c := s.endCause v
  let s : State := if c = 1 ∨ c = 2 then s else { s with trust.fwDigest := Config.digest s.imgFirmware }
  let s := if 1 ≤ c ∧ c ≤ 5 then s else s.reportImage
  let bind := decide (c = 0) && !s.trust.fuses.owned && s.rbit aSecProvision 1
  let s := if bind then s.bindOwner else s
  let result := if c ≠ 0 then 3 else if bind then 2 else 1
  (s.sessionClose.setRfld aNvmStatus 7 4 result).setRfld aNvmStatus 11 8 c

/-- NVM_BEGIN (R348). -/
def execNvmBegin (path : Path) (length : BitVec 32) (s : State) : Host.Outcome State Fault Refusal :=
  .next (s.access path aNvmCtrl true (fun s =>
    if s.mayBegin length.toNat then s.sessionBegin (path == .sideband) length.toNat else s.refuse path 2 true aNvmCtrl))

/-- NVM_END (R348). -/
def execNvmEnd (path : Path) (v : Verify) (s : State) : Host.Outcome State Fault Refusal :=
  .next (s.access path aNvmCtrl true (fun s => if s.inSession then (s.sessionEnd v).ok else s.refuse path 2 true aNvmCtrl))

/-- NVM_ABORT (R348). -/
def execNvmAbort (path : Path) (s : State) : Host.Outcome State Fault Refusal :=
  .next (s.access path aNvmCtrl true (fun s => if s.inSession then s.sessionClose.ok else s.refuse path 2 true aNvmCtrl))

/-- Whether a size and offset make a naturally aligned access of `lo` to `hi` bytes. -/
def alignedSize (off n lo hi : Nat) : Bool :=
  decide (lo ≤ n) && decide (n ≤ hi) && 2 ^ Nat.log2 n == n && off % n == 0

/-- The NVM window as its block takes a write (R312, R358): programmed at NVM.WOFF plus the window offset. -/
def State.windowProgram (s : State) (path : Path) (offset : Nat) (data : List Byte) : State :=
  let at' := (s.reg64 aNvmWoff).toNat + offset
  if !alignedSize offset data.length 8 256 || decide (0x1000 < offset + data.length) then
    s.refuse path 1 true (aNvmCtrl + 0x1000 + offset)
  else if !s.mayWrite at' data.length then s.refuse path 2 true (aNvmCtrl + 0x1000 + offset)
  else s.sessionWrite at' data

/-- NVM_WINDOW_WRITE (R312, R358). -/
def execNvmWindowWrite (path : Path) (offset : Nat) (data : List Byte) (s : State) : Host.Outcome State Fault Refusal :=
  .next (s.access path (aNvmCtrl + 0x1000 + offset) true (fun s => s.windowProgram path offset data))

/-- SEC.PROVISION.ARM as its block takes it from the sideband (R342): in the recovery state only. -/
def State.armWrite (s : State) : State := if s.inRecovery then (s.setRfld aSecProvision 1 1 1).ok else s.err

/-- ARM (R342). -/
def execArm (s : State) : Host.Outcome State Fault Refusal := .next (s.access .sideband aSecProvision true State.armWrite)

/-- KEEP.CMD.ENTER_RECOVERY as its block takes it (R347, R356): refused in the recovery state. -/
def State.recoveryCmd (s : State) (path : Path) : State :=
  if s.inRecovery then s.refuse path 2 true aKeepCmd else (s.orderlyStop 6 1000 (some 12) false).ok

/-- ENTER_RECOVERY (R347, R401). -/
def execEnterRecovery (path : Path) (s : State) : Host.Outcome State Fault Refusal :=
  .next (s.access path aKeepCmd true (fun s => s.recoveryCmd path))

/-! ### Attestation (R344) -/

/-- The state byte of the report: READY, RECOVERY, OWNED, DEBUG. -/
def State.reportFlags (s : State) : Nat :=
  pack [(0, b2n s.isReady), (1, b2n s.inRecovery), (2, b2n s.trust.fuses.owned), (3, s.rfld aKeepState 7 7)]

/-- The image digest as KEEP reports it. -/
def State.imageDigest (s : State) : List Byte := (List.range 8).flatMap (fun k => natLe 8 (s.reg64 (aSecImageDig k)).toNat)

/-- The two owner digests. -/
def State.ownerBytes (s : State) : List Byte := digestBytes s.trust.fuses.ownerEd ++ digestBytes s.trust.fuses.ownerMl

/-- Bytes 0x000 to 0x00F of the report. -/
def State.reportHead (s : State) : List Byte :=
  natLe 4 0x49564154 ++ natLe 2 1 ++ natLe 1 (b2n s.trust.fuses.grade) ++ natLe 1 s.reportFlags ++ natLe 8 s.trust.fuses.serial.toNat

/-- Bytes 0x0B0 to 0x0B7 of the report. -/
def State.reportSvn (s : State) : List Byte := natLe 8 (pack [(0, s.rfld aSecSvn 15 0), (16, s.trust.fuses.svnMin)])

/-- Bytes 0x000 to 0x11F of the report. -/
def State.reportBody (s : State) : List Byte :=
  s.reportHead ++ (List.range 4).flatMap (fun k => natLe 8 (s.reg64 (aSecNonce k)).toNat) ++ s.imageDigest ++
    digestBytes s.trust.fwDigest ++ s.reportSvn ++ natLe 8 s.calendar ++ natLe 8 (s.reg64 aKeepBootCnt).toNat ++
    natLe 4 (s.rfld aKeepState 63 32) ++ natLe 4 (s.rfld aKeepId 63 48) ++ digestBytes (Config.digest s.ownerBytes) ++
    List.replicate 16 0

/-- A message signed with the Ed25519 identity key, whose seed is derived from UDS (R343). -/
def State.signEd (s : State) (m : List Byte) : List Byte :=
  digestBytes (Config.signedEd (Config.kmac256 s.trust.fuses.uds "IVP DEVID ED" []) m)

/-- A message signed with the ML-DSA-65 identity key, whose seed is derived from UDS (R343). -/
def State.signMl (s : State) (m : List Byte) : List Byte :=
  (List.range 3309).map (Config.signedMl (Config.kmac256 s.trust.fuses.uds "IVP DEVID ML" []) m)

/-- SEC.ATTEST_CTRL.GO as its block takes it: the report, signed by both identity keys over the digest of its body. -/
def State.attest (s : State) : State :=
  let b := s.reportBody
  let d := digestBytes (Config.digest b)
  let s : State := { s with
    trust.report := b ++ s.signEd d ++ s.signMl d }
  (s.setRfld aSecAttestCtrl 1 1 1).ok

/-- GO (R344). -/
def execGo (path : Path) (s : State) : Host.Outcome State Fault Refusal := .next (s.access path aSecAttestCtrl true State.attest)

/-! ### The sideband (R325 to R327) -/

/-- A sideband command is answered whenever KEEP_12V is present. -/
def State.sideband (s : State) (k : State → State) : State := if s.keep.pins.keep12v then k s else s

/-- A message in transmission units of 64 bytes (R326). -/
def mctpUnits : Nat → List Byte → List (List Byte)
  | 0, _ => []
  | n + 1, bs => if bs.isEmpty then [] else bs.take 64 :: mctpUnits n (bs.drop 64)

/-- The response of a message waits for the bus in transmission units; the controller has read the one before. DESIGN CHOICE
(notes/assumptions/180.md). -/
def State.mctpSend (s : State) (bs : List Byte) : State := { s with keep.sideband.packets := mctpUnits bs.length bs }

/-- Whether the target signals a pending packet by an in-band interrupt (R325). -/
def State.inBandInterrupt (s : State) : Bool := s.keep.pins.keep12v && !s.keep.sideband.packets.isEmpty

/-- A MCTP control message or Bexlys vendor command: its response begins with the status byte, and that of a vendor command
carries the command byte, `code` (R326, R327). -/
def State.message (s : State) (code : Byte) (k : State → State) : State :=
  s.sideband (fun s =>
    let s := k s
    ({ s with resp.cmd := code } : State).mctpSend (BitVec.ofNat 8 s.resp.status :: s.resp.data))

/-- ENTDAA (R325). -/
def execEntdaa (address : BitVec 7) (s : State) : Host.Outcome State Fault Refusal :=
  .next (s.sideband (fun s => { s with keep.sideband.address := some address }))

/-- SETDASA (R325): the static address 0x40 + slot. -/
def execSetdasa (s : State) : Host.Outcome State Fault Refusal :=
  .next (s.sideband (fun s => { s with keep.sideband.address := some (BitVec.ofNat 7 (0x40 + s.rfld aKeepStraps 4 1)) }))

/-- SET_ENDPOINT_ID (R326). -/
def execSetEndpointId (eid : Byte) (s : State) : Host.Outcome State Fault Refusal :=
  .next (s.message 0 (fun s => ({ s with keep.sideband.eid := eid } : State).ok))

/-- STATE (R327): keeper state, READY bit and recovery cause, a byte each. -/
def execState (s : State) : Host.Outcome State Fault Refusal :=
  .next (s.message 0x03 (fun s => s.answer 0
    [BitVec.ofNat 8 (s.rfld aKeepState 7 0), BitVec.ofNat 8 (s.rfld aKeepState 5 5), BitVec.ofNat 8 (s.rfld aKeepState 11 8)]))

/-- IMAGE_BEGIN (R327, R348). -/
def execImageBegin (length : Nat) (s : State) : Host.Outcome State Fault Refusal :=
  .next (s.message 0x10 (fun s => if s.mayBegin length then s.sessionBegin true length else s.err))

/-- IMAGE_DATA (R327, R348): up to 1,024 bytes at an offset. -/
def execImageData (offset : Nat) (data : List Byte) (s : State) : Host.Outcome State Fault Refusal :=
  .next (s.message 0x11 (fun s =>
    if s.inRecovery && decide (data.length ≤ 1024) && s.mayWrite offset data.length then s.sessionWrite offset data else s.err))

/-- IMAGE_END (R327, R348): the result and its cause stand in NVM.STATUS, and follow the status. DESIGN CHOICE
(notes/assumptions/180.md). -/
def execImageEnd (v : Verify) (s : State) : Host.Outcome State Fault Refusal :=
  .next (s.message 0x12 (fun s =>
    if s.inRecovery && s.inSession then
      let s := s.sessionEnd v
      s.answer 0 [BitVec.ofNat 8 (s.rfld aNvmStatus 7 4), BitVec.ofNat 8 (s.rfld aNvmStatus 11 8)]
    else s.err))

/-- RECOVERY_HOST (R327): PD_F(6,0) and PD_HOST come on; accepted only in the recovery state. -/
def execRecoveryHost (s : State) : Host.Outcome State Fault Refusal :=
  .next (s.message 0x20 (fun s => if s.inRecovery then (s.powerOn [7, 62]).ok else s.err))

/-! ### SPDM (R326, R344) -/

/-- A step of an SPDM connection: how far it has come, and the answer. -/
def State.spdmStep (s : State) (stage : Nat) (data : List Byte) : State :=
  s.sideband (fun s => (({ s with keep.sideband.spdm := stage } : State).answer 0 data).mctpSend data)

/-- GET_VERSION (R326): SPDM 1.3. -/
def execGetVersion (s : State) : Host.Outcome State Fault Refusal := .next (s.spdmStep 1 [0x13])

/-- GET_CAPABILITIES (R326); the capabilities are not stated, a free value. -/
def execGetCapabilities (s : State) : Host.Outcome State Fault Refusal :=
  .next ((s.spdmStep 2 (natLe 8 (Config.fresh s.freeCtr).toNat)).tickFree)

/-- NEGOTIATE_ALGORITHMS (R326): SHA-512 and Ed25519; how the response codes them is not stated, a free value. -/
def execNegotiateAlgorithms (s : State) : Host.Outcome State Fault Refusal :=
  .next ((s.spdmStep 3 (natLe 8 (Config.fresh s.freeCtr).toNat)).tickFree)

/-- GET_DIGESTS (R326): the SHA-512 digest of the certificate chain in slot 0. -/
def execGetDigests (s : State) : Host.Outcome State Fault Refusal :=
  .next (s.spdmStep s.keep.sideband.spdm (digestBytes (Config.digest Config.edChain)))

/-- GET_CERTIFICATE (R326, R343): a portion of the Ed25519 chain of slot 0, in a message of at most 1,088 bytes, of which 9 hold
its type and the header of SPDM 1.3. PRESUMED (notes/assumptions/181.md). -/
def execGetCertificate (s : State) (offset : BitVec 16 := 0) (length : BitVec 16 := 0xFFFF) : Host.Outcome State Fault Refusal :=
  .next (s.spdmStep s.keep.sideband.spdm ((Config.edChain.drop offset.toNat).take (min length.toNat 1079)))

/-- CHALLENGE (R326): signed with the Ed25519 identity key. -/
def execChallenge (nonce : BitVec 256) (s : State) : Host.Outcome State Fault Refusal :=
  .next (s.spdmStep s.keep.sideband.spdm (s.signEd (natLe 32 nonce.toNat)))

/-- The SHA-512 measurement at an index (R344). -/
def State.measurement (s : State) (index : Nat) : Option (List Byte) :=
  match index with
  | 1 => some (digestBytes Config.keeperDigest)
  | 2 => some (digestBytes (Config.digest (s.reportHead ++ s.reportSvn ++ s.ownerBytes)))
  | 3 => some s.imageDigest
  | 4 => some (digestBytes s.trust.fwDigest)
  | 5 => some (digestBytes (Config.digest [BitVec.ofNat 8 (s.rfld aKeepState 7 7)]))
  | _ => none

/-- GET_MEASUREMENTS (R344): the measurement, signed with the Ed25519 identity key; no other index has one. -/
def execGetMeasurements (index : BitVec 8) (s : State) : Host.Outcome State Fault Refusal :=
  match s.measurement index.toNat with
  | some m => .next (s.spdmStep s.keep.sideband.spdm (m ++ s.signEd m))
  | none => .next (s.sideband State.err)

end Sys2Proof.Machine
end

