-- ==== Sys2Proof/Machine/Calib.lean ====
section
/-! DEFINITION. Service calibration (R415 to R418). -/

namespace Sys2Proof.Machine

/-- Whether a field is free for calibration (R415): no tile of it belongs to a domain that is held, running or in a repair
hold, and none of its arrays is in STATE 3. -/
def State.calFree (s : State) (f : Nat) : Bool :=
  !s.con.doms.any (fun e => (e.2.state == 1 || e.2.state == 2 || e.2.state == 3) && e.2.members.any (fun t => fieldOf t == f)) &&
    !s.arr.recs.any (fun e => e.2.state == 3 && fieldOf (e.1 / 17) == f)

/-- Whether a field is a committed compute field. -/
def State.calField (s : State) (f : Nat) : Bool := !fieldIsMem f && s.rfld (aRepFieldState f) 2 0 == 0

/-- The fields of a mask. -/
def calFields (mask : Nat) : List Nat := (List.range 49).filter (fun f => mask.testBit f)

/-- Channel 124 reads within 2.475 to 2.525 V; 2.500 V reads 32,768 (R406, R415). -/
def State.vrefOk (s : State) : Bool :=
  let c := kvGet 0 124 s.keep.thermal.codes
  decide (2475 * 32768 ≤ c * 2500) && decide (c * 2500 ≤ 2525 * 32768)

/-- Why a START is refused, as CAL.STATUS.LAST_REFUSE codes it; 0 when it is not. -/
def State.calRefuse (s : State) (mask : Nat) : Nat :=
  if !s.isReady || s.stopping then 1
  else if s.keep.calOrder ≠ 0 then 2
  else if s.rbit aCalStatus 3 then 3
  else if !s.vrefOk then 4
  else if !(calFields mask).all (fun f => s.calField f) then 5
  else if !(calFields mask).all (fun f => s.calFree f) then 6
  else 0

/-- CAL.CMD.START as its block takes it. -/
def State.calBegin (s : State) (path : Path) (mask : Nat) : State :=
  match s.calRefuse mask with
  | 0 => (({ s with keep.calOrder := 2 } : State).setReg aCalStatus
      (BitVec.ofNat 64 (pack [(0, 1), (11, s.rfld aCalStatus 13 11), (15, mask)]))).ok
  | k => (s.setRfld aCalStatus 13 11 k).refuse path 2 true aCalCmd

/-- CAL_START (R415). -/
def execCalStart (path : Path) (fields : BitVec 49) (s : State) : Host.Outcome State Fault Refusal :=
  .next (s.access path aCalCmd true (fun s => s.calBegin path fields.toNat))

/-- CAL_ABORT (R418). -/
def execCalAbort (path : Path) (s : State) : Host.Outcome State Fault Refusal :=
  .next (s.access path aCalCmd true (fun s => s.calEnd.ok))

/-- Order 5 goes to the next field of PENDING from number `from'` that is free, or the run ends (order 6). A field retired
or in use by its turn is skipped. -/
def State.calNext (s : State) (from' : Nat) : State :=
  let pending := s.rfld aCalStatus 63 15
  match (calFields pending).find? (fun f => decide (from' ≤ f) && s.calField f && s.calFree f) with
  | some f =>
    let s := (s.setRfld aCalStatus 2 0 2).setRfld aCalStatus 9 4 f
    { s with
      keep.calOrder := 5
      keep.thermal.staleSince := [(2 * f, s.clock), (2 * f + 1, s.clock)] }
  | none =>
    let s : State := { s with keep.calOrder := 0 }
    if pending ≠ 0 then s.setRfld aCalStatus 2 0 4
    else ((s.setRfld aCalStatus 2 0 3).bump aCalCount).setReg aCalLastTime (s.reg64 aLedgCalendar)

/-- CAL_PART_DONE (R416, R418): a part ends and its trims hold. A converter whose trim falls outside its range is handled as a
self-test failure (R69). -/
def execCalPartDone (bad : List (TileIx × BitVec 5 × Conv)) (s : State) : Host.Outcome State Fault Refusal :=
  match s.keep.calOrder with
  | 0 => .next s
  | 4 => .next (s.calNext 0)
  | 5 =>
    let f := s.rfld aCalStatus 9 4
    let mine := bad.filter (fun e => fieldOf e.1.toNat == f && tileKind e.1.toNat == 0 && decide (e.2.1.toNat < 17))
    let s := mine.foldl (fun s e => s.convBad e.1.toNat e.2.1.toNat e.2.2) s
    let p := s.rfld aCalStatus 63 15
    let s : State := { s with keep.thermal.staleSince := [] }
    .next (((s.setRfld aCalStatus 63 15 (p - b2n (p.testBit f) * 2 ^ f)).calNext (f + 1)).calReturn)
  | k => .next { s with keep.calOrder := k + 1 }

end Sys2Proof.Machine
end

