-- ==== Sys2Proof/Machine/Commit.lean ====
section
/-! DEFINITION. COMMIT, DISCARD and the safe points of staged values (R349 to R352), tenant resets and UNFREEZE (R353 to R355). -/

namespace Sys2Proof.Machine

/-! ### COMMIT (R349, R350) -/

/-- The index of a block in base-address order, as CFG.PENDING numbers blocks (R359). -/
def blockIndex (a : Nat) : Nat :=
  match a / 0x1000000 with
  | 0x10 => 9 | 0x11 => 10 | 0x12 => 11 | 0x13 => 12
  | 0x20 => 13 | 0x21 => 14 | 0x22 => 15
  | 0x30 => 16 | 0x31 => 17 | 0x32 => 18 | 0x33 => 19 | 0x34 => 20
  | b => b

/-- CFG.PENDING.BLOCKS: the blocks that hold committed values not yet applied. -/
def State.pendingBlocks (s : State) : Nat :=
  (s.reg.committed.map (fun e => blockIndex e.1)).foldl (fun m b => if m.testBit b then m else m + 2 ^ b) 0

/-- The registers with a staged or committed value that differs from the applied one. -/
def State.changedRegs (s : State) : List Nat :=
  ((s.reg.committed ++ s.reg.staged).map Prod.fst).foldl (fun l a => if s.stagedOf a = s.reg64 a then l else natAdd a l) []

/-- The first changed register that fails its check, with the reason (R350). -/
def State.commitFails (s : State) : Option (Nat × Nat) :=
  (s.changedRegs.map (fun a => (a, regCheck s.stagedOf a (some (s.reg64 a))))).find? (fun e => e.2 != 0)

/-- A refused COMMIT: counted, with the block and the reason in CFG.STATUS. -/
def State.commitRefuse (s : State) (path : Path) (block reason : Nat) : State :=
  let s := (s.setRfld aCfgStatus 28 24 block).setRfld aCfgStatus 31 29 reason
  (s.bump aCfgCommitRejectCnt).refuse path 2 true aCfgCommit

/-- Every staged value becomes a committed one; a value equal to the applied one is not listed. -/
def State.commitAll (s : State) : State :=
  let s := s.reg.staged.foldl (fun (s : State) e =>
    { s with reg.committed := kvPut (s.reg64 e.1) e.1 (mergeMask (stMask e.1) (s.reg64 e.1) e.2) s.reg.committed }) s
  { s with reg.staged := [] }

/-- CFG.COMMIT with a GEN as its block takes it (R349, R350). -/
def State.commitWrite (s : State) (path : Path) (gen : Nat) : State :=
  if gen ≠ (s.rfld aCfgStatus 15 0 + 1) % 65536 then s.commitRefuse path 8 1
  else
    match s.commitFails with
    | some (a, reason) =>
      let s := if aMemRegion 0 ≤ a ∧ a ≤ aMemRegion 63 ∧ reason = 3 then s.bump aMemRegionRejectCnt else s
      s.commitRefuse path (blockIndex a) reason
    | none => ((s.commitAll.setRfld aCfgStatus 15 0 gen).bump aCfgCommitCnt).ok

/-- COMMIT (R349). -/
def execCommit (path : Path) (gen : BitVec 16) (s : State) : Host.Outcome State Fault Refusal :=
  .next (s.access path aCfgCommit true (fun s => s.commitWrite path gen.toNat))

/-- CFG.COMMIT.DISCARD as its block takes it (R350): every staged value goes back to the last accepted COMMIT. -/
def State.discardStaged (s : State) : State := ({ s with reg.staged := [] } : State).ok

/-- DISCARD (R350). -/
def execDiscard (path : Path) (s : State) : Host.Outcome State Fault Refusal :=
  .next (s.access path aCfgCommit true State.discardStaged)

/-! ### Safe points (R351, R352) -/

/-- The object of a staged register (R352), by a number of its own: registers with the same number apply together. -/
def objectOf (a : Nat) : Nat :=
  match ringAt a with
  | some r => aRing r
  | none =>
    if isKeeperObject a then aPwrCap
    else if aMemRegion 0 ≤ a ∧ a ≤ aMemRegion 63 then aMemRegion 0
    else if a = aSrvCtrl ∨ (aSrvRqBind 0 ≤ a ∧ a ≤ aSrvRqBind 255 ∧ a % 0x40 = 0x20) then aSrvCtrl
    else if (aSrvIface 0 ≤ a ∧ a < aSrvIface 1024) ∨ (aSvcProfile 0 ≤ a ∧ a < aSvcProfile 256) then a / 0x20 * 0x20
    else if aFabRdir 0 ≤ a ∧ a < aFabRdir 1024 then a / 0x10 * 0x10
    else a

/-- Whether a register is NUM.LTHR of a slot, which applies at a step commit (R108). -/
def isLthr (a : Nat) : Bool := decide (aNumLthr 0 ≤ a) && decide (a ≤ aNumLthr 4095) && (a - aNumLthr 0) % 0x40 == 0

/-- Apply every committed value of an object. -/
def State.applyObject (s : State) (a : Nat) : State :=
  ((s.reg.committed.map Prod.fst).filter (fun b => objectOf b == objectOf a)).foldl State.applyReg s

/-- The pages of the regions whose descriptors a COMMIT changes, before and after it (R212). -/
def State.changedPages (s : State) : List Nat :=
  ((List.range 64).filter (fun r => (kvFind (aMemRegion r) s.reg.committed).isSome)).flatMap (fun r =>
    let run := fun (w : Word) => (List.range (fld w 51 26)).map (fun i => fld w 25 0 + i)
    run (s.reg64 (aMemRegion r)) ++ run (s.committedOf (aMemRegion r)))

/-- Apply a region set (R139, R212, R292): a page whose tag changes is marked for zero-fill, and the windows over it close. -/
def State.applyRegions (s : State) : State :=
  let pages := s.changedPages
  let t := s.applyObject (aMemRegion 0)
  let t : State := { t with mem.pageTags := t.mem.pageTags.filter (fun e => !pages.contains e.1) }
  let moved := pages.filter (fun p => s.pageTag p != t.pageTag p)
  let t : State := { t with mem.zeroFill := (moved.filter (fun p => (t.pageTag p).isSome)).foldl (fun l p => natAdd p l) t.mem.zeroFill }
  t.winCloseAll (fun s g w => moved.any (fun p => s.winOverStack (p * 65536) 65536 g w))

/-- STAGED_APPLY (R351): the object of a register reaches its safe point. A ring's is R136's, an SRV.IFACE record's that its
instance is EMPTY; NUM.LTHR applies at a step commit, and a timeout of FAB where a timer starts. For THM, PWR, HKC and CAL it is
a conversion boundary without a result, as a frame's is (R407). -/
def execStagedApply (addr : Nat) (s : State) : Host.Outcome State Fault Refusal :=
  match ringAt addr with
  | some r => .next (s.ringSafe r)
  | none =>
    if !(s.reg.committed.any (fun e => objectOf e.1 == objectOf addr)) then .next s
    else if addr = aChoStallLimit then .next s.limitSettle
    else if isLthr addr || addr == aFabRcompTmo || addr == aFabWinCloseTmo then .next s
    else if aFabRdir 0 ≤ addr ∧ addr < aFabRdir 1024 ∧ s.fab.entryRuns.contains ((addr - aFabRdir 0) / 0x10) then .next s
    else if objectOf addr = aMemRegion 0 then .next s.applyRegions
    else if aSrvIface 0 ≤ addr ∧ addr < aSrvIface 1024 ∧ (s.inst ((addr - aSrvIface 0) / 0x20)).state ≠ 0 then .next s
    else if isKeeperObject addr then .next s.keeperApply
    else
      let was := s.rbit aRepCtrl 0
      let s := s.applyObject addr
      .next (if addr = aRepCtrl ∧ was ∧ !s.rbit aRepCtrl 0 then s.fault 12 none none 0 else s)

/-! ### Tenant reset (R354) -/

/-- Discard the held operations of a frozen master and free its completion entries. -/
def State.dropHeld (s : State) (f : Frozen) : State :=
  let t := f.id.toNat
  match f.cls.toNat with
  | 0 | 1 =>
    let s : State := { s with fab.ctab := s.fab.ctab.filter (fun e => e.2.tile != t) }
    if t < positions then
      s.setTile t { s.tile t with outbox := [], reads := [], seq := { (s.tile t).seq with remoteOut := 0 } }
    else s
  | _ => s

/-- Every running domain whose tiles carry a tag stops at its next barrier with STATE 7, at once when it waits at one. -/
def State.stopTenant (s : State) (tag : BitVec 8) : State :=
  (s.con.doms.filter (fun e =>
    (e.2.state == 2 || e.2.state == 3) && e.2.members.any (fun t => (s.tile t).tenant == tag))).foldl (fun s e =>
      if e.2.state = 2 ∧ e.2.waiting then (s.setDom e.1 { e.2 with waiting := false }).stopDom e.1 7
      else s.setDom e.1 { e.2 with stopReq := true }) s

/-- CFG.FRZ_CMD with OP 1 as its block takes it. -/
def State.tenantReset (s : State) (tag : BitVec 8) : State :=
  let s := (s.trust.frozen.filter (fun f => f.tag == tag)).foldl State.dropHeld (s.bump aCfgTenantResetCnt)
  let s := if tag = 0 then s
    else
      let s := s.winCloseAll (fun s g w => s.winTenant g w == tag.toNat || s.winPeerTenant g w == tag.toNat)
      let s := (s.srv.seqs.filter (fun e => e.2.tenant == tag && e.2.state != 0)).foldl (fun s e => s.endSeq e.1 7) s
      s.stopTenant tag
  ({ s with trust.resets := if s.trust.resets.contains tag then s.trust.resets else s.trust.resets ++ [tag] } : State).resetsSettle.ok

/-- TENANT_RESET (R354). -/
def execTenantReset (path : Path) (tag : BitVec 8) (s : State) : Host.Outcome State Fault Refusal :=
  .next (s.access path aCfgFrzCmd true (fun s => s.tenantReset tag))

/-! ### UNFREEZE (R355) -/

/-- The running shards of a load engine, as (instance, shard). -/
def State.engineShards (s : State) (e : Nat) : List (Nat × Nat) :=
  s.load.jobs.flatMap (fun j =>
    ((List.range j.env.shards.length).filter (fun k =>
      shEngine (j.env.shards.getD k []) == e && (s.fetchJob (descInst j.desc) k).isSome)).map (fun k => (descInst j.desc, k)))

/-- A halted job ends as if its shard had failed every attempt, under its POLICY (R234). -/
def State.haltedEnd (s : State) (i shard : Nat) : State :=
  match s.fetchJob i shard with
  | some (n, _) => ((s.bump aLoadShardFailCnt).shardLost n shard 9).jobsPump 300
  | none => s

/-- CFG.FRZ_CMD with OP 2 as its block takes it: accepted once a tenant reset of the master's tag has completed since it
froze. -/
def State.unfreezeMaster (s : State) (path : Path) (cls id : Nat) : State :=
  let s := s.resetsSettle
  match s.trust.frozen.find? (fun f => f.cls.toNat == cls && f.id.toNat == id) with
  | none => (s.bump aCfgUnfreezeRejectCnt).refuse path 2 true aCfgFrzCmd
  | some f =>
    if !f.reset then (s.bump aCfgUnfreezeRejectCnt).refuse path 2 true aCfgFrzCmd
    else
      let s := ({ s with
        trust.frozen := s.trust.frozen.filter (fun f => !(f.cls.toNat == cls && f.id.toNat == id)) } : State).bump aCfgUnfreezeCnt
      let s := match cls with
        | 3 => s.qpFree (id / 4096) (id % 4096)
        | 4 => (s.engineShards id).foldl (fun (s : State) (e : Nat × Nat) => s.haltedEnd e.1 e.2) s
        | _ => s
      s.ok

/-- UNFREEZE (R355). -/
def execUnfreeze (path : Path) (cls : BitVec 3) (id : BitVec 16) (s : State) : Host.Outcome State Fault Refusal :=
  .next (s.access path aCfgFrzCmd true (fun s => s.unfreezeMaster path cls.toNat id.toNat))

end Sys2Proof.Machine
end

