-- ==== Sys2Proof/Machine/RegRead.lean ====
section
/-! DEFINITION. What every management register and window reads (R11, R83, R141 to R143, R178, R242, R243, R274, R306, R307, R330, R356 to R359, R383, R404, R405, R432, R452): the stored value, or the part of the state that it shows. -/

namespace Sys2Proof.Machine

/-- A word of fields. -/
def word (l : List (Nat × Nat)) : Word := BitVec.ofNat 64 (pack l)

/-- The stored value of a register with one field shown from elsewhere. -/
def State.shown (s : State) (a hi lo v : Nat) : Word := setFld (s.reg64 a) hi lo v

/-! ### Tile windows (R83, R141 to R143) -/

/-- TILEW.STATE of a position. -/
def State.tileState (s : State) (t : Nat) : Word :=
  let x := s.tile t
  let st :=
    if s.mapOf t = 2 then 3
    else if s.mapOf t = 1 then 2
    else if !x.clearing.isEmpty then 4
    else if x.dom.isSome && ((s.dom (s.domOf t)).state == 2 || (s.dom (s.domOf t)).state == 3) then 1
    else 0
  word [(0, st), (3, b2n (s.frozenAt 0 t)), (4, b2n x.repairPending), (8, if x.cho.isSome then x.tenant.toNat else 0),
    (32, x.steps.toNat)]

/-- CIMW.ARRAY_STATE(p): a suspect array reads 1, an unbound one names logical array 15, and AUTO_SPLIT reads 0 while the tile
is in beat mode. DESIGN CHOICE (notes/assumptions/158.md). -/
def State.arrayState (s : State) (t p : Nat) : Word :=
  let x := s.arrayRec t p
  word [(0, if x.state = 0 ∧ x.suspect.isSome then 1 else x.state.toNat), (3, b2n (x.autoSplit && s.beatOf t == 0)),
    (4, x.gain.toNat), (7, b2n (wornWarn x)), (8, x.colSwaps.length), (10, x.rowSwaps.length), (12, x.tol.toNat),
    (20, if x.bound then x.logical.toNat else 15), (24, x.tenant.toNat), (32, x.verify.toNat)]

/-- A register of a tile window, by offset. -/
def State.tileWord (s : State) (t off a : Nat) : Word :=
  let x := s.tile t
  let k := tileKind t
  if off = 0 then word [(0, t), (16, k), (32, kindSegments k)]
  else if off = 8 then s.tileState t
  else if off = 0x10 then word [(14, x.aper.toNat)]
  else if 0x400 ≤ off ∧ off < 0x400 + 5 * 0x110 then
    let p := (off - 0x400) / 0x110
    let g := (off - 0x400) % 0x110 / 8
    word ((List.range 4).map (fun i => (16 * i, (kvGet 0 (4 * g + i) (s.link (linkKey t p)).tally).toNat)))
  else if 0xA00 ≤ off ∧ off < 0xA20 then
    let l := s.link (linkKey t ((off - 0xA00) / 8))
    word ([(0, l.swapped.length), (4, b2n l.retired)] ++
      ((List.range 8).map (fun i => (8 + 7 * i, l.swapped.getD i 0))))
  else if off = 0xA20 then
    word ((List.range 4).flatMap (fun p =>
      [(p, b2n (s.link (linkKey t p)).aFailed), (4 + p, b2n (s.link (linkKey t p)).bFailed)]))
  else if 0x1000 ≤ off ∧ off < 0x1100 then
    word ((List.range 8).map (fun b =>
      let g := (off - 0x1000) / 8 * 8 + b
      (8 * b, if g < kindSegments k then s.segTag t g else 0)))
  else if k = 0 ∧ 0x8000 ≤ off ∧ off < 0x8088 then s.arrayState t ((off - 0x8000) / 8)
  else if k = 0 ∧ 0x8100 ≤ off ∧ off < 0x8188 then word [(0, (s.arrayRec t ((off - 0x8100) / 8)).cycles.toNat)]
  else s.reg64 a

/-! ### Blocks -/

/-- KEEP and SEC (R356, R357). -/
def State.keepWord (s : State) (a : Nat) : Word :=
  let f := s.trust.fuses
  if a = aKeepId then s.shown a 32 32 (b2n f.grade)
  else if a = aKeepSerial then f.serial
  else if a = aKeepState then s.shown a 12 12 (b2n f.owned)
  else if aSecOwnerEd 0 ≤ a ∧ a ≤ aSecOwnerEd 7 then BitVec.ofNat 64 (f.ownerEd.toNat / 2 ^ (8 * (a - aSecOwnerEd 0)))
  else if aSecOwnerMl 0 ≤ a ∧ a ≤ aSecOwnerMl 7 then BitVec.ofNat 64 (f.ownerMl.toNat / 2 ^ (8 * (a - aSecOwnerMl 0)))
  else if a = aSecSvn then s.shown a 22 16 f.svnMin
  else s.reg64 a

/-- CFG (R359). -/
def State.cfgWord (s : State) (a : Nat) : Word :=
  let frozenBits := fun (cls n : Nat) => (List.range n).map (fun i => (i, b2n (s.frozenAt cls i)))
  if a = aCfgStatus then s.shown a 16 16 (b2n (!s.reg.staged.isEmpty))
  else if a = aCfgPending then BitVec.ofNat 64 s.pendingBlocks
  else if a = aCfgFrzState then
    word [(0, b2n (s.trust.resets.any (fun g => s.resetWaits g))), (8, pack (frozenBits 4 7)), (16, pack (frozenBits 5 28))]
  else s.reg64 a

/-- TNP and FAB (R306, R307). -/
def State.fabWord (s : State) (a : Nat) : Word :=
  if aTnpPortState 0 ≤ a ∧ a ≤ aTnpPortState 95 then
    let p := s.port ((a - aTnpPortState 0) / 8)
    word [(0, p.state.toNat), (3, p.lanes.toNat), (12, b2n p.spare), (13, b2n (portUplink ((a - aTnpPortState 0) / 8))),
      (14, p.peer.toNat), (24, p.peerPort.toNat)]
  else if aFabCtabUsed 0 ≤ a ∧ a ≤ aFabCtabUsed 3 then
    word [(0, (s.ctabOf ((a - aFabCtabUsed 0) / 8)).length)]
  else s.reg64 a

/-- The lowest stage that a rollback has not programmed yet (R235, R243). -/
def State.rollFront (s : State) (i : Nat) : Nat :=
  let x := s.inst i
  let left := match s.jobOf i with
    | some n => match s.load.jobs[n]? with
      | some j => j.todo ++ j.busy
      | none => []
    | none => []
  (((List.range x.stages.length).find? (fun k => (s.stageEntries i k x.placed).any (fun e => left.contains e))).getD
    x.stages.length) % 64

/-- LOAD.INST(i) (R243): FRONT is shown during a promenade, a rollback and while parked. -/
def State.instWord (s : State) (i : Nat) : Word :=
  let x := s.inst i
  word [(0, x.state.toNat), (8, x.tenant.toNat),
    (16, if x.state = 5 then s.rollFront i else if x.state = 4 ∨ x.state = 6 then x.front.toNat else 0), (32, x.gen.toNat)]

/-- SRV.SEQ(n), word `k` (R274). -/
def State.seqWord (s : State) (n k : Nat) : Word :=
  let q := s.seqRec n
  match k with
  | 0 => word [(0, q.state.toNat), (3, b2n q.tune), (4, q.inst.toNat), (14, q.tenant.toNat), (22, q.respRing.toNat),
      (30, q.reqRing.toNat), (38, q.gen.toNat)]
  | 1 => q.reqId
  | 2 => word [(0, q.tokIdx % 2 ^ 32), (32, q.pages.length % 2 ^ 16), (48, q.adapter.toNat), (60, b2n q.adapterEn)]
  | _ => word [(0, q.gstate.toNat), (20, q.grammar.toNat), (26, b2n q.grammarEn),
      (27, match q.handle with
        | some h => h.toNat
        | none => 0), (47, b2n q.handle.isSome)]

/-- SRV.ADAPTER(a) and SRV.GRAM(g). -/
def State.adapterView (s : State) (a : Nat) : Word :=
  let x := s.adapterRec a
  word [(0, x.page.toNat), (26, b2n x.present), (27, b2n x.tuning), (28, x.rank.toNat), (35, x.tenant.toNat), (43, x.users % 2 ^ 17)]
def State.gramShow (s : State) (g : Nat) : Word :=
  let x := s.gramRec g
  word [(0, x.page.toNat), (26, b2n x.present), (27, b2n (s.gramWaits g)), (28, x.users % 2 ^ 17), (45, x.tenant.toNat)]

/-- SRV.HVIEW0 and SRV.HVIEW1: the handle that SRV.HSEL names. -/
def State.handleWord (s : State) (k : Nat) : Word :=
  let x := s.handle (s.rfld aSrvHsel 19 0)
  if k = 0 then
    word [(0, x.state.toNat), (2, x.check.toNat), (14, x.tenant.toNat), (22, x.inst.toNat), (32, x.gen.toNat),
      (48, min x.refs 65535)]
  else word [(0, x.tokens % 2 ^ 32), (32, if x.state = 0 then 0 else (s.clock - x.used) / 1000000 % 2 ^ 32)]

/-- SRV (R274). -/
def State.srvWord (s : State) (a : Nat) : Word :=
  if a = aSrvHview0 then s.handleWord 0
  else if a = aSrvHview1 then s.handleWord 1
  else if aSrvAdapter 0 ≤ a ∧ a ≤ aSrvAdapter 4095 then s.adapterView ((a - aSrvAdapter 0) / 8)
  else if aSrvGram 0 ≤ a ∧ a ≤ aSrvGram 63 then s.gramShow ((a - aSrvGram 0) / 8)
  else if aSrvSeq 0 ≤ a ∧ a < aSrvSeq 65536 then s.seqWord ((a - aSrvSeq 0) / 0x20) ((a - aSrvSeq 0) % 0x20 / 8)
  else s.reg64 a

/-- CHO.DOM_STATE(d) (R178). -/
def State.domWord (s : State) (d : Nat) : Word :=
  let x := s.dom d
  word [(0, x.state.toNat), (4, x.attempt.toNat), (6, b2n x.loupe), (7, b2n x.retiredRef), (16, x.root.toNat), (32, x.steps.toNat)]

/-- BEAT (R432). The measured period is a free value while a beat choreography is loaded. -/
def State.beatWord (s : State) (a : Nat) : Word :=
  let on := s.beat.cho.isSome
  if a = aBeatStatus then
    let id := match s.beat.cho with
      | some c => match s.choOf c with
        | some x => x.image.choId.toNat
        | none => 0
      | none => 0
    word [(0, b2n on), (1, b2n s.beat.stretching), (10, s.beatDomain.getD 0), (32, id)]
  else if a = aBeatHorizon then word [(0, s.beat.horizon % 2 ^ 32), (32, s.beat.committed % 2 ^ 32)]
  else if a = aBeatPeriod then (if on then BitVec.ofNat 64 (fld (Config.fresh s.freeCtr) 15 0) else 0)
  else s.reg64 a

/-- What a register shows that has no staged value. -/
def State.viewWord (s : State) (a : Nat) : Word :=
  match a / 0x1000000 with
  | 0x00 | 0x01 => s.keepWord a
  | 0x02 =>
    if a = aPwrInput then (s.shown a 32 32 (b2n s.keep.pins.pwrGood)) ||| word [(33, b2n s.keep.pins.holdupOk)] else s.reg64 a
  | 0x03 =>
    if aThmSensor 0 ≤ a ∧ a ≤ aThmSensor 123 then s.shown a 34 34 (b2n (s.chanOn ((a - aThmSensor 0) / 8))) else s.reg64 a
  | 0x08 => s.cfgWord a
  | 0x12 | 0x13 => s.fabWord a
  | 0x20 =>
    if aMemStackState 0 ≤ a ∧ a ≤ aMemStackState 27 then
      let k := (a - aMemStackState 0) / 8
      s.shown a 27 16 (kvGet {} k s.mem.stackUnits).busy.length
    else s.reg64 a
  | 0x21 => if aLoadInst 0 ≤ a ∧ a ≤ aLoadInst 1023 then s.instWord ((a - aLoadInst 0) / 8) else s.reg64 a
  | 0x22 => s.srvWord a
  | 0x30 => if aChoDomState 0 ≤ a ∧ a ≤ aChoDomState 1023 then s.domWord ((a - aChoDomState 0) / 8) else s.reg64 a
  | 0x34 => s.beatWord a
  | _ => s.reg64 a

/-- What a read of a register returns (R11): of ST fields the staged value, of RING.PTR the pointers, of HOST.AGENT the frozen
agents too; zero of an unassigned address (R311). -/
def State.readWord (s : State) (a : Nat) : Word :=
  match rowOf a with
  | none => 0
  | some row =>
    if isTileAddr a then s.tileWord (tileOfAddr a) (a % 0x10000) a
    else if a = aHostAgent then s.stagedOf a ||| word [(16, b2n (s.frozenAt 2 0)), (17, b2n (s.frozenAt 2 1))]
    else if row.st ≠ 0 then s.stagedOf a
    else
      match ringRegOf a with
      | some (r, 0x10) => BitVec.ofNat 64 (s.ringPtr r)
      | _ => s.viewWord a

/-! ### Windows that are read in 8-byte words (R312) -/

/-- The bases and lengths of the fault-log, report, certificate and trace windows (R357, R385, R452). -/
def readWindows : List (Nat × Nat) :=
  [(0x06010000, 0x4000), (0x01001000, 0x1000), (0x01002000, 0x6000), (0x33100000, 0x100000)]

/-- Whether an address lies in one of them. -/
def inReadWindow (a : Nat) : Bool := readWindows.any (fun w => decide (w.1 ≤ a) && decide (a < w.1 + w.2))

/-- The 8 bytes at an address of one of them: entry k of the fault log lies at 16·(k mod 1,024), record k of the trace at buffer
byte 32·k. -/
def State.windowWord (s : State) (a : Nat) : Word :=
  if a < 0x01002000 then BitVec.ofNat 64 (leNat ((s.trust.report.drop (a - 0x01001000)).take 8))
  else if a < 0x01008000 then BitVec.ofNat 64 (leNat ((List.range 8).map (fun i => Config.certificate (a - 0x01002000 + i))))
  else if a < 0x06014000 then
    let off := a - 0x06010000
    match kvFind (off / 16) s.keep.ledger.flog with
    | some e => (entryWords e).getD (off / 8 % 2) 0
    | none => 0
  else
    let mib := s.rfld aDbgTraceSel 11 0
    let off := a - 0x33100000
    if s.rfld aDbgTracePtr 43 32 ≤ mib then 0
    else (kvGet [] (mib * 32768 + off / 32) s.dbg.trace).getD (off / 8 % 4) 0

end Sys2Proof.Machine
end

