-- ==== Sys2Proof/Machine/RegAccess.lean ====
section
/-! DEFINITION. Reads and writes of the management address space by any path (R9 to R11, R142, R292, R311 to R314, R327 to R329): REGISTER_WRITE, REG_READ, REG_WRITE, IO_AGENT_READ, NUM_LFLAG_CLEAR, TRACE_CLEAR and SCRATCH_APERTURE_ACCESS. -/

namespace Sys2Proof.Machine

/-! ### The scratch aperture (R142) -/

/-- The tile and aperture offset of an address in a scratch aperture. -/
def aperOf (a : Nat) : Option (Nat × Nat) :=
  let t := tileOfAddr a
  let off := a % 0x10000
  if isTileAddr a && decide (t < positions) && tileKind t != 3 && decide (0x4000 ≤ off) && decide (off < 0x8000) then
    some (t, off - 0x4000)
  else none

/-- The scratch offset of an aperture offset, by APER_BASE.SEG. -/
def State.aperAt (s : State) (t off : Nat) : Nat := (s.tile t).aper.toNat * 16384 + off

/-- Whether the aperture's segment takes an access: it exists, is not being cleared, and a write does not reach the program
memory (segments 0 to 3). -/
def State.aperOpen (s : State) (t : Nat) (write : Bool) : Bool :=
  let g := (s.tile t).aper.toNat
  decide (g < kindSegments (tileKind t)) && !(s.tile t).clearing.contains g && !(write && decide (g < 4))

/-- A tag violation of the host's I/O agent against a segment (R137, R313). -/
def State.aperViolate (s : State) (t : Nat) (write : Bool) (a : Nat) : State :=
  (s.bump (aTilewTenantViolCnt t)).hostViolate 4 0 write a

/-- Whether the I/O agent's tag forbids the aperture's segment. -/
def State.aperClash (s : State) (path : Path) (t : Nat) : Bool :=
  path == .host && s.agentTag 0 != 0 && s.agentTag 0 != s.segTag t (s.tile t).aper.toNat

/-- A read through the aperture: data with bad parity comes with an error status, each failing byte counted, and marks no
step (R115). -/
def State.aperRead (s : State) (t off n : Nat) : State :=
  let at' := s.aperAt t off
  let bad := s.scrBad t at' n
  let s := if bad.isEmpty then s else s.bumpBy (aTilewScrParityErrCnt t) bad.length
  s.answer (b2n (!bad.isEmpty)) (s.scr t at' n)

/-- An access of a path through the aperture; no data for a read. -/
def State.aperAccess (s : State) (path : Path) (a t off n : Nat) (data : Option (List Byte)) : State :=
  s.accessOf n (alignedSize off n 8 64 && decide (off + n ≤ 0x4000)) path a data.isSome (fun s =>
    if !s.aperOpen t data.isSome then s.err
    else if s.aperClash path t then s.aperViolate t data.isSome a
    else
      match data with
      | none => s.aperRead t off n
      | some bs => (s.landScratch t (s.aperAt t off) bs).ok)

/-- SCRATCH_APERTURE_ACCESS (R142): a read returns as many bytes as `data` has. -/
def execScratchApertureAccess (path : Path) (tile : TileIx) (write : Bool) (offset : Nat) (data : List Byte) (s : State) :
    Host.Outcome State Fault Refusal :=
  let a := 0x10000000000 + tile.toNat * 0x10000 + 0x4000 + offset
  if aperOf a = some (tile.toNat, offset) then
    .next (s.aperAccess path a tile.toNat offset data.length (if write then some data else none))
  else .next (s.accessOf data.length (alignedSize offset data.length 8 64 && decide (offset + data.length ≤ 0x4000)) path a write
    (fun s => s.answer 0 (if write then [] else List.replicate data.length 0)))

/-! ### Reads -/

/-- Whether an address lies in a window that is only written: an append window or the NVM window. -/
def inWriteWindow (a : Nat) : Bool := (windowOf a).isSome || (decide (0x07001000 ≤ a) && decide (a < 0x07002000))

/-- A read of `n` bytes by a path. The windows of R312 that are only written read zero, and a host read of them is no
permitted access. -/
def State.readAny (s : State) (path : Path) (a n : Nat) : State :=
  match consumeOf a with
  | some (r, off) => s.consumeRead path r off n
  | none =>
    match aperOf a with
    | some (t, off) => s.aperAccess path a t off n none
    | none =>
      s.accessOf n (n == 8 && a % 8 == 0 && !(path == .host && inWriteWindow a)) path a false (fun s =>
        if inReadWindow a then s.answer 0 (natLe 8 (s.windowWord a).toNat)
        else if a = aHkcData then s.hkcRead
        else s.answer 0 (natLe 8 (s.readWord a).toNat))

/-- REG_READ (R327): 8 bytes over the sideband. -/
def execRegRead (addr : Nat) (s : State) : Host.Outcome State Fault Refusal := .next (s.message 0x01 (fun s => s.readAny .sideband addr 8))

/-- IO_AGENT_READ (R312, R313): a read by the host's I/O agent. -/
def execIoAgentRead (addr len : Nat) (s : State) : Host.Outcome State Fault Refusal := .next (s.readAny .host addr len)

/-! ### Writes -/

/-- The outcome of a cryptographic check that a register write starts; a free value. -/
def State.freeVerify (s : State) : Verify :=
  let w := (Config.fresh s.freeCtr).toNat
  { flash := { answers := bit w 0, mib := w / 2 ^ 16, read8d := bit w 5, program8d := bit w 6, erase8d := bit w 7 }, edOk := bit w 2, mlOk := bit w 3, fwOk := bit w 4 }

/-- NVM.CTRL as its block takes it (R348, R358). -/
def State.nvmCmd (s : State) (path : Path) (v : Word) : State :=
  match fld v 1 0 with
  | 1 => if s.mayBegin (fld v 63 32) then s.sessionBegin (path == .sideband) (fld v 63 32) else s.refuse path 2 true aNvmCtrl
  | 2 => if s.inSession then (s.tickFree.sessionEnd s.freeVerify).ok else s.refuse path 2 true aNvmCtrl
  | 3 => if s.inSession then s.sessionClose.ok else s.refuse path 2 true aNvmCtrl
  | _ => s.ok

/-- CHO.DOM_CTRL(d) as its block takes it (R178): a write that sets more than one bit is refused. -/
def State.domCmd (s : State) (path : Path) (d : Nat) (v : Word) : State :=
  match fld v 2 0 with
  | 0 => s.ok
  | 1 => s.ctrlRestart path d
  | 2 => s.ctrlStop path d
  | 4 => s.ctrlUnload path d
  | _ => s.refuse path 2 true (aChoDomCtrl d)

/-- FAB.WIN_CMD as its block takes it (R307). -/
def State.winCmd (s : State) (path : Path) (v : Word) : State :=
  match fld v 1 0 with
  | 1 => s.winOpen path (fld v 3 2) (fld v 15 4)
  | 2 => s.winDrain path (fld v 3 2) (fld v 15 4)
  | _ => s.ok

/-- CFG.FRZ_CMD as its block takes it (R359). -/
def State.frzCmd (s : State) (path : Path) (v : Word) : State :=
  match fld v 1 0 with
  | 1 => s.tenantReset (BitVec.ofNat 8 (fld v 12 5))
  | 2 => s.unfreezeMaster path (fld v 4 2) (fld v 31 16)
  | _ => s.ok

/-- CAL.CMD as its block takes it (R415, R418). -/
def State.calCmd (s : State) (path : Path) (v : Word) : State :=
  if bit v.toNat 0 then s.calBegin path (fld v 63 15) else if bit v.toNat 1 then s.calEnd.ok else s.ok

/-- DBG.TRACE_CTRL as its block takes it (R452). -/
def State.traceCtrl (s : State) (v : Word) : State :=
  let s := s.setReg aDbgTraceCtrl (BitVec.ofNat 64 (fld v 7 0))
  (if bit v.toNat 8 then (s.setRfld aDbgTracePtr 26 0 0).setRfld aDbgTracePtr 28 27 0 else s).ok

/-- The edge group and window of a FAB.WIN descriptor word. -/
def winRegOf (a : Nat) : Option (Nat × Nat) :=
  if 0x13100000 ≤ a ∧ a < 0x13300000 ∧ (a - 0x13100000) % 0x80000 < 0x20000 then
    some ((a - 0x13100000) / 0x80000, (a - 0x13100000) % 0x80000 / 0x20)
  else none

/-- A write whose fields act by their types alone (R11). An LK field that would change once CFG.STATUS.LOCKED reads 1 refuses the whole write
(R11, R346, R359). -/
def State.writeRow (s : State) (path : Path) (a : Nat) (row : RegRow) (v : Word) : State :=
  let old := s.reg64 a
  if s.rbit aCfgStatus 17 && mergeMask row.lk old v != old then (s.bump aCfgLkRejectCnt).refuse path 2 true a
  else
    let live := row.rw ||| row.lk
    let s := if live = 0 then s else s.liveSet a (mergeMask live old v)
    (if row.st = 0 then s else s.stage a v).ok

/-- A register takes 8 bytes (R11, R329): a command register does what its command does. -/
def State.writeReg (s : State) (path : Path) (a : Nat) (v : Word) : State :=
  match rowOf a with
  | none => s.ok
  | some row =>
    if isTileAddr a then s.writeRow path a row v
    else if a = aKeepCmd then (if bit v.toNat 0 then s.recoveryCmd path else s.ok)
    else if a = aSecProvision then
      (if path != .sideband then s.refuse path 2 true a
      else if !bit v.toNat 0 then s.ok
      else s.armWrite)
    else if a = aSecAttestCtrl then (if bit v.toNat 0 then s.attest else s.ok)
    else if a = aPwrCap then s.pwrCapSet path v
    else if a = aThmLoopCmd then s.loopCmdSet path v
    else if a = aCalCmd then s.calCmd path v
    else if a = aLedgCalSet then s.calSetWrite path v
    else if a = aLedgFlogAck then s.flogAck path (fld v 31 0)
    else if a = aNvmCtrl then s.nvmCmd path v
    else if a = aCfgCommit then (if bit v.toNat 16 then s.discardStaged else s.commitWrite path (fld v 15 0))
    else if a = aCfgFrzCmd then s.frzCmd path v
    else if a = aSvcQpCmd then (if bit v.toNat 0 then s.qpReset path (fld v 1 1) (fld v 13 2) else s.ok)
    else if a = aFabWinCmd then s.winCmd path v
    else if aChoDomCtrl 0 ≤ a ∧ a ≤ aChoDomCtrl 1023 then s.domCmd path ((a - aChoDomCtrl 0) / 8) v
    else if row.w1c ≠ 0 then (s.lflagClear ((a - aNumLflag 0) / 0x40) (fld v 5 0)).ok
    else if a = aDbgTraceCtrl then s.traceCtrl v
    else
      match winRegOf a with
      | some (g, w) => if s.winState g w ≠ 0 then s.refuse path 2 true a else s.writeRow path a row v
      | none => s.writeRow path a row v

/-- Whether a write has a size and alignment that its place permits (R312); the windows that are only read permit none to the
host. The NVM window checks its own. -/
def writeFits (path : Path) (a n : Nat) : Bool :=
  if inWriteWindow a then true
  else if inReadWindow a || (consumeOf a).isSome then path != .host
  else n == 8 && a % 8 == 0

/-- A write of a path (R312). -/
def State.writeAny (s : State) (path : Path) (a : Nat) (data : List Byte) : State :=
  if (windowOf a).isSome then s.appendWrite path a data
  else
    match aperOf a with
    | some (t, off) => s.aperAccess path a t off data.length (some data)
    | none =>
      s.accessOf 8 (writeFits path a data.length) path a true (fun s =>
        if inWriteWindow a then s.windowProgram path (a - 0x07001000) data
        else if inReadWindow a || (consumeOf a).isSome then s.ok
        else s.writeReg path a (BitVec.ofNat 64 (leNat data)))

/-- REGISTER_WRITE (R11, R312). -/
def execRegisterWrite (path : Path) (addr : Nat) (data : List Byte) (s : State) : Host.Outcome State Fault Refusal :=
  .next (s.writeAny path addr data)

/-- REG_WRITE (R327): 8 bytes over the sideband. -/
def execRegWrite (addr : Nat) (value : Word) (s : State) : Host.Outcome State Fault Refusal :=
  .next (s.message 0x02 (fun s => s.writeAny .sideband addr (natLe 8 value.toNat)))

/-- NUM_LFLAG_CLEAR (R105). -/
def execNumLflagClear (path : Path) (slot : BitVec 12) (bits : Word) (s : State) : Host.Outcome State Fault Refusal :=
  .next (s.access path (aNumLflag slot.toNat) true (fun s => (s.lflagClear slot.toNat (fld bits 5 0)).ok))

/-- TRACE_CLEAR (R452): a write of DBG.TRACE_CTRL with CLEAR. -/
def execTraceClear (path : Path) (value : Word) (s : State) : Host.Outcome State Fault Refusal :=
  .next (s.access path aDbgTraceCtrl true (fun s => s.traceCtrl (value ||| 0x100)))

end Sys2Proof.Machine
end

