-- ==== Sys2Proof/Machine/Sample.lean ====
section
/-! DEFINITION. The sampling and mask unit (R122, R197, R260 to R265): SAMPLE. -/

namespace Sys2Proof.Machine

/-- The order of numbers: −0 and +0 are equal. -/
def fltNum : Fv → Fv → Bool
  | .fin n m e, .fin n' m' e' => fless (.fin (n && m != 0) m e) (.fin (n' && m' != 0) m' e')
  | a, b => fless a b

/-- gen(seed, ctr) of R261, every step modulo 2^64. -/
def sampleGen (seed : Word) (ctr : Nat) : Word :=
  let x := seed ^^^ (BitVec.ofNat 64 ctr * 0x9E3779B97F4A7C15#64)
  let x := (x ^^^ (x >>> 30)) * 0xBF58476D1CE4E5B9#64
  let x := (x ^^^ (x >>> 27)) * 0x94D049BB133111EB#64
  x ^^^ (x >>> 31)

/-- What select returns (R261). -/
inductive Picked where
  | token (i : Nat)
  | maskEmpty
  | poison
  deriving DecidableEq, Repr

/-- Insert a scaled logit into the list ordered descending, ties by ascending index (the list holds lower indices
only). -/
def rankIn (i : Nat) (z : Fv) : List (Nat × Fv) → List (Nat × Fv)
  | [] => [(i, z)]
  | (j, y) :: r => if fltNum y z then (i, z) :: (j, y) :: r else (j, y) :: rankIn i z r

/-- The first k members in that order. -/
def topRanked (k : Nat) (zs : List (Nat × Fv)) : List (Nat × Fv) :=
  zs.foldl (fun l e => (rankIn e.1 e.2 l).take k) []

/-- The smallest index with the largest logit. -/
def argMax : List (Nat × Fv) → Option (Nat × Fv)
  | [] => none
  | e :: r =>
    match argMax r with
    | none => some e
    | some b => if fltNum e.2 b.2 then some b else some e

/-- Running sums in FP32. -/
def running : Fv → List Fv → List Fv
  | _, [] => []
  | acc, v :: r => let a := fround fp32 (fadd acc v); a :: running a r

/-- The choice among the ranked candidates (R261). `free` decides when no running sum is a number, a case for
which the rule gives no token (notes/assumptions/19.md). -/
def pickRanked (cs : List (Nat × Fv)) (p : Fv) (x : Word) (free : Nat) : Nat :=
  let z0 := (cs.headD (0, .nan)).2
  let ws := cs.map (fun c => fround fp32 (fexp2 (fround fp32 (fmul (fround fp32 (fadd c.2 (fopp z0)))
    (fdec fp32 0x3FB8AA3B)))))
  let sums := running (.fin false 0 0) ws
  let total := sums.getLastD .nan
  let goal := fround fp32 (fmul p total)
  match sums.findIdx? (fun v => !isNan v && !isNan goal && !fltNum v goal) with
  | none => (cs.getD (free % cs.length) (0, .nan)).1
  | some m =>
    let bound := fround fp32 (fmul (.fin false (x >>> 40).toNat (-24)) (sums.getD m .nan))
    match (sums.take (m + 1)).findIdx? (fun v => fltNum bound v) with
    | some j => (cs.getD j (0, .nan)).1
    | none => (cs.getD m (0, .nan)).1

/-- select of R261 over the allowed logits, `as` being the members of A in ascending index. -/
def sampleSelect (as_ : List (Nat × Fv)) (temp p : Fv) (k : Nat) (x : Word) (free : Nat) : Picked :=
  if isNan temp || fltNum temp (.fin false 0 0) || temp == .inf false then .poison
  else if k < 1 ∨ 256 < k then .poison
  else if isNan p || !fltNum (.fin false 0 0) p || fltNum (.fin false 1 0) p then .poison
  else if as_.any (fun e => isNan e.2 || e.2 == .inf false) then .poison
  else if as_.isEmpty then .maskEmpty
  else if !fltNum (.fin false 0 0) temp then
    match argMax as_ with
    | some e => .token e.1
    | none => .maskEmpty
  else
    let r := fround fp32 (frcp temp)
    let zs := as_.map (fun e => (e.1, fround fp32 (fmul e.2 r)))
    if zs.any (fun e => isNan e.2 || e.2 == .inf false) then .poison
    else .token (pickRanked (topRanked k zs) p x free)

/-- Bit t of a bitmap (R260). -/
def maskBit (bs : List Byte) (t : Nat) : Bool := (bs.getD (t / 8) 0).getLsbD (t % 8)

/-- A grammar state as the unit fetches it (R263, R265): what it allows, its transitions, and whether an index is
beyond its count; with the stack ranges read. -/
structure GramView where
  bad    : Bool := false
  all    : Bool := true
  mask   : Nat := 0
  dflt   : Nat := 0
  trans  : Nat := 0
  ntrans : Nat := 0
  beyond   : Bool := false
  reads  : List (Nat × Nat) := []
  deriving DecidableEq, Repr

/-- The grammar object at a page, in state `st`. The number of transitions is what the object's length holds
after the transition table's start. DEDUCED (notes/assumptions/19.md). -/
def State.gramView (s : State) (page st : Nat) : GramView :=
  let base := page * 65536
  let h := s.stkWords base 6
  let nstate := recFld h 1 20 0
  let nmask := recFld h 1 37 21
  let e := base + (wordAt h 2).toNat + 16 * st
  let maskAt := base + (wordAt h 3).toNat
  let transAt := base + (wordAt h 4).toNat
  let count := ((wordAt h 5).toNat - (wordAt h 4).toNat) / 8
  if nstate ≤ st then { bad := true, reads := [(base, 64)] }
  else
    let es := s.stkWords e 2
    let all := bit (wordAt es 0).toNat 20
    let m := recFld es 0 36 21
    let first := recFld es 1 31 0
    let nt := recFld es 1 50 32
    { bad := !all && decide (nmask ≤ m)
      all := all
      mask := maskAt + 32768 * m
      dflt := recFld es 0 19 0
      trans := transAt + 8 * first
      ntrans := nt
      beyond := decide (count < first + nt)
      reads := [(base, 64), (e, 16)] ++ (if all || decide (nmask ≤ m) then [] else [(maskAt + 32768 * m, 32768)]) }

/-- The next grammar state after a token (R263). -/
def State.gramNext (s : State) (g : GramView) (token : Nat) : Nat :=
  match (List.range g.ntrans).find? (fun i => leNat (s.stk (g.trans + 8 * i) 8) % 2 ^ 18 == token) with
  | some i => bits (leNat (s.stk (g.trans + 8 * i) 8)) 39 20
  | none => g.dflt

/-- The result record (R260). -/
def resultBytes (token status next logit : Nat) : List Byte :=
  natLe 8 (pack [(0, token), (18, status), (20, next)]) ++ natLe 8 logit

/-- Stack reads of a tile unit outside a MOVE: pages are touched, and poisoned words mark the step (R139, R210). -/
def State.unitReads (s : State) (t : Nat) : List (Nat × Nat) → State
  | [] => s
  | (a, n) :: r =>
    let s := s.pagesTouch false a n
    let s := if s.mem.stackBad.any (fun k => decide (a < k * 32 + 32) && decide (k * 32 < a + n)) then s.markTile t else s
    s.unitReads t r

/-- The first range that the tile's tenant may not read. -/
def State.unitClash (s : State) (t : Nat) (rs : List (Nat × Nat)) : Option Nat :=
  (rs.find? (fun r => !s.stackAllows (s.tile t).tenant.toNat r.1 r.2)).map Prod.fst

/-- SAMPLE (R197, R260, R261): one token from V logits, with no mask, a bitmap, or a grammar state. -/
def execSample (w : At) (o : SampleOps) (s : State) : Host.Outcome State Fault Refusal :=
  let t := w.tile.toNat
  .next (s.onTile w [1] (fun s =>
    if o.mmode = 3 then s
    else
      let v := o.v.toNat + 1
      let size := if o.lfmt then 4 else 2
      let lp := s.ptr16 t o.logP
      let mp := s.ptr16 t o.maskP
      let pp := s.ptr16 t o.parP
      let rp := s.ptr16 t o.resP
      let maskReads := if o.mmode = 1 then [rdAcc mp ((v + 7) / 8)] else if o.mmode = 2 then [rdAcc mp 8] else []
      s.guarded t ([rdAcc lp (v * size)] ++ maskReads ++ [rdAcc pp 24, wrAcc rp 16]) (fun s =>
        let par := wordsOf (s.scr t pp 24)
        let gram := BitVec.ofNat 64 (leNat (s.scr t mp 8))
        let useG := o.mmode == 2 && bit gram.toNat 63
        let g : GramView := if useG then s.gramView (fld gram 45 20) (fld gram 19 0) else {}
        match s.unitClash t (g.reads ++ (if useG && g.ntrans != 0 then [(g.trans, 8 * g.ntrans)] else [])) with
        | some a => s.violate t 4 a none
        | none =>
          let s := s.unitReads t g.reads
          let logits := (patterns size (s.scr t lp (v * size))).map (fdec (if o.lfmt then fp32 else bf16))
          let bm := if o.mmode = 1 then s.scr t mp ((v + 7) / 8)
            else if useG && !g.all && !g.bad then s.stk g.mask 32768 else []
          let allowed (i : Nat) : Bool := if o.mmode = 1 || (useG && !g.all) then maskBit bm i else true
          let as_ := (logits.zipIdx.map (fun e => (e.2, e.1))).filter (fun e => allowed e.1 && e.2 != .inf true)
          let x := sampleGen (wordAt par 1) (recFld par 2 31 0)
          let got := if g.bad then .poison
            else sampleSelect as_ (fdec fp32 (recFld par 0 31 0)) (fdec fp32 (recFld par 0 63 32)) (recFld par 2 40 32) x
              (Config.fresh s.freeCtr).toNat
          let got := match got with
            | .token i => if useG && g.beyond then Picked.poison else Picked.token i
            | r => r
          let s := s.tickFree
          let stay := if o.mmode = 2 then fld gram 19 0 else 0
          let s := match got with
            | .token _ => if useG && g.ntrans != 0 then s.unitReads t [(g.trans, 8 * g.ntrans)] else s
            | _ => s
          s.vecDone w (aVecwSampleCnt t) 1 (fun s =>
            match got with
            | .token i =>
              let next := if useG then s.gramNext g i else stay
              s.scrWrite t rp (resultBytes i 0 next (fenc fp32 (logits.getD i (.fin false 0 0))))
            | .maskEmpty => s.scrWrite t rp (resultBytes 0 1 stay 0)
            | .poison => (s.scrWrite t rp (resultBytes 0 2 stay 0)).numEvent t o.lslot 5 1))))

end Sys2Proof.Machine
end

