-- ==== Sys2Proof/Machine/Scalar.lean ====
section
/-! DEFINITION. The scalar pair (R125, R198): integer arithmetic, scratch loads and stores, branches, and the pointer registers. -/

namespace Sys2Proof.Machine

/-- An immediate, sign-extended to 64 bits (R198). -/
def immOf (imm : Half) : Word := imm.signExtend 64

/-- Write general register DST with a value formed from the sequencer, on a scalar tile. -/
def State.sclSet (s : State) (w : At) (dst : BitVec 5) (f : Seq → Word) : State :=
  s.onTile w [2] (fun s => (s.modSeq w.tile.toNat (fun q => seqSetGp q dst (f q))).retire w.tile.toNat)

/-- The scratch offset SRC1 + IMM, aligned down to the access size. -/
def sclAddr (q : Seq) (src1 : BitVec 5) (imm : Half) (size : Nat) : Nat :=
  (seqGp q src1 + immOf imm).toNat / size * size

/-- A load of `size` bytes, zero-extended. -/
def State.sclLoad (s : State) (w : At) (dst src1 : BitVec 5) (imm : Half) (size : Nat) : State :=
  let t := w.tile.toNat
  s.onTile w [2] (fun s =>
    let a := sclAddr (s.tile t).seq src1 imm size
    s.guarded t [rdAcc a size] (fun s =>
      (s.modSeq t (fun q => seqSetGp q dst (BitVec.ofNat 64 (leNat (s.scr t a size))))).retire t))

/-- A store of the low `size` bytes of SRC2. -/
def State.sclStore (s : State) (w : At) (src1 src2 : BitVec 5) (imm : Half) (size : Nat) : State :=
  let t := w.tile.toNat
  s.onTile w [2] (fun s =>
    let q := (s.tile t).seq
    let a := sclAddr q src1 imm size
    s.guarded t [wrAcc a size] (fun s => (s.scrWrite t a (natLe size (seqGp q src2).toNat)).retire t))

/-- A branch: continue at instruction index IMM when the condition holds. -/
def State.sclBranch (s : State) (w : At) (imm : Half) (cond : Seq → Bool) : State :=
  let t := w.tile.toNat
  s.onTile w [2] (fun s =>
    if cond (s.tile t).seq then (s.modSeq t (seqJump (imm.toNat % 8192))).retireCount t else s.retire t)

/-- SCL.ADD (R198): DST = SRC1 + SRC2. -/
def execSclAdd (w : At) (dst src1 src2 : BitVec 5) (s : State) : Host.Outcome State Fault Refusal :=
  .next (s.sclSet w dst (fun q => seqGp q src1 + seqGp q src2))

/-- SCL.SUB (R198): DST = SRC1 − SRC2. -/
def execSclSub (w : At) (dst src1 src2 : BitVec 5) (s : State) : Host.Outcome State Fault Refusal :=
  .next (s.sclSet w dst (fun q => seqGp q src1 - seqGp q src2))

/-- SCL.AND (R198): DST = SRC1 and SRC2. -/
def execSclAnd (w : At) (dst src1 src2 : BitVec 5) (s : State) : Host.Outcome State Fault Refusal :=
  .next (s.sclSet w dst (fun q => seqGp q src1 &&& seqGp q src2))

/-- SCL.OR (R198): DST = SRC1 or SRC2. -/
def execSclOr (w : At) (dst src1 src2 : BitVec 5) (s : State) : Host.Outcome State Fault Refusal :=
  .next (s.sclSet w dst (fun q => seqGp q src1 ||| seqGp q src2))

/-- SCL.XOR (R198): DST = SRC1 xor SRC2. -/
def execSclXor (w : At) (dst src1 src2 : BitVec 5) (s : State) : Host.Outcome State Fault Refusal :=
  .next (s.sclSet w dst (fun q => seqGp q src1 ^^^ seqGp q src2))

/-- SCL.SLL (R198): DST = SRC1 shifted left by SRC2[5:0]. -/
def execSclSll (w : At) (dst src1 src2 : BitVec 5) (s : State) : Host.Outcome State Fault Refusal :=
  .next (s.sclSet w dst (fun q => seqGp q src1 <<< ((seqGp q src2).toNat % 64)))

/-- SCL.SRL (R198): DST = SRC1 shifted right by SRC2[5:0]. -/
def execSclSrl (w : At) (dst src1 src2 : BitVec 5) (s : State) : Host.Outcome State Fault Refusal :=
  .next (s.sclSet w dst (fun q => seqGp q src1 >>> ((seqGp q src2).toNat % 64)))

/-- SCL.SRA (R198): DST = SRC1 shifted right by SRC2[5:0], the sign filling. -/
def execSclSra (w : At) (dst src1 src2 : BitVec 5) (s : State) : Host.Outcome State Fault Refusal :=
  .next (s.sclSet w dst (fun q => (seqGp q src1).sshiftRight ((seqGp q src2).toNat % 64)))

/-- SCL.SLT (R198): DST = 1 if SRC1 is below SRC2 as signed numbers, else 0. -/
def execSclSlt (w : At) (dst src1 src2 : BitVec 5) (s : State) : Host.Outcome State Fault Refusal :=
  .next (s.sclSet w dst (fun q => BitVec.ofNat 64 (b2n ((seqGp q src1).slt (seqGp q src2)))))

/-- SCL.SLTU (R198): DST = 1 if SRC1 is below SRC2 as unsigned numbers, else 0. -/
def execSclSltu (w : At) (dst src1 src2 : BitVec 5) (s : State) : Host.Outcome State Fault Refusal :=
  .next (s.sclSet w dst (fun q => BitVec.ofNat 64 (b2n ((seqGp q src1).ult (seqGp q src2)))))

/-- SCL.MUL (R198): low product. -/
def execSclMul (w : At) (dst src1 src2 : BitVec 5) (s : State) : Host.Outcome State Fault Refusal :=
  .next (s.sclSet w dst (fun q => seqGp q src1 * seqGp q src2))

/-- SCL.MULHU (R198): high unsigned product. -/
def execSclMulhu (w : At) (dst src1 src2 : BitVec 5) (s : State) : Host.Outcome State Fault Refusal :=
  .next (s.sclSet w dst (fun q => BitVec.ofNat 64 ((seqGp q src1).toNat * (seqGp q src2).toNat / 2 ^ 64)))

/-- SCL.DIVU (R198): unsigned quotient; division by zero yields all ones. -/
def execSclDivu (w : At) (dst src1 src2 : BitVec 5) (s : State) : Host.Outcome State Fault Refusal :=
  .next (s.sclSet w dst (fun q => if seqGp q src2 = 0 then BitVec.allOnes 64 else seqGp q src1 / seqGp q src2))

/-- SCL.REMU (R198): unsigned remainder; division by zero yields SRC1. -/
def execSclRemu (w : At) (dst src1 src2 : BitVec 5) (s : State) : Host.Outcome State Fault Refusal :=
  .next (s.sclSet w dst (fun q => if seqGp q src2 = 0 then seqGp q src1 else seqGp q src1 % seqGp q src2))

/-- SCL.ADDI (R198): DST = SRC1 + IMM. -/
def execSclAddi (w : At) (dst src1 : BitVec 5) (imm : Half) (s : State) : Host.Outcome State Fault Refusal :=
  .next (s.sclSet w dst (fun q => seqGp q src1 + immOf imm))

/-- SCL.ANDI (R198): DST = SRC1 and IMM. -/
def execSclAndi (w : At) (dst src1 : BitVec 5) (imm : Half) (s : State) : Host.Outcome State Fault Refusal :=
  .next (s.sclSet w dst (fun q => seqGp q src1 &&& immOf imm))

/-- SCL.ORI (R198): DST = SRC1 or IMM. -/
def execSclOri (w : At) (dst src1 : BitVec 5) (imm : Half) (s : State) : Host.Outcome State Fault Refusal :=
  .next (s.sclSet w dst (fun q => seqGp q src1 ||| immOf imm))

/-- SCL.LI (R198): DST = IMM. -/
def execSclLi (w : At) (dst : BitVec 5) (imm : Half) (s : State) : Host.Outcome State Fault Refusal :=
  .next (s.sclSet w dst (fun _ => immOf imm))

/-- SCL.LIH (R198): DST[63:32] = IMM; DST[31:0] unchanged. -/
def execSclLih (w : At) (dst : BitVec 5) (imm : Half) (s : State) : Host.Outcome State Fault Refusal :=
  .next (s.sclSet w dst (fun q => imm ++ (seqGp q dst).setWidth 32))

/-- SCL.LD (R198): load 8 bytes from scratch, zero-extended. -/
def execSclLd (w : At) (dst src1 : BitVec 5) (imm : Half) (s : State) : Host.Outcome State Fault Refusal :=
  .next (s.sclLoad w dst src1 imm 8)

/-- SCL.LW (R198): load 4 bytes from scratch, zero-extended. -/
def execSclLw (w : At) (dst src1 : BitVec 5) (imm : Half) (s : State) : Host.Outcome State Fault Refusal :=
  .next (s.sclLoad w dst src1 imm 4)

/-- SCL.LB (R198): load 1 byte from scratch, zero-extended. -/
def execSclLb (w : At) (dst src1 : BitVec 5) (imm : Half) (s : State) : Host.Outcome State Fault Refusal :=
  .next (s.sclLoad w dst src1 imm 1)

/-- SCL.SD (R198): store the low 8 bytes of SRC2 to scratch. -/
def execSclSd (w : At) (src1 src2 : BitVec 5) (imm : Half) (s : State) : Host.Outcome State Fault Refusal :=
  .next (s.sclStore w src1 src2 imm 8)

/-- SCL.SW (R198): store the low 4 bytes of SRC2 to scratch. -/
def execSclSw (w : At) (src1 src2 : BitVec 5) (imm : Half) (s : State) : Host.Outcome State Fault Refusal :=
  .next (s.sclStore w src1 src2 imm 4)

/-- SCL.SB (R198): store the low 1 byte of SRC2 to scratch. -/
def execSclSb (w : At) (src1 src2 : BitVec 5) (imm : Half) (s : State) : Host.Outcome State Fault Refusal :=
  .next (s.sclStore w src1 src2 imm 1)

/-- SCL.BEQ (R198): continue at instruction IMM if the sources are equal. -/
def execSclBeq (w : At) (src1 src2 : BitVec 5) (imm : Half) (s : State) : Host.Outcome State Fault Refusal :=
  .next (s.sclBranch w imm (fun q => seqGp q src1 == seqGp q src2))

/-- SCL.BNE (R198): continue at instruction IMM if the sources differ. -/
def execSclBne (w : At) (src1 src2 : BitVec 5) (imm : Half) (s : State) : Host.Outcome State Fault Refusal :=
  .next (s.sclBranch w imm (fun q => seqGp q src1 != seqGp q src2))

/-- SCL.BLT (R198): continue at instruction IMM if the sources are in signed order, SRC1 below SRC2. -/
def execSclBlt (w : At) (src1 src2 : BitVec 5) (imm : Half) (s : State) : Host.Outcome State Fault Refusal :=
  .next (s.sclBranch w imm (fun q => (seqGp q src1).slt (seqGp q src2)))

/-- SCL.BGE (R198): continue at instruction IMM if the sources have SRC1 not below SRC2, signed. -/
def execSclBge (w : At) (src1 src2 : BitVec 5) (imm : Half) (s : State) : Host.Outcome State Fault Refusal :=
  .next (s.sclBranch w imm (fun q => !(seqGp q src1).slt (seqGp q src2)))

/-- SCL.BLTU (R198): continue at instruction IMM if the sources are in unsigned order, SRC1 below SRC2. -/
def execSclBltu (w : At) (src1 src2 : BitVec 5) (imm : Half) (s : State) : Host.Outcome State Fault Refusal :=
  .next (s.sclBranch w imm (fun q => (seqGp q src1).ult (seqGp q src2)))

/-- SCL.JMP (R198): continue at instruction IMM. -/
def execSclJmp (w : At) (imm : Half) (s : State) : Host.Outcome State Fault Refusal :=
  .next (s.sclBranch w imm (fun _ => true))

/-- SCL.TOP (R198): P(DST mod 16).ADDR = SRC1[21:0] and .STRIDE = SRC2[21:0]. -/
def execSclTop (w : At) (dst src1 src2 : BitVec 5) (s : State) : Host.Outcome State Fault Refusal :=
  let t := w.tile.toNat
  .next (s.onTile w [2] (fun s =>
    (s.modSeq t (fun q => seqSetPtr q (dst.setWidth 4)
      { addr := (seqGp q src1).setWidth 22, stride := (seqGp q src2).setWidth 22 })).retire t))

/-- SCL.FROMP (R198): DST = P(SRC1 mod 16).ADDR, zero-extended. -/
def execSclFromp (w : At) (dst src1 : BitVec 5) (s : State) : Host.Outcome State Fault Refusal :=
  .next (s.sclSet w dst (fun q => (seqPtr q (src1.setWidth 4)).addr.setWidth 64))

end Sys2Proof.Machine
end

