-- ==== Sys2Proof/Machine/Serving.lean ====
section
/-! DEFINITION. Serving (R245 to R259, R267, R273): taking requests, admission and KV pages, prefix handles: NEW, CONT, CANCEL, RELEASE, TUNE, ADMISSION, ADMIT_TIMEOUT and HANDLE_LAPSE. -/

namespace Sys2Proof.Machine

/-- Whether a control cluster's firmware runs: its domain is powered (R39, R244). -/
def State.homeOn (s : State) (c : Nat) : Bool :=
  s.domainOn (50 + c) && (List.range 4).any (fun i => s.rfld (aRepClusterState c) (2 * i + 1) (2 * i) == 0)

/-- The home cluster of a request ring. -/
def State.ringHome (s : State) (q : Nat) : Nat := s.rfld (aSrvRqBind q) 2 0

/-! ### Responses (R269) -/

/-- A response entry. What R269 gives no meaning in an entry of its kind (TOKIDX, AUX, STATUS, token places beyond NTOK) is
a free value. -/
def State.respEntry (s : State) (kind : Nat) (mark : Bool) (status : Option Nat) (i gen : Nat) (reqId : Word)
    (idx aux : Option Nat) (toks : List Nat) : List Byte :=
  let f := Config.fresh s.freeCtr
  natLe 8 (pack [(0, kind), (4, b2n mark), (8, status.getD (fld (Config.fresh (s.freeCtr + 1)) 7 0)), (16, toks.length),
      (20, i), (32, gen)]) ++
    natLe 8 reqId.toNat ++ natLe 4 (idx.getD (fld f 31 0)) ++ natLe 4 (aux.getD (fld f 63 32)) ++ List.replicate 8 0 ++
    (List.range 8).flatMap (fun k => natLe 4 ((toks[k]?).getD (fld (Config.fresh (s.freeCtr + 2 + k)) 17 0)))

/-- Advance the value counter past an entry's free values. -/
def State.tickEntry (s : State) : State := { s with freeCtr := s.freeCtr + 10 }

/-- An entry that the firmware writes once a slot of the ring is free (R270): until then it waits, whatever the policy. -/
def State.firmEmit (s : State) (r : Nat) (bs : List Byte) : State :=
  let bs := bs ++ List.replicate (s.ringEsz r - bs.length) 0
  if s.ringCount r = 0 || !s.ringEnabled r then s.bump (aRingDrop r)
  else if s.ringFull r || !(s.ring r).outbox.isEmpty then s.setRing r { s.ring r with outbox := (s.ring r).outbox ++ [bs] }
  else s.ringPut r bs

/-- Whether a response ring's tenant is 0 or the request's (R248). -/
def State.respAllowed (s : State) (ring tenant : Nat) : Bool :=
  s.ringTenant (256 + ring) == 0 || s.ringTenant (256 + ring) == tenant

/-- A refusal (R248, R273): one FINAL to the response ring, or nothing where that ring fails the tenant check; counted. -/
def State.requestRefuse (s : State) (ring tenant i : Nat) (reqId : Word) (status : Nat) : State :=
  let s := s.bump aSrvRefuseCnt
  let s := if status = 0x0F then s.bump aSrvPrefixStaleCnt else s
  if s.respAllowed ring tenant then
    s.tickEntry.firmEmit (256 + ring)
      (s.respEntry 1 false (some status) i (s.inst i).gen.toNat reqId none (some 0) [])
  else s

/-! ### KV pages (R249) -/

/-- The first run of `k` pages from `cur` up to `last` that a list of used pages leaves free. -/
def gapFit (k last : Nat) : Nat → List Nat → Option Nat
  | cur, [] => if cur + k ≤ last then some cur else none
  | cur, u :: r =>
    if u < cur then gapFit k last cur r
    else if cur + k ≤ u then (if cur + k ≤ last then some cur else none)
    else gapFit k last (u + 1) r

/-- The lowest free run of `k` stack pages in a KV region of tenant 0. DESIGN CHOICE (notes/assumptions/26.md). -/
def State.kvTake (s : State) (k : Nat) : Option Nat :=
  ((List.range 64).filter (fun r => s.regionKind r == 2 && s.regionTenant r == 0)).findSome? (fun r =>
    gapFit k (s.regionFirst r + s.regionPages r) (s.regionFirst r) s.srv.kvUsed)

/-- Reserve a run of pages: they are retagged from tenant 0 to the sequence's tenant. -/
def State.kvReserve (s : State) (tag p k : Nat) : State :=
  (List.range k).foldl (fun s i => ({ s with srv.kvUsed := natAdd (p + i) s.srv.kvUsed } : State).retag (p + i) tag) s

/-- Reserve `n` KV pages of `k` stack pages each, all or none. -/
def State.kvTakeAll (s : State) (tag k : Nat) : Nat → Option (State × List Nat)
  | 0 => some (s, [])
  | n + 1 =>
    match s.kvTake k with
    | none => none
    | some p =>
      match (s.kvReserve tag p k).kvTakeAll tag k n with
      | none => none
      | some (s, l) => some (s, p :: l)

/-- The KV pages a sequence needs beyond its prefix (R249, R267). -/
def State.kvNeed (s : State) (q : SeqRec) : Nat :=
  (q.prefixTok + q.promptLen + min q.maxTokens.toNat (s.ifaceCtx q.inst.toNat) + 15) / 16 - q.prefixTok / 16

/-- Reserve the pages and the page list of a waiting request; none when too few are free. -/
def State.kvGive (s : State) (n : Nat) : Option State :=
  let q := s.seqRec n
  let i := q.inst.toNat
  let shared := match q.handle with
    | some h => (s.handle h.toNat).pages
    | none => []
  match s.kvTakeAll q.tenant.toNat (s.ifaceKvp i) (s.kvNeed q) with
  | none => none
  | some (s, l) =>
    let m := listPages (q.prefixTok / 16 + l.length)
    match s.kvTake m with
    | none => none
    | some p =>
      let s := (s.kvReserve q.tenant.toNat p m).stkWrite (p * 65536) ((shared ++ l).flatMap (fun k => natLe 4 k))
      some (s.setSeq n { q with pages := l, listPage := p })

/-! ### Taking a request (R246 to R248) -/

/-- The tenant of a request: its own in a ring of tenant 0, else the ring's. -/
def State.reqTenant (s : State) (q : Nat) (w : List Word) : Nat :=
  if s.ringTenant q = 0 then recFld w 0 15 8 else s.ringTenant q

/-- The 4-byte tokens of an entry from a byte offset. -/
def entryToks (bs : List Byte) (off n : Nat) : List Nat := (List.range n).map (fun k => leNat ((bs.drop (off + 4 * k)).take 4))

/-- The first status whose check fails. -/
def firstFail : List (Bool × Nat) → Option Nat
  | [] => none
  | (bad, st) :: r => if bad then some st else firstFail r

/-- Whether every stage of an instance is running. -/
def State.stagesRun (s : State) (i : Nat) : Bool := (s.instDoms i).all (fun d => (s.dom d).state == 2 || (s.dom d).state == 3)

/-- Whether an instance takes requests (R248 check 3, R252). -/
def State.instServes (s : State) (i : Nat) : Bool :=
  let st := (s.inst i).state.toNat
  s.ifaceOn i && decide (2 ≤ st) && decide (st ≤ 6) && (decide (4 ≤ st) || s.stagesRun i)

/-- Whether check 2 of R248 fails: request ring, instance, response ring. -/
def State.tenantBad (s : State) (q : Nat) (w : List Word) : Bool :=
  let t := s.reqTenant q w
  let own := (s.inst (recFld w 0 25 16)).tenant.toNat
  (s.ringTenant q != 0 && recFld w 0 15 8 != s.ringTenant q) || !(own == 0 || own == t) || !s.respAllowed (recFld w 0 33 26) t

/-- Whether no sequence record is free or the home cluster's waiting list is full (R248 check 9). -/
def State.seqFull (s : State) (i : Nat) : Bool :=
  decide (65536 ≤ firstGap 0 (s.srv.seqs.map Prod.fst)) || decide (4096 ≤ (kvGet [] (s.ifaceHome i) s.srv.waits).length)

/-- FP32 bits of a finite number that is zero or positive. -/
def tempOk (b : Nat) : Bool := decide (b < 0x7F800000) || b == 0x80000000

/-- The prefix handle of a NEW as check 7 finds it: 0x10 invalid, 0x0F stale. -/
def State.prefixFail (s : State) (t : Nat) (w : List Word) : Option Nat :=
  let v := recFld w 2 31 0
  let x := s.handle (v % 2 ^ 20)
  let i := recFld w 0 25 16
  if x.state = 0 ∨ !x.client ∨ x.check.toNat ≠ v / 2 ^ 20 ∨ x.tenant.toNat ≠ t ∨ x.inst.toNat ≠ i then some 0x10
  else if x.state = 2 ∨ x.gen ≠ (s.inst i).gen then some 0x0F
  else none

/-- Whether the layout of a NEW entry is malformed (R246). DEDUCED (notes/assumptions/32.md). -/
def newBad (esz : Nat) (bs : List Byte) : Bool :=
  let w := wordsOf bs
  let n := recFld w 6 47 32
  recFld w 0 3 0 != 0 || recFld w 0 63 46 != 0 || recFld w 5 63 36 != 0 || recFld w 6 63 48 != 0 || recFld w 6 31 0 == 0 ||
    decide ((esz - 64) / 4 < n) || (entryToks bs 64 n).any (fun t => decide (2 ^ 18 ≤ t)) ||
    (bit (wordAt w 0).toNat 4 && n != recFld w 6 31 0)

/-- The first check of R248 that a NEW entry fails. -/
def State.newFail (s : State) (q : Nat) (bs : List Byte) : Option Nat :=
  let w := wordsOf bs
  let t := s.reqTenant q w
  let i := recFld w 0 25 16
  let g := s.gramRec (recFld w 5 15 10)
  let a := s.adapterRec (recFld w 0 45 34)
  let useG := bit (wordAt w 5).toNat 9
  let useA := bit (wordAt w 0).toNat 7
  let useP := bit (wordAt w 0).toNat 6
  let head := if useP then (s.handle (recFld w 2 19 0)).tokens else 0
  let max := recFld w 2 63 32
  match firstFail [(newBad (s.ringEsz q) bs, 0x0C), (s.tenantBad q w, 0x0B), (!s.instServes i, 0x0A),
    (!tempOk (recFld w 3 31 0) || recFld w 3 63 32 == 0 || decide (0x3F800000 < recFld w 3 63 32) || recFld w 5 8 0 == 0 ||
      decide (256 < recFld w 5 8 0) || max == 0, 0x0D),
    (useG && !(g.present && (g.tenant == 0 || g.tenant.toNat == t) && decide (recFld w 5 35 16 < g.nstate)), 0x14),
    (useA && !(a.present && decide (1 ≤ a.rank.toNat) && decide (a.rank.toNat ≤ 64)), 0x11),
    (useA && !(a.tenant == 0 || a.tenant.toNat == t), 0x12), (useA && a.tuning, 0x13)] with
  | some st => some st
  | none =>
    match if useP then s.prefixFail t w else none with
    | some st => some st
    | none => firstFail [
        (max != 0xFFFFFFFF && decide (s.ifaceCtx i < head + recFld w 6 31 0 + max), 0x0E), (s.seqFull i, 0x16)]

/-- Whether a waiting request lacks only pages or time: its instance serves and its grammar is not waiting for a job (R250,
R264). -/
def State.seqReady (s : State) (q : SeqRec) : Bool :=
  let i := q.inst.toNat
  q.complete && ((s.inst i).state == 2 || (s.inst i).state == 3) && s.stagesRun i &&
    !(q.grammarEn && s.gramWaits q.grammar.toNat)

/-- Put a request on its home cluster's waiting list; one that cannot be admitted at once is counted (R250). -/
def State.seqWait (s : State) (n : Nat) (q : SeqRec) : State :=
  let i := q.inst.toNat
  let c := s.ifaceHome i
  let l := kvGet [] c s.srv.waits
  let now := s.seqReady q && !l.any (fun m => (s.seqRec m).inst == q.inst) && ((s.setSeq n q).kvGive n).isSome
  let s : State := { s with srv.waits := kvSet c (l ++ [n]) s.srv.waits }
  let s := s.setSeq n q
  if now then s else s.bump aSrvAdmitWaitCnt

/-- The sequence record of a NEW entry. -/
def State.newSeq (s : State) (q : Nat) (bs : List Byte) : SeqRec :=
  let w := wordsOf bs
  let useP := bit (wordAt w 0).toNat 6
  let h := recFld w 2 19 0
  let head := if useP then (s.handle h).tokens else 0
  { state := 1, inst := BitVec.ofNat 10 (recFld w 0 25 16), tenant := BitVec.ofNat 8 (s.reqTenant q w)
    respRing := BitVec.ofNat 8 (recFld w 0 33 26), reqRing := BitVec.ofNat 8 q, reqId := wordAt w 1
    tokIdx := head + recFld w 6 31 0, adapter := BitVec.ofNat 12 (recFld w 0 45 34), adapterEn := bit (wordAt w 0).toNat 7
    gstate := BitVec.ofNat 20 (recFld w 5 35 16), grammar := BitVec.ofNat 6 (recFld w 5 15 10)
    grammarEn := bit (wordAt w 5).toNat 9, handle := if useP then some (BitVec.ofNat 20 h) else none
    keep := bit (wordAt w 0).toNat 5, maxTokens := BitVec.ofNat 32 (recFld w 2 63 32), temp := BitVec.ofNat 32 (recFld w 3 31 0)
    topP := BitVec.ofNat 32 (recFld w 3 63 32), topK := BitVec.ofNat 9 (recFld w 5 8 0), seed := wordAt w 4
    stop0 := BitVec.ofNat 32 (recFld w 7 31 0), stop1 := BitVec.ofNat 32 (recFld w 7 63 32), promptLen := recFld w 6 31 0
    prompt := (entryToks bs 64 (recFld w 6 47 32)).map (BitVec.ofNat 18), complete := bit (wordAt w 0).toNat 4
    prefixTok := head, since := s.clock }

/-- An accepted request shares its handle's pages and names its adapter (R257, R258, R266). -/
def State.seqAccept (s : State) (q : SeqRec) : State :=
  let s := match q.handle with
    | some h =>
      let x := s.handle h.toNat
      (s.setHandle h.toNat { x with refs := x.refs + 1, used := s.clock }).bump aSrvPrefixHitCnt
    | none => s
  let s := if q.adapterEn || q.tune then
      let a := s.adapterRec q.adapter.toNat
      s.setAdapter q.adapter.toNat { a with users := a.users + 1, tuning := a.tuning || q.tune }
    else s
  s.seqWait (firstGap 0 (s.srv.seqs.map Prod.fst)) q

/-- Take the head entry of a request ring if its KIND is served: the firmware of its home cluster runs and passes it on. -/
def State.takeRequest (s : State) (q : Nat) (serves : Nat → Bool) : Option (State × List Byte) :=
  let bs := s.ringHead q
  if s.ringHolds q = 0 ∨ !s.homeOn (s.ringHome q) ∨ !serves (recFld (wordsOf bs) 0 3 0) then none
  else some ((s.headTouch q).ringPop q, bs)

/-- NEW (R248): the request at the head of a ring is checked, and waits for admission or is refused. An entry with a reserved
KIND is a malformed request. -/
def execNew (q : BitVec 8) (s : State) : Host.Outcome State Fault Refusal :=
  let r := q.toNat
  match s.takeRequest r (fun k => k == 0 || decide (5 ≤ k)) with
  | none => .next s
  | some (s, bs) =>
    let w := wordsOf bs
    let s := s.bump aSrvReqCnt
    match s.newFail r bs with
    | some st => .next (s.requestRefuse (recFld w 0 33 26) (s.reqTenant r w) (recFld w 0 25 16) (wordAt w 1) st)
    | none => .next (s.seqAccept (s.newSeq r bs))

/-- The live sequence of a request ring that a condition names, in arrival order of the waiting lists. -/
def State.findSeq (s : State) (q : Nat) (reqId : Word) (p : SeqRec → Bool) : Option Nat :=
  (s.srv.seqs.find? (fun e => e.2.reqRing.toNat == q && e.2.reqId == reqId && e.2.state != 0 && e.2.state != 5 && p e.2)).map
    Prod.fst

/-- A waiting request is refused with FORMAT (R247). -/
def State.seqFormat (s : State) (n : Nat) : State := (s.closeSeq n 0x0C).bump aSrvRefuseCnt

/-- CONT (R247): prompt tokens are appended to the request of the ring and REQ_ID that waits for them. -/
def execCont (q : BitVec 8) (s : State) : Host.Outcome State Fault Refusal :=
  let r := q.toNat
  match s.takeRequest r (fun k => k == 1) with
  | none => .next s
  | some (s, bs) =>
    let w := wordsOf bs
    match s.findSeq r (wordAt w 1) (fun x => !x.complete && !x.tune) with
    | none => .next s
    | some n =>
      let x := s.seqRec n
      let k := recFld w 0 63 48
      let toks := entryToks bs 16 k
      let last := bit (wordAt w 0).toNat 4
      if recFld w 0 47 5 ≠ 0 ∨ (s.ringEsz r - 16) / 4 < k ∨ toks.any (fun t => decide (2 ^ 18 ≤ t)) ∨
          (last ∧ x.prompt.length + k ≠ x.promptLen) then .next (s.seqFormat n)
      else .next (s.setSeq n { x with prompt := x.prompt ++ toks.map (BitVec.ofNat 18), complete := last })

/-- CANCEL (R247): a waiting request ends at once; another ends at its next token step. -/
def execCancel (q : BitVec 8) (s : State) : Host.Outcome State Fault Refusal :=
  let r := q.toNat
  match s.takeRequest r (fun k => k == 2) with
  | none => .next s
  | some (s, bs) =>
    let w := wordsOf bs
    match s.findSeq r (wordAt w 1) (fun x => x.tenant.toNat == recFld w 0 15 8) with
    | none => .next s
    | some n => .next (if (s.seqRec n).state = 1 then s.endSeq n 7 else s.setSeq n { s.seqRec n with cancel := true })

/-- RELEASE (R258): the client's hold on a handle goes. An unknown handle is answered with PREFIX_INVALID; the entry names
no response ring, so the ring is a free value. -/
def execRelease (q : BitVec 8) (s : State) : Host.Outcome State Fault Refusal :=
  let r := q.toNat
  match s.takeRequest r (fun k => k == 3) with
  | none => .next s
  | some (s, bs) =>
    let w := wordsOf bs
    let t := recFld w 0 15 8
    let v := recFld w 2 31 0
    let h := v % 2 ^ 20
    let x := s.handle h
    if x.state ≠ 0 ∧ x.client ∧ x.check.toNat = v / 2 ^ 20 ∧ x.tenant.toNat = t ∧ t = s.reqTenant r w then
      .next ((s.setHandle h { x with client := false }).handleDrop h)
    else
      let ring := fld (Config.fresh s.freeCtr) 7 0
      let s := s.tickFree
      if s.respAllowed ring (s.reqTenant r w) then
        .next (s.tickEntry.firmEmit (256 + ring) (s.respEntry 1 false (some 0x10) (fld (Config.fresh s.freeCtr) 17 8)
          (fld (Config.fresh s.freeCtr) 33 18) (wordAt w 1) none (some 0) []))
      else .next s

/-! ### Tuning requests (R267) -/

/-- The longest of `n` training sequences from an HDM offset; none where one is malformed or beyond the window. -/
def State.trainLongest (s : State) (ctx off : Nat) : Nat → Option Nat
  | 0 => some 0
  | n + 1 =>
    match s.hdmHalf off with
    | none => none
    | some l =>
      if l < 2 ∨ ctx < l ∨ (s.hdmHalf (off + 4 * l)).isNone then none
      else match s.trainLongest ctx (off + (4 + 4 * l + 7) / 8 * 8) n with
        | none => none
        | some m => some (max l m)

/-- The page accesses of that pass over the training sequences (R139). -/
def State.trainTouch (s : State) (ctx off : Nat) : Nat → State
  | 0 => s
  | n + 1 =>
    let s := s.hdmTouch off 4
    match s.hdmHalf off with
    | none => s
    | some l => if l < 2 ∨ ctx < l then s else (s.hdmTouch (off + 4) (4 * l)).trainTouch ctx (off + (4 + 4 * l + 7) / 8 * 8) n

/-- The first check that a TUNE entry fails (R248, R267). -/
def State.tuneFail (s : State) (q : Nat) (w : List Word) : Option Nat :=
  let t := s.reqTenant q w
  let i := recFld w 0 25 16
  let a := s.adapterRec (recFld w 0 45 34)
  firstFail [
    (recFld w 0 7 4 != 0 || recFld w 0 63 46 != 0 || recFld w 2 63 48 != 0 || recFld w 4 63 48 != 0 || recFld w 5 63 32 != 0, 0x0C),
    (s.tenantBad q w, 0x0B), (!s.instServes i || s.ifaceTs i == 0, 0x0A),
    (recFld w 3 31 0 == 0 || recFld w 3 47 32 == 0 || recFld w 3 63 48 == 0 ||
      (s.trainLongest (s.ifaceCtx i) (recFld w 2 47 0) (recFld w 3 31 0)).isNone, 0x0D),
    (!(a.present && decide (1 ≤ a.rank.toNat) && decide (a.rank.toNat ≤ 64)), 0x11), (a.tenant.toNat != t, 0x12),
    (a.tuning || a.users != 0, 0x13), (s.seqFull i, 0x16)]

/-- TUNE (R267). -/
def execTune (q : BitVec 8) (s : State) : Host.Outcome State Fault Refusal :=
  let r := q.toNat
  match s.takeRequest r (fun k => k == 4) with
  | none => .next s
  | some (s, bs) =>
    let w := wordsOf bs
    let i := recFld w 0 25 16
    let t := s.reqTenant r w
    let s := s.bump aSrvReqCnt
    match s.tuneFail r w with
    | some st => .next (s.requestRefuse (recFld w 0 33 26) t i (wordAt w 1) st)
    | none =>
      let data := recFld w 2 47 0
      let nseq := recFld w 3 31 0
      .next ((s.trainTouch (s.ifaceCtx i) data nseq).seqAccept {
        state := 1, tune := true, inst := BitVec.ofNat 10 i, tenant := BitVec.ofNat 8 t
        respRing := BitVec.ofNat 8 (recFld w 0 33 26), reqRing := q, reqId := wordAt w 1
        adapter := BitVec.ofNat 12 (recFld w 0 45 34), promptLen := (s.trainLongest (s.ifaceCtx i) data nseq).getD 0
        complete := true, since := s.clock, data, cur := data, nseq, epochs := recFld w 3 47 32, every := recFld w 3 63 48
        expOff := recFld w 4 47 0, expLen := recFld w 5 31 0 })

/-! ### Admission (R249 to R251) -/

/-- The first request of a waiting list that may be admitted: none of its instance waits before it. -/
def State.nextAdmit (s : State) (before : List (BitVec 10)) : List Nat → Option Nat
  | [] => none
  | n :: r =>
    let q := s.seqRec n
    if !before.contains q.inst && s.seqReady q && (s.kvGive n).isSome then some n
    else s.nextAdmit (q.inst :: before) r

/-- ADMISSION (R249, R250, R264): the next waiting request of a home cluster gets its pages and its grammar, and runs. -/
def execAdmission (cluster : BitVec 3) (s : State) : Host.Outcome State Fault Refusal :=
  let c := cluster.toNat
  if !s.homeOn c then .next s
  else
    match s.nextAdmit [] (kvGet [] c s.srv.waits) with
    | none => .next s
    | some n =>
      match s.kvGive n with
      | none => .next s
      | some s =>
        let q := s.seqRec n
        let s : State := { s with
          srv.waits := kvPut [] c (natDel n (kvGet [] c s.srv.waits)) s.srv.waits
          srv.admitN := s.srv.admitN + 1 }
        let s := if q.grammarEn then
            let g := s.gramRec q.grammar.toNat
            s.setGram q.grammar.toNat { g with users := g.users + 1 }
          else s
        .next (s.setSeq n { q with state := 2, order := s.srv.admitN })

/-- ADMIT_TIMEOUT (R251): a request that has waited for ADMIT_MS ends; one with CONT entries missing is refused (R247). -/
def execAdmitTimeout (seq : BitVec 16) (s : State) : Host.Outcome State Fault Refusal :=
  let n := seq.toNat
  let q := s.seqRec n
  if q.state ≠ 1 ∨ s.clock < q.since + 1000 * s.rfld aSrvCtrl 15 0 then .next s
  else if !q.complete then .next (s.seqFormat n)
  else if (s.kvGive n).isNone then .next ((s.endSeq n 0x15).bump aSrvKvFullCnt)
  else .next (s.endSeq n 0x0A)

/-- HANDLE_LAPSE (R258): the client's hold on a handle unused for HANDLE_TTL_S seconds lapses. -/
def execHandleLapse (index : BitVec 20) (s : State) : Host.Outcome State Fault Refusal :=
  let h := index.toNat
  let x := s.handle h
  if x.state = 0 ∨ !x.client ∨ s.clock < x.used + 1000000 * s.rfld aSrvCtrl 47 16 then .next s
  else .next ((s.setHandle h { x with client := false }).handleDrop h)

end Sys2Proof.Machine
end

