-- ==== Sys2Proof/Machine/ServeSteps.lean ====
section
/-! DEFINITION. Token steps and responses (R253 to R257, R262, R267 to R271): SLOT_RECORDS_ISSUE, RESULT_RECORDS_READ, RESPONSE_WRITE and NOTICE_WRITE. -/

namespace Sys2Proof.Machine

/-! ### Slot records (R254) -/

/-- Insert a sequence by its admission stamp. -/
def State.byOrder (s : State) (n : Nat) : List Nat → List Nat
  | [] => [n]
  | m :: r => if (s.seqRec n).order < (s.seqRec m).order then n :: m :: r else m :: s.byOrder n r

/-- The sequences of an instance that a condition names, in admission order. -/
def State.seqsInOrder (s : State) (i : Nat) (p : SeqRec → Bool) : List Nat :=
  ((s.instSeqs i).filter (fun n => p (s.seqRec n))).foldl (fun l n => s.byOrder n l) []

/-- The generation a step issued now expects: during a promenade the new one (R229). -/
def State.expectGen (s : State) (i : Nat) : BitVec 16 :=
  let x := s.inst i
  if x.state = 4 ∨ x.state = 6 then
    match (s.jobOf i).bind (fun k => s.load.jobs[k]?) with
    | some j => BitVec.ofNat 16 (descGen j.desc)
    | none => BitVec.ofNat 16 (nextGen x.gen.toNat)
  else x.gen

/-- Whether the firmware may feed stage 0 of an instance: admission is open, or the front has passed stage 0 (R229). -/
def State.feeds (s : State) (i : Nat) : Bool :=
  let x := s.inst i
  x.state == 2 || x.state == 3 || ((x.state == 4 || x.state == 6) && x.passed.contains 0)

/-- Whether a sequence may get a slot: it runs, or a promenade holds it that the new generation continues, and it is not
backpressured (R270). -/
def seqFeeds (q : SeqRec) : Bool := !q.tune && decide (q.out.length < 64) && (q.state == 2 || (q.state == 4 && q.genMark.isSome))

/-- Word `k` of a slot record where R254 gives a slot of its kind nothing to write: free values in its fields. -/
def openSlotWord (ctr gen k : Nat) : Nat :=
  let f := Config.fresh (ctr + k)
  match k with
  | 0 => pack [(2, fld f 31 2), (32, gen)]
  | 1 => fld f 31 0
  | 2 => pack [(0, fld f 45 0), (63, fld f 63 63)]
  | 3 => fld f 47 0
  | 4 => f.toNat
  | 5 => f.toNat
  | 6 => fld f 40 0
  | 7 => fld f 54 0
  | _ => pack [(0, fld f 17 0), (32, fld f 49 32)]

/-- The 128 bytes of a slot record from the words that are known, by number, and its tokens. -/
def slotBytes (ctr gen : Nat) (known : KV Nat) (toks : List Nat) : List Byte :=
  (List.range 16).flatMap (fun k =>
    let o := openSlotWord ctr gen k
    if k < 8 then natLe 8 (kvGet o k known)
    else natLe 4 (toks.getD (2 * (k - 8)) (o % 2 ^ 32)) ++ natLe 4 (toks.getD (2 * (k - 8) + 1) (o / 2 ^ 32)))

/-- The adapter words of a slot record. -/
def State.adapterWord (s : State) (a : Nat) : Nat :=
  pack [(0, (s.adapterRec a).page.toNat * 65536), (48, (s.adapterRec a).rank.toNat)]

/-- The words of a slot record that feeds tokens to a sequence. -/
def State.feedKnown (s : State) (n kind ntok pos gen : Nat) (update : Bool) : KV Nat :=
  let q := s.seqRec n
  let en := q.adapterEn || q.tune
  let w0 := pack [(0, kind), (2, ntok - 1), (6, b2n update), (7, b2n en), (8, q.tenant.toNat), (16, n), (32, gen)]
  let head := [(0, w0), (1, pos)]
  let gram := if q.tune then []
    else if q.grammarEn then [(2, pack [(0, q.gstate.toNat), (20, (s.gramRec q.grammar.toNat).page.toNat), (63, 1)])]
    else [(2, pack [(0, q.gstate.toNat)])]
  let par := if q.tune then []
    else [(4, pack [(0, q.temp.toNat), (32, q.topP.toNat)]), (5, q.seed.toNat), (6, pack [(0, (pos + ntok) % 2 ^ 32), (32, q.topK.toNat)])]
  head ++ gram ++ [(3, q.listPage * 65536)] ++ par ++ (if en then [(7, s.adapterWord q.adapter.toNat)] else [])

/-- A slot of the token step: what is issued, its bytes and the state with the sequence moved on. -/
def State.feedSlot (s : State) (ctr n gen : Nat) : State × IssueSlot × List Byte :=
  let q := s.seqRec n
  if q.promptLen ≤ q.fed then
    let pos := q.tokIdx - 1
    (s.setSeq n { q with state := 2, inFlight := true }, { kind := 2, seq := n, order := q.order, n := 0, update := false },
      slotBytes ctr gen (s.feedKnown n 2 1 pos gen false) ((q.prompt.take 1).map (·.toNat)))
  else
    let c := min (s.ifacePmax q.inst.toNat) (q.promptLen - q.fed)
    let ends := decide (q.fed + c = q.promptLen)
    let kind := if ends then 2 else 1
    (s.setSeq n { q with state := 2, fed := q.fed + c, inFlight := ends },
      { kind := BitVec.ofNat 2 kind, seq := n, order := q.order, n := c, update := false },
      slotBytes ctr gen (s.feedKnown n kind c (q.prefixTok + q.fed) gen false)
        (((q.prompt.drop q.fed).take c).map (·.toNat)))

/-- A TRAIN slot of a tuning job (R267): the next inputs of its current training sequence, with the target after them. -/
def State.trainSlot (s : State) (ctr n gen : Nat) : State × IssueSlot × List Byte :=
  let q := s.seqRec n
  let len := (s.hdmHalf q.cur).getD 0
  let c := min (min 15 (s.ifacePmax q.inst.toNat)) (len - 1 - q.fed)
  let ends := decide (q.fed + c + 1 = len)
  let lastSeq := ends && decide (q.seqIdx + 1 = q.nseq)
  let update := ends && ((q.seqIdx + 1) % q.every == 0 || lastSeq)
  let toks := (List.range (c + 1)).map (fun k => (s.hdmHalf (q.cur + 4 + 4 * (q.fed + k))).getD 0)
  let q' := if !ends then { q with fed := q.fed + c }
    else if lastSeq then { q with fed := 0, seqIdx := 0, epoch := q.epoch + 1, cur := q.data }
    else { q with fed := 0, seqIdx := q.seqIdx + 1, cur := q.cur + (4 + 4 * len + 7) / 8 * 8 }
  (((s.hdmTouch q.cur 4).hdmTouch (q.cur + 4 + 4 * q.fed) (4 * (c + 1))).setSeq n q', { kind := 3, seq := n, order := q.order, n := c, update },
    slotBytes ctr gen (s.feedKnown n 3 c q.fed gen update) toks)

/-- Fill `slots` slots from lists of sequences; the rest are IDLE. -/
def State.fillSlots (s : State) (train : Bool) (gen : Nat) : Nat → Nat → List Nat → State × List (IssueSlot × List Byte)
  | 0, _, _ => (s, [])
  | k + 1, ctr, [] =>
    let r := s.fillSlots train gen k (ctr + 16) []
    (r.1, ({ kind := 0, seq := 0, order := 0, n := 0, update := false }, slotBytes ctr gen [] []) :: r.2)
  | k + 1, ctr, n :: l =>
    let f := if train then s.trainSlot ctr n gen else s.feedSlot ctr n gen
    let r := f.1.fillSlots train gen k (ctr + 16) l
    (r.1, f.2 :: r.2)

/-- Sequences whose client cancelled them end at their next token step (R247). -/
def State.endCancelled (s : State) (i : Nat) : State :=
  (s.seqsInOrder i (fun q => q.cancel && !q.inFlight && q.state != 1)).foldl (fun s n => s.endSeq n 7) s

/-- SLOT_RECORDS_ISSUE (R254): the firmware adds the B records of the next token step to IN_Q when the queue has room and
something runs or waits. -/
def execSlotRecordsIssue (inst : BitVec 10) (s : State) : Host.Outcome State Fault Refusal :=
  let i := inst.toNat
  if s.stopping || !s.homeOn (s.ifaceHome i) || !s.feeds i then .next s
  else
    let s := s.endCancelled i
    let b := s.ifaceB i
    let q := s.queue (s.ifaceInQ i)
    let room := decide (queueHolds q + s.con.held.length + b ≤ q.depth)
    let feed := s.seqsInOrder i seqFeeds
    let tune := s.seqsInOrder i (fun x => x.tune && x.state == 2 && decide (x.epoch < x.epochs))
    let waits := (s.instSeqs i).any (fun n => (s.seqRec n).state == 1)
    if !room || (feed.isEmpty && tune.isEmpty && !waits) then .next s
    else
      let gen := s.expectGen i
      let next := feed.filter (fun n => decide ((s.seqRec n).promptLen ≤ (s.seqRec n).fed) && !(s.seqRec n).inFlight)
      let chunks := feed.filter (fun n => decide ((s.seqRec n).fed < (s.seqRec n).promptLen))
      let ts := s.ifaceTs i
      let a := s.fillSlots false gen.toNat (b - ts) s.freeCtr (next ++ chunks)
      let c := a.1.fillSlots true gen.toNat (min ts b) (s.freeCtr + 16 * (b - ts)) tune
      let s : State := { c.1 with freeCtr := c.1.freeCtr + 16 * b }
      let x := s.inst i
      let s := s.setInst i { x with
        issuedN := x.issuedN + 1, issued := kvSet (x.issuedN + 1) { gen, slots := (a.2 ++ c.2).map Prod.fst } x.issued }
      let items := (a.2 ++ c.2).map (fun r => AsyncItem.entry (BitVec.ofNat 16 (s.ifaceInQ i)) r.2)
      .next (items.foldl State.asyncArrive s)

/-! ### Result records (R256, R257, R262, R268) -/

/-- Create the prefix handle of a sequence (R257): the lowest free index; P = 0 creates none. DESIGN CHOICE
(notes/assumptions/26.md). -/
def State.handleMake (s : State) (n : Nat) : State :=
  let q := s.seqRec n
  let p := (q.prefixTok + q.promptLen) / 16
  let h := firstGap 0 ((s.srv.handles.filter (fun e => e.2.state != 0)).map Prod.fst)
  let s := s.setSeq n { q with keep := false }
  if p = 0 ∨ 2 ^ 20 ≤ h then s
  else
    let shared := match q.handle with
      | some k => (s.handle k.toNat).pages
      | none => []
    let x := s.handle h
    let s := s.setHandle h { x with
      state := 1, tenant := q.tenant, inst := q.inst, gen := (s.inst q.inst.toNat).gen, refs := 2, client := true
      tokens := 16 * p, pages := (shared ++ q.pages).take p, used := s.clock }
    s.setSeq n { s.seqRec n with
      made := some (BitVec.ofNat 20 h), handleOut := some (BitVec.ofNat 32 (pack [(0, h), (20, x.check.toNat)])) }

/-- The result of a selection for a sequence (R256, R262): the token is delivered, or the sequence ends. The first token of a
new generation is marked (R231); at 64 undelivered tokens the sequence is backpressured (R270). -/
def State.takeResult (s : State) (n : Nat) (w : List Word) : State :=
  let s := if (s.seqRec n).keep then s.handleMake n else s
  let q := s.seqRec n
  let tok := BitVec.ofNat 18 (recFld w 2 17 0)
  match recFld w 2 19 18 with
  | 1 => s.endSeq n 4
  | 2 => s.endSeq n 5
  | _ =>
    let idx := recFld w 0 63 32
    let gen := BitVec.ofNat 16 (recFld w 0 31 16)
    let mark := match q.genMark with
      | some old => gen != old
      | none => false
    let out := q.out ++ [(tok, gen, idx, mark)]
    let full := out.length == 64
    let s := s.setSeq n { q with
      out, genMark := if mark then none else q.genMark, gen, tokIdx := idx + 1, prompt := [tok], inFlight := false
      generated := q.generated + 1, gstate := if q.grammarEn then BitVec.ofNat 20 (recFld w 2 39 20) else q.gstate
      state := if full && q.state == 2 then 3 else q.state }
    let s := if full then s.bump aSrvBackpressureCnt else s
    if tok.toNat = q.stop0.toNat ∨ tok.toNat = q.stop1.toNat then s.endSeq n 0
    else if q.maxTokens.toNat ≠ 0xFFFFFFFF ∧ q.generated + 1 = q.maxTokens.toNat then s.endSeq n 1
    else if s.ifaceCtx q.inst.toNat ≤ idx + 1 then s.endSeq n 2
    else s

/-- An FP32 value divided by a number, rounded (R268). -/
def meanOf (loss : BitVec 32) (n : Nat) : BitVec 32 :=
  match fdec fp32 loss.toNat with
  | .fin neg m e =>
    let k := m * 2 ^ 160
    BitVec.ofNat 32 (fenc fp32 (.fin neg (2 * (k / n) + b2n (k % n != 0)) (e - 161)))
  | _ => loss

/-- The result of a TRAIN slot (R268): its loss is added; after an update the mean loss is reported, and after the last epoch
the adapter is exported and the job ends. -/
def State.takeLoss (s : State) (n : Nat) (x : IssueSlot) (w : List Word) : State :=
  let q := s.seqRec n
  let loss := BitVec.ofNat 32 (fenc fp32 (fadd (fdec fp32 q.loss.toNat) (fdec fp32 (recFld w 1 31 0))))
  if recFld w 2 19 18 = 2 ∨ fdec fp32 (recFld w 1 31 0) = .nan then s.endSeq n 5
  else if !x.update then s.setSeq n { q with loss, targets := q.targets + x.n }
  else
    let s := s.setSeq n { q with
      loss := 0, targets := 0, updates := q.updates + 1, progress := q.progress ++ [(q.updates + 1, meanOf loss (q.targets + x.n))] }
    let per := q.nseq / q.every + b2n (q.nseq % q.every != 0)
    if q.updates + 1 < per * q.epochs then s
    else
      let a := (s.adapterRec q.adapter.toNat).page.toNat * 65536
      let s := if q.expOff = 0 then s else (s.pagesTouch false a q.expLen).hdmWrite q.expOff (s.stk a q.expLen)
      s.endSeq n 3

/-- A result record whose sequence number is not in use (R273): a fault-log entry; R380 names no code for it, so code and
detail are free values. -/
def State.resultUnknown (s : State) : State :=
  s.tickFree.fault (fld (Config.fresh s.freeCtr) 7 0) none none (fld (Config.fresh s.freeCtr) 63 32)

/-- The records of a token step, slot by slot. -/
def State.takeRecords (s : State) (i : Nat) (gen : BitVec 16) : Nat → List IssueSlot → State
  | _, [] => s
  | a, x :: r =>
    let w := s.stkWords a 16
    if recFld w 0 31 16 ≠ gen.toNat then
      (s.fault 8 none (s.stageDom i ((s.inst i).stages.length - 1)) i).endSeqs i 8
    else
      let n := recFld w 0 15 0
      let q := s.seqRec n
      let s := if x.kind = 0 then s
        else if q.state = 0 ∨ q.state = 5 ∨ q.order ≠ x.order then s.resultUnknown
        else if x.kind = 3 then s.takeLoss n x w
        else if x.kind = 2 then s.takeResult n w
        else s
      s.takeRecords i gen (a + 128) r

/-- RESULT_RECORDS_READ (R256): after a commit of the last stage the firmware reads the records of that step and releases the
result-area entry. In its first LAG steps the stage has no token step. -/
def execResultRecordsRead (inst : BitVec 10) (s : State) : Host.Outcome State Fault Refusal :=
  let i := inst.toNat
  let x := s.inst i
  let last := x.stages.length - 1
  let n := x.readN + 1
  if !s.homeOn (s.ifaceHome i) || x.state = 0 || x.state = 1 || decide (s.stageSteps i last < n) then .next s
  else
    let lag := match x.stages[last]? with
      | some st => st.lag
      | none => 0
    let k := n - lag
    let s := s.setInst i { x with readN := n, issued := if lag < n then kvDel k x.issued else x.issued }
    match if lag < n then kvFind k x.issued else none with
    | none => .next s
    | some y =>
      let a := s.ifaceBase i + n % s.ifaceDepth i * s.ifaceB i * 128
      let s := s.pagesTouch false a (128 * s.ifaceB i)
      .next (s.takeRecords i y.gen a y.slots)

/-! ### Responses (R262, R268 to R270) -/

/-- The tokens that one entry takes: at most 8, consecutive, of one generation; a token that starts a generation starts an
entry. -/
def packToks (gen : BitVec 16) (idx : Nat) : Nat → List (BitVec 18 × BitVec 16 × Nat × Bool) → List Nat
  | 0, _ => []
  | _, [] => []
  | k + 1, (t, g, j, mark) :: r => if g = gen ∧ j = idx ∧ !mark then t.toNat :: packToks gen (idx + 1) k r else []

/-- The next response entry of a sequence and the sequence after it; none when nothing is due. -/
def State.nextEntry (s : State) (n : Nat) : Option (List Byte × SeqRec × Nat) :=
  let q := s.seqRec n
  let i := q.inst.toNat
  let cur := (s.inst i).gen.toNat
  match q.handleOut with
  | some v => some (s.respEntry 2 false (some 0) i cur q.reqId none (some v.toNat) [], { q with handleOut := none }, 0)
  | none =>
    match q.out with
    | (t, g, idx, mark) :: r =>
      let toks := t.toNat :: packToks g (idx + 1) 7 r
      some (s.respEntry 0 mark (some 0) i g.toNat q.reqId (some idx) none toks, { q with out := r.drop (toks.length - 1) }, toks.length)
    | [] =>
      match q.progress with
      | (u, mean) :: r =>
        some (s.respEntry 4 false (some 0) i cur q.reqId (some u) (some mean.toNat) [], { q with progress := r }, 0)
      | [] =>
        match q.ending with
        | some st => some (s.respEntry 1 false (some st.toNat) i cur q.reqId none (some q.generated) [], {}, 0)
        | none => none

/-- RESPONSE_WRITE (R270): the next entry of a sequence goes into a free slot of its response ring; after its FINAL the
sequence record is free. -/
def execResponseWrite (seq : BitVec 16) (s : State) : Host.Outcome State Fault Refusal :=
  let n := seq.toNat
  let q := s.seqRec n
  let r := 256 + q.respRing.toNat
  let discards := s.ringCount r == 0 || !s.ringEnabled r
  if q.state = 0 || !s.homeOn (s.ifaceHome q.inst.toNat) || !(discards || (!s.ringFull r && (s.ring r).outbox.isEmpty)) then .next s
  else
    match s.nextEntry n with
    | none => .next s
    | some (bs, q', k) =>
      let s := (s.tickEntry.firmEmit r bs).bumpBy aSrvTokenCnt k
      let q' := if q'.state = 3 ∧ q'.out.length < 64 then { q' with state := 2 } else q'
      .next (s.setSeq n q')

/-- NOTICE_WRITE (R271): the flags kept for a slot go to the notice ring of the instance that declared it. -/
def execNoticeWrite (slot : BitVec 12) (s : State) : Host.Outcome State Fault Refusal :=
  let l := slot.toNat
  match kvFind l s.con.notices, s.con.chos.find? (fun e => e.2.image.slots.any (fun r => r.slot == slot)) with
  | some flags, some c =>
    match c.2.inst with
    | none => .next s
    | some i =>
      let r := 256 + s.ifaceNotice i.toNat
      if !s.ifaceOn i.toNat || !s.homeOn (kvGet 0 l s.con.numSlot - 1) || !s.ringSpace r || !(s.ring r).outbox.isEmpty then .next s
      else
        let bs := s.respEntry 3 false none i.toNat (s.inst i.toNat).gen.toNat 0 (some l) (some flags.toNat) []
        let s := (s.tickEntry.firmEmit r bs).bump aSrvNoticeCnt
        .next { s with con.notices := kvDel l s.con.notices }
  | _, _ => .next s

end Sys2Proof.Machine
end

