-- ==== Sys2Proof/Machine/Dispatch.lean ====
section
/-! DEFINITION. One arm for each command: a direct call of its meaning. -/

namespace Sys2Proof.Machine

def exec (i : Instr) (s : State) : Host.Outcome State Fault Refusal :=
  match i with
  | .nop w => Sys2Proof.Machine.execNop w s
  | .bar w jump next => Sys2Proof.Machine.execBar w jump next s
  | .loopBegin w count body adv => Sys2Proof.Machine.execLoopBegin w count body adv s
  | .loopPset w pn addr stride => Sys2Proof.Machine.execLoopPset w pn addr stride s
  | .loopPadd w pn inc => Sys2Proof.Machine.execLoopPadd w pn inc s
  | .flagWait w flag value => Sys2Proof.Machine.execFlagWait w flag value s
  | .flagSignal w flag value => Sys2Proof.Machine.execFlagSignal w flag value s
  | .flagSignalArrive tile flag => Sys2Proof.Machine.execFlagSignalArrive tile flag s
  | .flagWaitAnswer tile flag => Sys2Proof.Machine.execFlagWaitAnswer tile flag s
  | .queueTake w pn n queue => Sys2Proof.Machine.execQueueTake w pn n queue s
  | .queuePeek w pn n queue => Sys2Proof.Machine.execQueuePeek w pn n queue s
  | .queueRelease w n queue => Sys2Proof.Machine.execQueueRelease w n queue s
  | .moveSend w pn n => Sys2Proof.Machine.execMoveSend w pn n s
  | .moveRecv w pn n => Sys2Proof.Machine.execMoveRecv w pn n s
  | .movePut w pn n queue => Sys2Proof.Machine.execMovePut w pn n queue s
  | .moveSrd w pn px n => Sys2Proof.Machine.execMoveSrd w pn px n s
  | .moveSwr w pn px n => Sys2Proof.Machine.execMoveSwr w pn px n s
  | .moveRrd w pn px n => Sys2Proof.Machine.execMoveRrd w pn px n s
  | .moveRwr w pn px n => Sys2Proof.Machine.execMoveRwr w pn px n s
  | .moveRflag w px => Sys2Proof.Machine.execMoveRflag w px s
  | .mvm w o => Sys2Proof.Machine.execMvm w o s
  | .tmvm w o => Sys2Proof.Machine.execTmvm w o s
  | .sideFetch w o => Sys2Proof.Machine.execSideFetch w o s
  | .sideEnc w o => Sys2Proof.Machine.execSideEnc w o s
  | .sideWadd w o => Sys2Proof.Machine.execSideWadd w o s
  | .sideAadd w o => Sys2Proof.Machine.execSideAadd w o s
  | .vecCopy w o => Sys2Proof.Machine.execVecCopy w o s
  | .vecAdd w o => Sys2Proof.Machine.execVecAdd w o s
  | .vecSub w o => Sys2Proof.Machine.execVecSub w o s
  | .vecMul w o => Sys2Proof.Machine.execVecMul w o s
  | .vecFma w o => Sys2Proof.Machine.execVecFma w o s
  | .vecMax w o => Sys2Proof.Machine.execVecMax w o s
  | .vecMin w o => Sys2Proof.Machine.execVecMin w o s
  | .vecAbs w o => Sys2Proof.Machine.execVecAbs w o s
  | .vecScale w o => Sys2Proof.Machine.execVecScale w o s
  | .vecExp2 w o => Sys2Proof.Machine.execVecExp2 w o s
  | .vecLog2 w o => Sys2Proof.Machine.execVecLog2 w o s
  | .vecRcp w o => Sys2Proof.Machine.execVecRcp w o s
  | .vecRsqrt w o => Sys2Proof.Machine.execVecRsqrt w o s
  | .vecSumred w o => Sys2Proof.Machine.execVecSumred w o s
  | .vecMaxred w o => Sys2Proof.Machine.execVecMaxred w o s
  | .vecSqsumred w o => Sys2Proof.Machine.execVecSqsumred w o s
  | .vecCvt w o => Sys2Proof.Machine.execVecCvt w o s
  | .vecEnc w o => Sys2Proof.Machine.execVecEnc w o s
  | .vecDec w o => Sys2Proof.Machine.execVecDec w o s
  | .dot w o => Sys2Proof.Machine.execDot w o s
  | .sample w o => Sys2Proof.Machine.execSample w o s
  | .sclAdd w dst src1 src2 => Sys2Proof.Machine.execSclAdd w dst src1 src2 s
  | .sclSub w dst src1 src2 => Sys2Proof.Machine.execSclSub w dst src1 src2 s
  | .sclAnd w dst src1 src2 => Sys2Proof.Machine.execSclAnd w dst src1 src2 s
  | .sclOr w dst src1 src2 => Sys2Proof.Machine.execSclOr w dst src1 src2 s
  | .sclXor w dst src1 src2 => Sys2Proof.Machine.execSclXor w dst src1 src2 s
  | .sclSll w dst src1 src2 => Sys2Proof.Machine.execSclSll w dst src1 src2 s
  | .sclSrl w dst src1 src2 => Sys2Proof.Machine.execSclSrl w dst src1 src2 s
  | .sclSra w dst src1 src2 => Sys2Proof.Machine.execSclSra w dst src1 src2 s
  | .sclSlt w dst src1 src2 => Sys2Proof.Machine.execSclSlt w dst src1 src2 s
  | .sclSltu w dst src1 src2 => Sys2Proof.Machine.execSclSltu w dst src1 src2 s
  | .sclMul w dst src1 src2 => Sys2Proof.Machine.execSclMul w dst src1 src2 s
  | .sclMulhu w dst src1 src2 => Sys2Proof.Machine.execSclMulhu w dst src1 src2 s
  | .sclDivu w dst src1 src2 => Sys2Proof.Machine.execSclDivu w dst src1 src2 s
  | .sclRemu w dst src1 src2 => Sys2Proof.Machine.execSclRemu w dst src1 src2 s
  | .sclAddi w dst src1 imm => Sys2Proof.Machine.execSclAddi w dst src1 imm s
  | .sclAndi w dst src1 imm => Sys2Proof.Machine.execSclAndi w dst src1 imm s
  | .sclOri w dst src1 imm => Sys2Proof.Machine.execSclOri w dst src1 imm s
  | .sclLi w dst imm => Sys2Proof.Machine.execSclLi w dst imm s
  | .sclLih w dst imm => Sys2Proof.Machine.execSclLih w dst imm s
  | .sclLd w dst src1 imm => Sys2Proof.Machine.execSclLd w dst src1 imm s
  | .sclLw w dst src1 imm => Sys2Proof.Machine.execSclLw w dst src1 imm s
  | .sclLb w dst src1 imm => Sys2Proof.Machine.execSclLb w dst src1 imm s
  | .sclSd w src1 src2 imm => Sys2Proof.Machine.execSclSd w src1 src2 imm s
  | .sclSw w src1 src2 imm => Sys2Proof.Machine.execSclSw w src1 src2 imm s
  | .sclSb w src1 src2 imm => Sys2Proof.Machine.execSclSb w src1 src2 imm s
  | .sclBeq w src1 src2 imm => Sys2Proof.Machine.execSclBeq w src1 src2 imm s
  | .sclBne w src1 src2 imm => Sys2Proof.Machine.execSclBne w src1 src2 imm s
  | .sclBlt w src1 src2 imm => Sys2Proof.Machine.execSclBlt w src1 src2 imm s
  | .sclBge w src1 src2 imm => Sys2Proof.Machine.execSclBge w src1 src2 imm s
  | .sclBltu w src1 src2 imm => Sys2Proof.Machine.execSclBltu w src1 src2 imm s
  | .sclJmp w imm => Sys2Proof.Machine.execSclJmp w imm s
  | .sclTop w dst src1 src2 => Sys2Proof.Machine.execSclTop w dst src1 src2 s
  | .sclFromp w dst src1 => Sys2Proof.Machine.execSclFromp w dst src1 s
  | .arrayPassComplete tile st => Sys2Proof.Machine.execArrayPassComplete tile st s
  | .transposePassComplete tile st => Sys2Proof.Machine.execTransposePassComplete tile st s
  | .converterSelfTest tile p bad => Sys2Proof.Machine.execConverterSelfTest tile p bad s
  | .arrayProgramDone tile p ok => Sys2Proof.Machine.execArrayProgramDone tile p ok s
  | .arrayProgramRequest inst k ecc => Sys2Proof.Machine.execArrayProgramRequest inst k s ecc
  | .arrayEraseDone tile p => Sys2Proof.Machine.execArrayEraseDone tile p s
  | .patrol tile p first again => Sys2Proof.Machine.execPatrol tile p first again s
  | .refresh tile p touched cellFailed => Sys2Proof.Machine.execRefresh tile p touched cellFailed s
  | .dataFlitReceive pos input badLanes => Sys2Proof.Machine.execDataFlitReceive pos input badLanes s
  | .laneSwap pos input => Sys2Proof.Machine.execLaneSwap pos input s
  | .syncFlitReceive pos input rx => Sys2Proof.Machine.execSyncFlitReceive pos input rx s
  | .routerOutputTurn pos output => Sys2Proof.Machine.execRouterOutputTurn pos output s
  | .barrierReleaseArrive dom pos => Sys2Proof.Machine.execBarrierReleaseArrive dom pos s
  | .barrierDecide dom => Sys2Proof.Machine.execBarrierDecide dom s
  | .repairHoldEnd dom tile pass => Sys2Proof.Machine.execRepairHoldEnd dom tile pass s
  | .asyncSignalArrive a => Sys2Proof.Machine.execAsyncSignalArrive a s
  | .stallTimeout dom => Sys2Proof.Machine.execStallTimeout dom s
  | .domainFirstStep choId => Sys2Proof.Machine.execDomainFirstStep choId s
  | .stageStepStart inst stage => Sys2Proof.Machine.execStageStepStart inst stage s
  | .domCtrlRestart path dom => Sys2Proof.Machine.execDomCtrlRestart path dom s
  | .domCtrlStop path dom => Sys2Proof.Machine.execDomCtrlStop path dom s
  | .domCtrlUnload path dom => Sys2Proof.Machine.execDomCtrlUnload path dom s
  | .ringAppendWrite path addr data => Sys2Proof.Machine.execRingAppendWrite path addr data s
  | .ringHoldAccept ring window => Sys2Proof.Machine.execRingHoldAccept ring window s
  | .ringConsumeRead path ring offset len => Sys2Proof.Machine.execRingConsumeRead path ring offset len s
  | .ringSafePoint ring => Sys2Proof.Machine.execRingSafePoint ring s
  | .stackRequestAccept stack => Sys2Proof.Machine.execStackRequestAccept stack s
  | .stackReadReturn stack ecc => Sys2Proof.Machine.execStackReadReturn stack ecc s
  | .loadModel src env => Sys2Proof.Machine.execLoadModel src env s
  | .replace env => Sys2Proof.Machine.execReplace env s
  | .repair env => Sys2Proof.Machine.execRepair env s
  | .abortProm => Sys2Proof.Machine.execAbortProm s
  | .unload => Sys2Proof.Machine.execUnload s
  | .purge => Sys2Proof.Machine.execPurge s
  | .adapter env => Sys2Proof.Machine.execAdapter env s
  | .grammar env => Sys2Proof.Machine.execGrammar env s
  | .grammarJobWrite g inst => Sys2Proof.Machine.execGrammarJobWrite g inst s
  | .shardFetchComplete inst shard data => Sys2Proof.Machine.execShardFetchComplete inst shard data s
  | .shardDeadlineExpire inst shard => Sys2Proof.Machine.execShardDeadlineExpire inst shard s
  | .promenadeAdmissionStop inst => Sys2Proof.Machine.execPromenadeAdmissionStop inst s
  | .stageProgrammed inst stage => Sys2Proof.Machine.execStageProgrammed inst stage s
  | .unloadDrained inst => Sys2Proof.Machine.execUnloadDrained inst s
  | .new q => Sys2Proof.Machine.execNew q s
  | .cont q => Sys2Proof.Machine.execCont q s
  | .cancel q => Sys2Proof.Machine.execCancel q s
  | .release q => Sys2Proof.Machine.execRelease q s
  | .tune q => Sys2Proof.Machine.execTune q s
  | .admission cluster => Sys2Proof.Machine.execAdmission cluster s
  | .admitTimeout seq => Sys2Proof.Machine.execAdmitTimeout seq s
  | .slotRecordsIssue inst => Sys2Proof.Machine.execSlotRecordsIssue inst s
  | .resultRecordsRead inst => Sys2Proof.Machine.execResultRecordsRead inst s
  | .responseWrite seq => Sys2Proof.Machine.execResponseWrite seq s
  | .noticeWrite slot => Sys2Proof.Machine.execNoticeWrite slot s
  | .handleLapse index => Sys2Proof.Machine.execHandleLapse index s
  | .frameReceive port f => Sys2Proof.Machine.execFrameReceive port f s
  | .portRetrainDone port ok => Sys2Proof.Machine.execPortRetrainDone port ok s
  | .portTrainingDone port peer peerPort => Sys2Proof.Machine.execPortTrainingDone port peer peerPort s
  | .wavelengthFault port wavelength => Sys2Proof.Machine.execWavelengthFault port wavelength s
  | .laneRestripe port => Sys2Proof.Machine.execLaneRestripe port s
  | .spareWavelengthReady port => Sys2Proof.Machine.execSpareWavelengthReady port s
  | .barArrive m => Sys2Proof.Machine.execBarArrive m s
  | .barRelease m => Sys2Proof.Machine.execBarRelease m s
  | .hold m begins => Sys2Proof.Machine.execHold m begins s
  | .freeze m => Sys2Proof.Machine.execFreeze m s
  | .winClose m => Sys2Proof.Machine.execWinClose m s
  | .winCloseAck m => Sys2Proof.Machine.execWinCloseAck m s
  | .winCloseAckSend owner edge window => Sys2Proof.Machine.execWinCloseAckSend owner edge window s
  | .sync port src response t2 => Sys2Proof.Machine.execSync port src response t2 s
  | .syncRes port residence => Sys2Proof.Machine.execSyncRes port residence s
  | .lane port wavelength action switchSeq => Sys2Proof.Machine.execLane port wavelength action switchSeq s
  | .heartbeat src term role => Sys2Proof.Machine.execHeartbeat src term role s
  | .join src count slot => Sys2Proof.Machine.execJoin src count slot s
  | .rwr port h data => Sys2Proof.Machine.execRwr port h data s
  | .rrd port h => Sys2Proof.Machine.execRrd port h s
  | .rflag port h => Sys2Proof.Machine.execRflag port h s
  | .rdata port h data => Sys2Proof.Machine.execRdata port h data s
  | .compl port h => Sys2Proof.Machine.execCompl port h s
  | .msg port h data => Sys2Proof.Machine.execMsg port h data s
  | .rcompTimeout edge entry => Sys2Proof.Machine.execRcompTimeout edge entry s
  | .winCloseTimeout edge window => Sys2Proof.Machine.execWinCloseTimeout edge window s
  | .winCmdOpen path edge window => Sys2Proof.Machine.execWinCmdOpen path edge window s
  | .winCmdClose path edge window => Sys2Proof.Machine.execWinCmdClose path edge window s
  | .heartbeatSend => Sys2Proof.Machine.execHeartbeatSend s
  | .managerLoss => Sys2Proof.Machine.execManagerLoss s
  | .standbyTakeover => Sys2Proof.Machine.execStandbyTakeover s
  | .syncExchange port => Sys2Proof.Machine.execSyncExchange port s
  | .holdoverEnter => Sys2Proof.Machine.execHoldoverEnter s
  | .rackEpochEdge epoch => Sys2Proof.Machine.execRackEpochEdge s epoch
  | .rackRefAbsent => Sys2Proof.Machine.execRackRefAbsent s
  | .rackRefRestored => Sys2Proof.Machine.execRackRefRestored s
  | .perstNAssert => Sys2Proof.Machine.execPerstNAssert s
  | .hostLinkDown => Sys2Proof.Machine.execHostLinkDown s
  | .hostLinkTrained width rate l1 ide => Sys2Proof.Machine.execHostLinkTrained width rate s l1 ide
  | .cxlMemAccess write offset data poison ecc => Sys2Proof.Machine.execCxlMemAccess write offset data s poison ecc
  | .hostReadCompletion inst shard c => Sys2Proof.Machine.execHostReadCompletion inst shard c s
  | .hostCplTimeout inst shard => Sys2Proof.Machine.execHostCplTimeout inst shard s
  | .ideFailure memStream => Sys2Proof.Machine.execIdeFailure memStream s
  | .cmConnectRequest port profile source rqpn => Sys2Proof.Machine.execCmConnectRequest port profile source rqpn s
  | .rdmaWrite port qp addr data => Sys2Proof.Machine.execRdmaWrite port qp addr data s
  | .rdmaRead port qp addr len => Sys2Proof.Machine.execRdmaRead port qp addr len s
  | .send port qp data => Sys2Proof.Machine.execSend port qp data s
  | .responseSend port qp => Sys2Proof.Machine.execResponseSend port qp s
  | .responseSendAck port qp => Sys2Proof.Machine.execResponseSendAck port qp s
  | .qpError port qp => Sys2Proof.Machine.execQpError port qp s
  | .svcLinkDown port => Sys2Proof.Machine.execSvcLinkDown port s
  | .qpCmdReset path port qp => Sys2Proof.Machine.execQpCmdReset path port qp s
  | .regRead addr => Sys2Proof.Machine.execRegRead addr s
  | .regWrite addr value => Sys2Proof.Machine.execRegWrite addr value s
  | .state => Sys2Proof.Machine.execState s
  | .imageBegin length => Sys2Proof.Machine.execImageBegin length s
  | .imageData offset data => Sys2Proof.Machine.execImageData offset data s
  | .imageEnd v => Sys2Proof.Machine.execImageEnd v s
  | .recoveryHost => Sys2Proof.Machine.execRecoveryHost s
  | .entdaa address => Sys2Proof.Machine.execEntdaa address s
  | .setdasa => Sys2Proof.Machine.execSetdasa s
  | .setEndpointId eid => Sys2Proof.Machine.execSetEndpointId eid s
  | .getVersion => Sys2Proof.Machine.execGetVersion s
  | .getCapabilities => Sys2Proof.Machine.execGetCapabilities s
  | .negotiateAlgorithms => Sys2Proof.Machine.execNegotiateAlgorithms s
  | .getDigests => Sys2Proof.Machine.execGetDigests s
  | .getCertificate offset length => Sys2Proof.Machine.execGetCertificate s offset length
  | .challenge nonce => Sys2Proof.Machine.execChallenge nonce s
  | .getMeasurements index => Sys2Proof.Machine.execGetMeasurements index s
  | .nvmBegin path length => Sys2Proof.Machine.execNvmBegin path length s
  | .nvmEnd path v => Sys2Proof.Machine.execNvmEnd path v s
  | .nvmAbort path => Sys2Proof.Machine.execNvmAbort path s
  | .nvmWindowWrite path offset data => Sys2Proof.Machine.execNvmWindowWrite path offset data s
  | .enterRecovery path => Sys2Proof.Machine.execEnterRecovery path s
  | .arm => Sys2Proof.Machine.execArm s
  | .go path => Sys2Proof.Machine.execGo path s
  | .commit path gen => Sys2Proof.Machine.execCommit path gen s
  | .discard path => Sys2Proof.Machine.execDiscard path s
  | .stagedApply addr => Sys2Proof.Machine.execStagedApply addr s
  | .tenantReset path tag => Sys2Proof.Machine.execTenantReset path tag s
  | .unfreeze path cls id => Sys2Proof.Machine.execUnfreeze path cls id s
  | .registerWrite path addr data => Sys2Proof.Machine.execRegisterWrite path addr data s
  | .numLflagClear path slot bits => Sys2Proof.Machine.execNumLflagClear path slot bits s
  | .scratchApertureAccess path tile write offset data => Sys2Proof.Machine.execScratchApertureAccess path tile write offset data s
  | .hkcDataRead path => Sys2Proof.Machine.execHkcDataRead path s
  | .flogAckWrite path value => Sys2Proof.Machine.execFlogAckWrite path value s
  | .calSet path value => Sys2Proof.Machine.execCalSet path value s
  | .calendarBroadcast received => Sys2Proof.Machine.execCalendarBroadcast received s
  | .loopCmdWrite path value => Sys2Proof.Machine.execLoopCmdWrite path value s
  | .pwrCapWrite path value => Sys2Proof.Machine.execPwrCapWrite path value s
  | .traceClear path value => Sys2Proof.Machine.execTraceClear path value s
  | .calStart path fields => Sys2Proof.Machine.execCalStart path fields s
  | .calAbort path => Sys2Proof.Machine.execCalAbort path s
  | .calPartDone bad => Sys2Proof.Machine.execCalPartDone bad s
  | .ledgerSummaryFlush flashOk => Sys2Proof.Machine.execLedgerSummaryFlush flashOk s
  | .ledgerJournalFlush flashOk => Sys2Proof.Machine.execLedgerJournalFlush flashOk s
  | .ledgerCheckpoint flashOk => Sys2Proof.Machine.execLedgerCheckpoint flashOk s
  | .modResetNRelease => Sys2Proof.Machine.execModResetNRelease s
  | .startSequenceAdvance env => Sys2Proof.Machine.execStartSequenceAdvance env s
  | .ready => Sys2Proof.Machine.execReady s
  | .domainRampDone dom ok => Sys2Proof.Machine.execDomainRampDone dom ok s
  | .strapDebugRelease => Sys2Proof.Machine.execStrapDebugRelease s
  | .hkcConversion chan code saturated => Sys2Proof.Machine.execHkcConversion chan code saturated s
  | .coolantWarningClear chan => Sys2Proof.Machine.execCoolantWarningClear chan s
  | .throttleStep dom => Sys2Proof.Machine.execThrottleStep dom s
  | .powerCapStep watts => Sys2Proof.Machine.execPowerCapStep watts s
  | .pumpDemandUpdate => Sys2Proof.Machine.execPumpDemandUpdate s
  | .flowMeasure pulses => Sys2Proof.Machine.execFlowMeasure pulses s
  | .flowStop => Sys2Proof.Machine.execFlowStop s
  | .pwrGoodDeassert => Sys2Proof.Machine.execPwrGoodDeassert s
  | .mainInputLow => Sys2Proof.Machine.execMainInputLow s
  | .stopReqNAssert => Sys2Proof.Machine.execStopReqNAssert s
  | .modResetNAssert => Sys2Proof.Machine.execModResetNAssert s
  | .keep12vLoss => Sys2Proof.Machine.execKeep12vLoss s
  | .holdupOkDeassert => Sys2Proof.Machine.execHoldupOkDeassert s
  | .stopStageEnd inTime => Sys2Proof.Machine.execStopStageEnd inTime s
  | .phaseFail dom phase => Sys2Proof.Machine.execPhaseFail dom phase s
  | .supplyFault dom => Sys2Proof.Machine.execSupplyFault dom s
  | .keeperHeartbeatLoss => Sys2Proof.Machine.execKeeperHeartbeatLoss s
  | .pairLockstepMismatch cluster pair => Sys2Proof.Machine.execPairLockstepMismatch cluster pair s
  | .horizonAdvance => Sys2Proof.Machine.execHorizonAdvance s
  | .beatReport tile => Sys2Proof.Machine.execBeatReport tile s
  | .frameSend port => Sys2Proof.Machine.execFrameSend port s
  | .temperatureBandCount => Sys2Proof.Machine.execTemperatureBandCount s
  | .stackInterfaceLost stack => Sys2Proof.Machine.execStackInterfaceLost stack s
  | .ioAgentRead addr len => Sys2Proof.Machine.execIoAgentRead addr len s
  | .keep12vPresent => Sys2Proof.Machine.execKeep12vPresent s
  | .pwrGoodAssert => Sys2Proof.Machine.execPwrGoodAssert s
  | .holdupOkAssert => Sys2Proof.Machine.execHoldupOkAssert s
  | .perstNRelease => Sys2Proof.Machine.execPerstNRelease s
  | .fieldSelfTestDone field pass => Sys2Proof.Machine.execFieldSelfTestDone field pass s

end Sys2Proof.Machine
end

