-- ==== Sys2Proof/Certificates/Slice0/Obligations.lean ====
section
/-! DEFINITION. The statements for the provers: one definition `Obligations.<Name>` for each, with the named conditions they are written with. Nothing is proved here. -/

namespace Sys2Proof.Machine

/-! ### The words the statements are written with -/

/-- A running tile of one of the kinds, in an execution no datapath check fails. -/
def Ready (s : State) (w : At) (kinds : List Nat) : Prop :=
  s.runs w.tile.toNat = true ∧ tileKind w.tile.toNat ∈ kinds ∧ w.fault = false

/-- Only tile `k` differs, values of registers and the watchdogs. -/
def OnlyTile (s t : State) (k : Nat) : Prop :=
  t = { s with wafer.tiles := t.wafer.tiles, reg.vals := t.reg.vals, watch := t.watch } ∧ ∀ j, j ≠ k → t.tile j = s.tile j

/-- As `OnlyTile`, and scratch bytes and their parity. -/
def OnlyTileScratch (s t : State) (k : Nat) : Prop :=
  t = { s with
        wafer.tiles := t.wafer.tiles
        wafer.scratch := t.wafer.scratch
        wafer.scratchBad := t.wafer.scratchBad
        reg.vals := t.reg.vals
        watch := t.watch } ∧ ∀ j, j ≠ k → t.tile j = s.tile j

/-- Every register keeps its value but one counter, which grows by `n` and stays at its top value (R13). -/
def OnlyCounter (s t : State) (a n : Nat) : Prop :=
  ∀ x, (t.reg64 x).toNat = if x = a then min ((s.reg64 x).toNat + n) (2 ^ 64 - 1) else (s.reg64 x).toNat

/-- A member of a domain has made progress: the domain's watchdog counts anew, every other keeps its count (R170). -/
def Progressed (s t : State) (k : Nat) : Prop :=
  ∀ d, kvGet 0 d t.watch = if (s.tile k).dom ≠ none ∧ d = s.domOf k then 0 else kvGet 0 d s.watch

/-- An instruction has retired: every register keeps its value, but a scalar pair counts the instruction, and the watchdog of
the tile's domain counts anew. -/
def Retired (s t : State) (k : Nat) : Prop :=
  (∀ x, (t.reg64 x).toNat =
    if tileKind k = 2 ∧ x = aSclwInstrCnt k then min ((s.reg64 x).toNat + 1) (2 ^ 64 - 1) else (s.reg64 x).toNat) ∧
  Progressed s t k

/-- The instruction of tile `k` is done: its sequencer is `q` moved to the next instruction, and nothing else has
changed but the count of a scalar pair and the watchdog of its domain. -/
def Done (s t : State) (k : Nat) (q : Seq) : Prop :=
  t.tile k = { s.tile k with seq := seqNext q } ∧ OnlyTile s t k ∧ Retired s t k

/-- A scalar instruction has written `v` to general register `dst`: GP0 reads zero and ignores writes, every other
general register and every pointer register stays, the sequencer moves on, nothing else changes. -/
def WroteGp (s t : State) (k : Nat) (dst : BitVec 5) (v : Word) : Prop :=
  (∀ n, seqGp (t.tile k).seq n = if n = dst ∧ n ≠ 0 then v else seqGp (s.tile k).seq n) ∧
  Done s t k { (s.tile k).seq with gp := (t.tile k).seq.gp }

/-- The bytes an instruction of tile `k` may reach: allocatable, of the tile's tenant, and no check of Loupe runs. -/
def Allowed (s : State) (k a len : Nat) : Prop :=
  0x10000 ≤ a ∧ a + len ≤ kindScratch (tileKind k) ∧
  ((s.tile k).tenant = 0 ∨
    ∀ seg, a / 16384 ≤ seg → seg ≤ (a + len - 1) / 16384 → s.segTag k seg = (s.tile k).tenant.toNat) ∧
  (s.dom (s.domOf k)).loupe = false

/-- Allowed bytes, all with good parity. -/
def Readable (s : State) (k a len : Nat) : Prop := Allowed s k a len ∧ s.scrBad k a len = []

/-- The scratch of the wafer differs from before in the bytes `bs` stored at offset `a` of tile `k`, and in nothing
else; those bytes have good parity, every other byte keeps its own. -/
def Stored (s t : State) (k a : Nat) (bs : List Byte) : Prop :=
  (∀ i, i < bs.length → memGet 0 (scrKey k a + i) t.wafer.scratch = bs.getD i 0) ∧
  (∀ x, (x < scrKey k a ∨ scrKey k a + bs.length ≤ x) → memGet 0 x t.wafer.scratch = memGet 0 x s.wafer.scratch) ∧
  (∀ x, x ∈ t.wafer.scratchBad ↔ x ∈ s.wafer.scratchBad ∧ (x < scrKey k a ∨ scrKey k a + bs.length ≤ x))

/-- The flits a tile offers to its router, from scratch at an offset, in address order, with their stored parity (R114, R190). -/
def Offers (s t : State) (k a m : Nat) (head : List Flit) (kind : FlitKind) : Prop :=
  ∃ fs : List Flit, (t.tile k).outbox = (s.tile k).outbox ++ head ++ fs ∧ fs.length = m ∧
    ∀ i, i < m → ∃ f, fs[i]? = some f ∧ f.bytes = s.scr k (a + 128 * i) 128 ∧ f.src = k ∧ f.kind = kind ∧ f.beat = s.beatOf k ∧
      ∀ x, x ∈ f.bad ↔ x < 128 ∧ (scrKey k (a + 128 * i) + x) ∈ s.wafer.scratchBad

/-- A counter has grown by `n`, stopping at its top value (R13). -/
def Counts (s t : State) (a n : Nat) : Prop := (t.reg64 a).toNat = min ((s.reg64 a).toNat + n) (2 ^ 64 - 1)

/-- Register `a` takes the value that waits for its safe point, if one does (R351); every other register, staged and committed
value stays. -/
def TakesCommitted (s t : State) (a : Nat) : Prop :=
  (∀ x, t.reg64 x = if x = a then s.committedOf a else s.reg64 x) ∧ t.reg.staged = s.reg.staged ∧
  ∀ x, kvFind x t.reg.committed = if x = a then none else kvFind x s.reg.committed

/-- Every register outside a list keeps its value. -/
def RegsBut (s t : State) (l : List Nat) : Prop := ∀ x, x ∉ l → t.reg64 x = s.reg64 x

/-- The registers that writing a journal entry of a repair, fault or violation kind may change: the fault log's pointers and
overflow counter (R383) and those of the trace buffer (R452). -/
def noteRegs : List Nat := [aLedgFlogPtr, aLedgFlogAck, aLedgFlogOvfCnt, aDbgTracePtr, aDbgTraceDropCnt]

/-- One entry has been added to the journal (R379). -/
def Noted (s t : State) (kind payload : Nat) : Prop :=
  t.keep.ledger.journal = s.keep.ledger.journal ++
    [{ kind := kind, time := BitVec.ofNat 32 s.calendar, payload := BitVec.ofNat 64 payload }]

end Sys2Proof.Machine

open Sys2Proof Sys2Proof.Machine

/-! ### The queue of commands -/

/-- a step runs the command at the front of the queue on the state with the queue's rest. -/
def Obligations.StepRunsTheFrontCommand : Prop :=
  ∀ (c : Instr) (rest : List Instr) (s : State),
    step { s with pending := c :: rest } = exec c { s with pending := rest }

/-! ### The scalar pair (R125, R126, R198) -/

/-- The arithmetic of the scalar pair (R198), each instruction with the value it writes. -/
def Obligations.ScalarArithmeticWritesItsResult : Prop :=
  ∀ (s : State) (w : At) (dst a b : BitVec 5) (imm : Half), Ready s w [2] →
    let k := w.tile.toNat
    let x := seqGp (s.tile k).seq a
    let y := seqGp (s.tile k).seq b
    let i : Word := BitVec.ofInt 64 imm.toInt
    (∃ t, exec (.sclAdd w dst a b) s = .next t ∧ WroteGp s t k dst (x + y)) ∧
    (∃ t, exec (.sclSub w dst a b) s = .next t ∧ WroteGp s t k dst (x - y)) ∧
    (∃ t, exec (.sclAnd w dst a b) s = .next t ∧ WroteGp s t k dst (x &&& y)) ∧
    (∃ t, exec (.sclOr w dst a b) s = .next t ∧ WroteGp s t k dst (x ||| y)) ∧
    (∃ t, exec (.sclXor w dst a b) s = .next t ∧ WroteGp s t k dst (x ^^^ y)) ∧
    (∃ t, exec (.sclSll w dst a b) s = .next t ∧ WroteGp s t k dst (BitVec.ofNat 64 (x.toNat * 2 ^ (y.toNat % 64)))) ∧
    (∃ t, exec (.sclSrl w dst a b) s = .next t ∧ WroteGp s t k dst (BitVec.ofNat 64 (x.toNat / 2 ^ (y.toNat % 64)))) ∧
    (∃ t, exec (.sclSra w dst a b) s = .next t ∧ WroteGp s t k dst (BitVec.ofInt 64 (x.toInt / 2 ^ (y.toNat % 64)))) ∧
    (∃ t, exec (.sclSlt w dst a b) s = .next t ∧ WroteGp s t k dst (if x.toInt < y.toInt then 1 else 0)) ∧
    (∃ t, exec (.sclSltu w dst a b) s = .next t ∧ WroteGp s t k dst (if x.toNat < y.toNat then 1 else 0)) ∧
    (∃ t, exec (.sclMul w dst a b) s = .next t ∧ WroteGp s t k dst (BitVec.ofNat 64 (x.toNat * y.toNat))) ∧
    (∃ t, exec (.sclMulhu w dst a b) s = .next t ∧
      WroteGp s t k dst (BitVec.ofNat 64 (x.toNat * y.toNat / 2 ^ 64))) ∧
    (∃ t, exec (.sclDivu w dst a b) s = .next t ∧
      WroteGp s t k dst (if y = 0 then BitVec.ofNat 64 (2 ^ 64 - 1) else BitVec.ofNat 64 (x.toNat / y.toNat))) ∧
    (∃ t, exec (.sclRemu w dst a b) s = .next t ∧
      WroteGp s t k dst (if y = 0 then x else BitVec.ofNat 64 (x.toNat % y.toNat))) ∧
    (∃ t, exec (.sclAddi w dst a imm) s = .next t ∧ WroteGp s t k dst (x + i)) ∧
    (∃ t, exec (.sclAndi w dst a imm) s = .next t ∧ WroteGp s t k dst (x &&& i)) ∧
    (∃ t, exec (.sclOri w dst a imm) s = .next t ∧ WroteGp s t k dst (x ||| i)) ∧
    (∃ t, exec (.sclLi w dst imm) s = .next t ∧ WroteGp s t k dst i) ∧
    (∃ t, exec (.sclLih w dst imm) s = .next t ∧
      WroteGp s t k dst (BitVec.ofNat 64 (imm.toNat * 2 ^ 32 + (seqGp (s.tile k).seq dst).toNat % 2 ^ 32))) ∧
    (∃ t, exec (.sclFromp w dst a) s = .next t ∧
      WroteGp s t k dst (BitVec.ofNat 64 (seqPtr (s.tile k).seq (BitVec.ofNat 4 (a.toNat % 16))).addr.toNat))

/-- SCL.TOP, and the loads and stores of the scalar pair (R198): the address is SRC1 + IMM aligned down to the access
size; a load zero-extends; a store writes the low bytes of SRC2, little-endian, and no other byte. -/
def Obligations.ScalarLoadsStoresAndPointers : Prop :=
  ∀ (s : State) (w : At) (dst a b : BitVec 5) (imm : Half), Ready s w [2] →
    let k := w.tile.toNat
    let q := (s.tile k).seq
    let place (size : Nat) : Nat := (seqGp q a + BitVec.ofInt 64 imm.toInt).toNat / size * size
    let stored (t : State) (size : Nat) : Prop :=
      Stored s t k (place size) ((List.range size).map (fun i => BitVec.ofNat 8 ((seqGp q b).toNat / 256 ^ i))) ∧
      t.tile k = { s.tile k with seq := seqNext q } ∧ OnlyTileScratch s t k ∧ Retired s t k
    (∃ t q', exec (.sclTop w dst a b) s = .next t ∧
      (∀ n : BitVec 4, seqPtr q' n = if n.toNat = dst.toNat % 16
        then { addr := BitVec.ofNat 22 (seqGp q a).toNat, stride := BitVec.ofNat 22 (seqGp q b).toNat }
        else seqPtr q n) ∧
      q' = { q with ptrs := q'.ptrs } ∧ Done s t k q') ∧
    (Readable s k (place 8) 8 → ∃ t, exec (.sclLd w dst a imm) s = .next t ∧
      WroteGp s t k dst (BitVec.ofNat 64 (leNat (s.scr k (place 8) 8)))) ∧
    (Readable s k (place 4) 4 → ∃ t, exec (.sclLw w dst a imm) s = .next t ∧
      WroteGp s t k dst (BitVec.ofNat 64 (leNat (s.scr k (place 4) 4)))) ∧
    (Readable s k (place 1) 1 → ∃ t, exec (.sclLb w dst a imm) s = .next t ∧
      WroteGp s t k dst (BitVec.ofNat 64 (leNat (s.scr k (place 1) 1)))) ∧
    (Allowed s k (place 8) 8 → ∃ t, exec (.sclSd w a b imm) s = .next t ∧ stored t 8) ∧
    (Allowed s k (place 4) 4 → ∃ t, exec (.sclSw w a b imm) s = .next t ∧ stored t 4) ∧
    (Allowed s k (place 1) 1 → ∃ t, exec (.sclSb w a b imm) s = .next t ∧ stored t 1)

/-- The branches of the scalar pair (R187, R198): taken, the tile continues at instruction IMM and leaves every loop
level, from the innermost, whose body does not hold it; not taken, at the next instruction. -/
def Obligations.ScalarBranchesContinue : Prop :=
  ∀ (s : State) (w : At) (a b : BitVec 5) (imm : Half), Ready s w [2] →
    let k := w.tile.toNat
    let q := (s.tile k).seq
    let x := seqGp q a
    let y := seqGp q b
    let goes (t : State) (taken : Prop) : Prop :=
      OnlyTile s t k ∧ Retired s t k ∧ t.tile k = { s.tile k with seq := (t.tile k).seq } ∧
      (taken → ∃ left kept, q.loops = left ++ kept ∧
        (t.tile k).seq = { q with idx := BitVec.ofNat 13 imm.toNat, loops := kept } ∧
        (∀ l ∈ left, imm.toNat % 8192 < l.start ∨ l.last < imm.toNat % 8192) ∧
        (∀ l, kept.head? = some l → l.start ≤ imm.toNat % 8192 ∧ imm.toNat % 8192 ≤ l.last)) ∧
      (¬ taken → (t.tile k).seq = seqNext q)
    (∃ t, exec (.sclBeq w a b imm) s = .next t ∧ goes t (x = y)) ∧
    (∃ t, exec (.sclBne w a b imm) s = .next t ∧ goes t (x ≠ y)) ∧
    (∃ t, exec (.sclBlt w a b imm) s = .next t ∧ goes t (x.toInt < y.toInt)) ∧
    (∃ t, exec (.sclBge w a b imm) s = .next t ∧ goes t (y.toInt ≤ x.toInt)) ∧
    (∃ t, exec (.sclBltu w a b imm) s = .next t ∧ goes t (x.toNat < y.toNat)) ∧
    (∃ t, exec (.sclJmp w imm) s = .next t ∧ goes t True)

/-! ### Control, flags and queues (R155 to R158, R181 to R191, R456) -/

/-- NOP and the pointer and loop instructions (R181, R186).

The end of a loop body (R187): at the body's last instruction, every pointer register that ADV names has its STRIDE
added, modulo 2^22, at the end of every iteration, the last one included; then the body is repeated, or the loop is left.
Stated of the innermost body, where no other body ends at the same instruction. -/
def Obligations.PointerAndLoopInstructions : Prop :=
  (∀ (s : State) (w : At) (count adv : BitVec 16) (body : BitVec 13) (p : BitVec 4) (addr stride inc : BitVec 22),
    Ready s w [0, 1, 2] →
    let k := w.tile.toNat
    let q := (s.tile k).seq
    (∃ t, exec (.nop w) s = .next t ∧ Done s t k q) ∧
    (∃ t, exec (.loopBegin w count body adv) s = .next t ∧
      t.tile k = { s.tile k with seq := { q with
        idx := q.idx + 1
        loops := { remain := count, start := q.idx.toNat + 1, last := q.idx.toNat + body.toNat, adv := adv } :: q.loops } } ∧
      OnlyTile s t k ∧ Retired s t k) ∧
    (∃ t q', exec (.loopPset w p addr stride) s = .next t ∧
      (∀ n, seqPtr q' n = if n = p then { addr := addr, stride := stride } else seqPtr q n) ∧
      q' = { q with ptrs := q'.ptrs } ∧ Done s t k q') ∧
    (∃ t q', exec (.loopPadd w p inc) s = .next t ∧
      (∀ n, seqPtr q' n =
        if n = p then { addr := BitVec.ofNat 22 ((seqPtr q p).addr.toNat + inc.toNat), stride := (seqPtr q p).stride }
        else seqPtr q n) ∧
      q' = { q with ptrs := q'.ptrs } ∧ Done s t k q')) ∧
  (∀ (q : Seq) (l : LoopLevel) (rest : List LoopLevel), q.loops = l :: rest → l.last = q.idx.toNat →
    (∀ m ∈ rest, m.last ≠ q.idx.toNat) →
    (∀ n : BitVec 4, seqPtr (seqNext q) n =
      if l.adv.getLsbD n.toNat
      then { addr := BitVec.ofNat 22 ((seqPtr q n).addr.toNat + (seqPtr q n).stride.toNat), stride := (seqPtr q n).stride }
      else seqPtr q n) ∧
    (seqNext q).gp = q.gp ∧ (seqNext q).acc = q.acc ∧ (seqNext q).remoteOut = q.remoteOut ∧
    (l.remain ≠ 0 → (seqNext q).idx = BitVec.ofNat 13 l.start ∧
      (seqNext q).loops = { l with remain := l.remain - 1 } :: rest) ∧
    (l.remain = 0 → (seqNext q).idx = q.idx + 1 ∧ (seqNext q).loops = rest))

/-- BAR of a native choreography (R161, R164, R185): the tile waits at its barrier, its resume point is NEXT if JUMP is set
and else the following instruction, and its domain has its arrival, with the tile's error mark.

BAR waits while remote operations are outstanding (R290).

The model's own choices it rests on: a command whose condition is false leaves the state (notes/assumptions/10.md). -/
def Obligations.BarArrivesOrWaits : Prop :=
  (∀ (s : State) (w : At) (jump : Bool) (next : BitVec 13), Ready s w [0, 1, 2] →
    let k := w.tile.toNat
    let d := s.domOf k
    (s.tile k).seq.remoteOut = 0 → s.beatOf k = 0 →
    ∃ t, exec (.bar w jump next) s = .next t ∧
      t.tile k = { s.tile k with
        seq := if jump then { (s.tile k).seq with idx := next } else seqNext (s.tile k).seq
        wait := .barrier
        mark := false } ∧
      t.dom d = { s.dom d with
        arrived := (t.dom d).arrived
        mark := (s.dom d).mark || (s.tile k).mark } ∧
      (∀ j, j ∈ (t.dom d).arrived ↔ j = k ∨ j ∈ (s.dom d).arrived) ∧
      (∀ e, e ≠ d → t.dom e = s.dom e) ∧ (∀ j, j ≠ k → t.tile j = s.tile j) ∧ Retired s t k ∧
      t = { s with wafer.tiles := t.wafer.tiles, con.doms := t.con.doms, reg.vals := t.reg.vals, watch := t.watch }) ∧
  (∀ (s : State) (w : At) (jump : Bool) (next : BitVec 13), w.fault = false →
    (s.tile w.tile.toNat).seq.remoteOut ≠ 0 → exec (.bar w jump next) s = .next s)

/-- FLAG.WAIT and FLAG.SIGNAL, the arrival of a signal, and the answer to a wait (R155, R156, R188, R456): a wait is a request
to the sync block; a signal adds its amount when it reaches the block; the block answers once the count is at least the value
asked for, and subtracts it.

A flag operation against the assignment, or above the flag's top value (R156, R172, R173): the flag keeps its value, the
tile's master is frozen, the violation's kind is recorded and counted, and the domain has STATE 6.

The model's own choices it rests on: what VIOL_ADDR holds (notes/assumptions/40.md). -/
def Obligations.FlagInstructionsAndViolations : Prop :=
  (∀ (s : State) (w : At) (flag : BitVec 18) (value : BitVec 16),
    let k := w.tile.toNat
    let h := flag.toNat
    (Ready s w [0, 1, 2] → (s.flag h).cho ≠ none → (s.flag h).waiter = k →
      ∃ t, exec (.flagWait w flag value) s = .next t ∧
        t.flag h = { s.flag h with request := some value } ∧ (∀ g, g ≠ h → t.flag g = s.flag g) ∧
        t.tile k = { s.tile k with wait := .flag flag value } ∧ (∀ j, j ≠ k → t.tile j = s.tile j) ∧
        t = { s with wafer.tiles := t.wafer.tiles, con.flags := t.con.flags }) ∧
    (Ready s w [0, 1, 2] → s.beatOf k = 0 →
      ∃ t, exec (.flagSignal w flag value) s = .next t ∧
        t.wafer.signals = s.wafer.signals ++ [{ tile := k, flag := flag, amount := value, beat := 0 }] ∧
        t.tile k = { s.tile k with seq := seqNext (s.tile k).seq } ∧ (∀ j, j ≠ k → t.tile j = s.tile j) ∧
        Retired s t k ∧
        t = { s with
              wafer.tiles := t.wafer.tiles
              wafer.signals := t.wafer.signals
              reg.vals := t.reg.vals
              watch := t.watch }) ∧
    (∀ before after : List Signal, s.wafer.signals = before ++ [{ tile := k, flag := flag, amount := value, beat := 0 }] ++ after →
      (∀ g ∈ before, ¬ (g.tile = k ∧ g.flag = flag)) →
      (s.flag h).cho ≠ none → k ∈ (s.flag h).signallers → (s.flag h).count.toNat + value.toNat ≤ 65535 →
      ∃ t, exec (.flagSignalArrive w.tile flag) s = .next t ∧
        t.wafer.signals = before ++ after ∧
        t.flag h = { s.flag h with count := (s.flag h).count + value } ∧ (∀ g, g ≠ h → t.flag g = s.flag g) ∧
        Progressed s t k ∧
        t = { s with wafer.signals := t.wafer.signals, con.flags := t.con.flags, watch := t.watch }) ∧
    ((s.flag h).request = some value → (s.flag h).waiter = k → (s.tile k).wait = .flag flag value →
      value.toNat ≤ (s.flag h).count.toNat → s.beatOf k = 0 →
      ∃ t, exec (.flagWaitAnswer w.tile flag) s = .next t ∧
        t.flag h = { s.flag h with count := (s.flag h).count - value, request := none } ∧
        (∀ g, g ≠ h → t.flag g = s.flag g) ∧
        t.tile k = { s.tile k with wait := .no, seq := seqNext (s.tile k).seq } ∧ (∀ j, j ≠ k → t.tile j = s.tile j) ∧
        Retired s t k ∧
        t = { s with
              wafer.tiles := t.wafer.tiles
              con.flags := t.con.flags
              reg.vals := t.reg.vals
              watch := t.watch })) ∧
  (∀ (s : State) (w : At) (flag : BitVec 18) (value : BitVec 16),
    let k := w.tile.toNat
    let h := flag.toNat
    let broke (t : State) (kind : Nat) : Prop :=
      t.con.flags = s.con.flags ∧ t.frozenAt 0 k = true ∧ t.rfld aChoViolInfo 7 0 = kind ∧
      t.rfld aChoViolInfo 29 16 = k ∧ (t.reg64 aChoViolCnt).toNat = min ((s.reg64 aChoViolCnt).toNat + 1) (2 ^ 64 - 1) ∧
      (s.dom (s.domOf k)).state ≠ 0 ∧ (t.dom (s.domOf k)).state = 6
    (Ready s w [0, 1, 2] → ((s.flag h).cho = none ∨ (s.flag h).waiter ≠ k) →
      ∃ t, exec (.flagWait w flag value) s = .next t ∧ broke t 6) ∧
    (∀ after : List Signal, s.wafer.signals = { tile := k, flag := flag, amount := value, beat := 0 } :: after →
      (s.dom (s.domOf k)).state ≠ 0 →
      ((s.flag h).cho = none ∨ k ∉ (s.flag h).signallers →
        ∃ t, exec (.flagSignalArrive w.tile flag) s = .next t ∧ broke t 6) ∧
      ((s.flag h).cho ≠ none → k ∈ (s.flag h).signallers → 65535 < (s.flag h).count.toNat + value.toNat →
        ∃ t, exec (.flagSignalArrive w.tile flag) s = .next t ∧ broke t 5)))

/-- QUEUE.TAKE, PEEK and RELEASE by the queue's consumer when it holds N flits (R157, R158, R189): TAKE copies the flits, in
ring order, to scratch at Pn with their stored bytes and releases them; PEEK points Pn at the head flit; RELEASE releases N
flits. A GATED queue keeps the slots occupied for its producers.

QUEUE.TAKE, PEEK and RELEASE wait by handshake while the queue does not hold N flits (R189): nothing changes.

The model's own choices it rests on: a command whose condition is false leaves the state (notes/assumptions/10.md). -/
def Obligations.QueueInstructionsActOrWait : Prop :=
  (∀ (s : State) (w : At) (p : BitVec 4) (n : BitVec 12) (queue : BitVec 16), Ready s w [0, 1, 2] →
    let k := w.tile.toNat
    let h := queue.toNat
    let x := s.queue h
    let m := n.toNat + 1
    let dst := (seqPtr (s.tile k).seq p).addr.toNat / 128 * 128
    x.cho ≠ none → x.consumer = k → m ≤ (x.pub + 2 * x.depth - x.head) % (2 * x.depth) → s.beatOf k = 0 →
    let released (t : State) : Prop :=
      t.queue h = { x with
        head := (x.head + m) % (2 * x.depth)
        free := if x.gated then x.free else (x.head + m) % (2 * x.depth) } ∧
      ∀ g, g ≠ h → t.queue g = s.queue g
    (Allowed s k dst (128 * m) →
      (∀ i, i < m → x.store + 128 * ((x.head + i) % (2 * x.depth) % x.depth) + 128 ≤ dst ∨
        dst + 128 * m ≤ x.store + 128 * ((x.head + i) % (2 * x.depth) % x.depth)) →
      ∃ t, exec (.queueTake w p n queue) s = .next t ∧ released t ∧
        (∀ i, i < m → t.scr k (dst + 128 * i) 128 = s.scr k (x.store + 128 * ((x.head + i) % (2 * x.depth) % x.depth)) 128) ∧
        (∀ a, (a < scrKey k dst ∨ scrKey k dst + 128 * m ≤ a) →
          memGet 0 a t.wafer.scratch = memGet 0 a s.wafer.scratch) ∧
        t.tile k = { s.tile k with seq := seqNext (s.tile k).seq } ∧ (∀ j, j ≠ k → t.tile j = s.tile j) ∧ Retired s t k ∧
        t = { s with
              wafer.tiles := t.wafer.tiles
              wafer.scratch := t.wafer.scratch
              wafer.scratchBad := t.wafer.scratchBad
              con.queues := t.con.queues
              reg.vals := t.reg.vals
              watch := t.watch }) ∧
    (∃ t q', exec (.queuePeek w p n queue) s = .next t ∧
      (∀ i, seqPtr q' i = if i = p
        then { seqPtr (s.tile k).seq p with addr := BitVec.ofNat 22 (x.store + 128 * (x.head % x.depth)) }
        else seqPtr (s.tile k).seq i) ∧
      q' = { (s.tile k).seq with ptrs := q'.ptrs } ∧ Done s t k q') ∧
    (∃ t, exec (.queueRelease w n queue) s = .next t ∧ released t ∧
      t.tile k = { s.tile k with seq := seqNext (s.tile k).seq } ∧ (∀ j, j ≠ k → t.tile j = s.tile j) ∧ Retired s t k ∧
      t = { s with
            wafer.tiles := t.wafer.tiles
            con.queues := t.con.queues
            reg.vals := t.reg.vals
            watch := t.watch })) ∧
  (∀ (s : State) (w : At) (p : BitVec 4) (n : BitVec 12) (queue : BitVec 16), w.fault = false →
    let x := s.queue queue.toNat
    x.cho ≠ none → x.consumer = w.tile.toNat → (x.pub + 2 * x.depth - x.head) % (2 * x.depth) < n.toNat + 1 →
    exec (.queueTake w p n queue) s = .next s ∧ exec (.queuePeek w p n queue) s = .next s ∧
    exec (.queueRelease w n queue) s = .next s)

/-! ### MOVE (R190, R191, R286 to R290) -/

/-- MOVE.SEND, PUT, RECV, SRD and SWR (R114, R137, R157, R190, R191, R209, R212), by a running tile that may reach its buffer:
SEND and PUT, PUT by a producer of its queue, offer the N flits from Pn, in address order and with their stored parity, and wait
until the last is taken; RECV waits for the next N flits and has Pn for them; SRD asks the stacks for N flits from the address
of the record at PX, aligned down to a flit, has Pn for their return and moves on; SWR announces a write of N flits there and
offers the N flits from Pn. The requests of SRD and SWR follow one another from that address without a gap, of 1 to 4 flits
each, none across a page, each at the stack of its own address.

The model's own choices it rests on: how a stack access is split into requests (notes/assumptions/13.md); SEND and PUT take their flits when they start (notes/assumptions/44.md). -/
def Obligations.MoveInstructions : Prop :=
  ∀ (s : State) (w : At) (p px : BitVec 4) (n : BitVec 12) (queue : BitVec 16), Ready s w [0, 1, 2] →
    let k := w.tile.toNat
    let m := n.toNat + 1
    let a := (seqPtr (s.tile k).seq p).addr.toNat / 128 * 128
    let rec8 := (seqPtr (s.tile k).seq px).addr.toNat / 16 * 16
    let place := leNat (s.scr k rec8 8) % 2 ^ 48 / 128 * 128
    Allowed s k a (128 * m) →
    let requests (rs : List StackReq) (data : Option (List Flit)) : Prop :=
      (rs.map (fun r => r.flits)).sum = m ∧
      ∀ i r, rs[i]? = some r → r.who = .tile k ∧ r.data = data ∧ 1 ≤ r.flits ∧ r.flits ≤ 4 ∧
        r.addr = place + 128 * ((rs.take i).map (fun q => q.flits)).sum ∧ r.addr % 65536 + 128 * r.flits ≤ 65536
    (∃ t, exec (.moveSend w p n) s = .next t ∧ Offers s t k a m [] .plain ∧
      t.tile k = { s.tile k with outbox := (t.tile k).outbox, wait := .sending } ∧
      (∀ j, j ≠ k → t.tile j = s.tile j) ∧ t = { s with wafer.tiles := t.wafer.tiles }) ∧
    (∃ t, exec (.moveRecv w p n) s = .next t ∧ t.tile k = { s.tile k with wait := .recv a m } ∧
      (∀ j, j ≠ k → t.tile j = s.tile j) ∧ t = { s with wafer.tiles := t.wafer.tiles }) ∧
    ((s.queue queue.toNat).cho ≠ none → k ∈ (s.queue queue.toNat).producers →
      ∃ t, exec (.movePut w p n queue) s = .next t ∧ Offers s t k a m [] .plain ∧
        t.tile k = { s.tile k with outbox := (t.tile k).outbox, wait := .sending } ∧
        (∀ j, j ≠ k → t.tile j = s.tile j) ∧ t = { s with wafer.tiles := t.wafer.tiles }) ∧
    (Readable s k rec8 8 → s.stackAllows (s.tile k).tenant.toNat place (128 * m) = true →
      (∃ t, exec (.moveSrd w p px n) s = .next t ∧
        t.tile k = { s.tile k with
          reads := (s.tile k).reads ++ [{ addr := a, left := m }], seq := seqNext (s.tile k).seq } ∧
        (∀ j, j ≠ k → t.tile j = s.tile j) ∧ Retired s t k ∧
        (∃ rs, requests rs none ∧
          ∀ j, t.stack j = { s.stack j with queue := (s.stack j).queue ++ rs.filter (fun r => r.addr / 2 ^ 37 == j) }) ∧
        t = { s with
              wafer.tiles := t.wafer.tiles
              mem.stackUnits := t.mem.stackUnits
              reg.vals := t.reg.vals
              watch := t.watch }) ∧
      (∃ t, exec (.moveSwr w p px n) s = .next t ∧ Offers s t k a m [] .plain ∧
        t.tile k = { s.tile k with outbox := (t.tile k).outbox, wait := .sending } ∧
        (∀ j, j ≠ k → t.tile j = s.tile j) ∧
        (∃ rs, requests rs (some []) ∧
          ∀ j, t.stack j = { s.stack j with coming := (s.stack j).coming ++ rs.filter (fun r => r.addr / 2 ^ 37 == j) }) ∧
        t = { s with wafer.tiles := t.wafer.tiles, mem.stackUnits := t.mem.stackUnits }))

/-- MOVE.RRD, RWR and RFLAG (R286, R287, R288, R290, R351): with a sound record and a free entry in the completion table of its edge
group, the operation takes the lowest free entry, its header flit, then its data flits, are offered to the router, and one
more remote operation is outstanding; for RRD the buffer at Pn waits for the returned data.

The model's own choices it rests on: an operation starts in the table of its EDGE field (notes/assumptions/14.md); the lowest free numbers (notes/assumptions/26.md). -/
def Obligations.RemoteInstructionsTakeACompletionEntry : Prop :=
  ∀ (s : State) (w : At) (p px : BitVec 4) (n : BitVec 12), Ready s w [0, 1, 2] →
    let k := w.tile.toNat
    let m := n.toNat + 1
    let a := (seqPtr (s.tile k).seq p).addr.toNat / 128 * 128
    let rec32 := (seqPtr (s.tile k).seq px).addr.toNat / 16 * 16
    let r := wordsOf (s.scr k rec32 32)
    let edge := recFld r 0 11 10
    s.frozenAt 1 k = false → Readable s k rec32 32 →
    recFld r 0 9 0 ≠ s.rfld aFabModId 9 0 → recFld r 1 39 0 % 128 = 0 → recFld r 0 63 24 = 0 → recFld r 1 63 40 = 0 →
    recFld r 2 63 20 = 0 → wordAt r 3 = 0 → ((s.fab.ctab.map Prod.fst).filter (fun e => e / 32768 == edge)).length < 32768 →
    kvRising s.fab.ctab = true →
    let issued (t : State) (op len : Nat) (land : List ReadBuf) (data : Nat) : Prop :=
      ∃ tag e h, edge * 32768 ≤ tag ∧ tag < (edge + 1) * 32768 ∧ kvFind tag s.fab.ctab = none ∧
        (∀ i, edge * 32768 ≤ i → i < tag → kvFind i s.fab.ctab ≠ none) ∧
        kvFind tag t.fab.ctab = some e ∧ (∀ i, i ≠ tag → kvFind i t.fab.ctab = kvFind i s.fab.ctab) ∧
        e.tile = k ∧ e.op.toNat = op ∧ e.owner.toNat = recFld r 0 9 0 ∧ e.window.toNat = recFld r 0 23 12 ∧
        e.edge.toNat = edge ∧ e.tenant = (s.tile k).tenant ∧ e.since = s.clock ∧
        e.limit = fld (s.committedOf aFabRcompTmo) 9 0 ∧ e.kept = false ∧ e.live = true ∧
        h.kind = .header ∧ h.src = k ∧ h.bad = [] ∧ h.bytes = headerBytes
          { op := BitVec.ofNat 4 op, dest := e.owner, src := BitVec.ofNat 10 (s.rfld aFabModId 9 0), tenant := e.tenant
            window := e.window, edge := e.edge, len := BitVec.ofNat 12 len
            offset := BitVec.ofNat 40 (recFld r 1 39 0), tag := BitVec.ofNat 17 tag, srcTile := w.tile, status := 0
            value := if op = 3 then BitVec.ofNat 8 (recFld r 2 19 12) else 0
            flag := if op = 3 then BitVec.ofNat 12 (recFld r 2 11 0) else 0 } ∧
        Offers s t k a data [h] .remote ∧
        t.tile k = { s.tile k with
          outbox := (t.tile k).outbox, wait := .sending, ctabWait := false, reads := (s.tile k).reads ++ land
          seq := { (s.tile k).seq with remoteOut := (s.tile k).seq.remoteOut + 1 } } ∧
        (∀ j, j ≠ k → t.tile j = s.tile j) ∧ TakesCommitted s t aFabRcompTmo ∧
        t = { s with
              wafer.tiles := t.wafer.tiles
              fab.ctab := t.fab.ctab
              reg.vals := t.reg.vals
              reg.committed := t.reg.committed }
    (Allowed s k a (128 * m) → ∃ t, exec (.moveRwr w p px n) s = .next t ∧ issued t 1 n.toNat [] m) ∧
    (Allowed s k a (128 * m) → ∃ t, exec (.moveRrd w p px n) s = .next t ∧ issued t 2 n.toNat [{ addr := a, left := m }] 0) ∧
    (∃ t, exec (.moveRflag w px) s = .next t ∧ issued t 3 0 [] 0)

/-! ### The vector tile (R117 to R124, R195 to R197, R260, R261) -/

namespace Sys2Proof.Machine

/-- The result bits `x` of a SIMD element in a format (0 FP32, 1 BF16, 2 INT8) for the exact value `v` (R118): rounded to
nearest, ties to even; INT8 saturated; a NaN result is a NaN, and the quiet NaN of R93 when an operand was one. -/
def ElemIs (fmt : Nat) (nanIn : Bool) (v : Fv) (x : Nat) : Prop :=
  if fmt = 2 then x = (toInt8 v % 256).toNat
  else
    let f := if fmt = 0 then fp32 else bf16
    if v = .nan then fdec f x = .nan ∧ (nanIn = true → x = qnan f) else x = fenc f v

/-- What a VEC instruction of tile `k` leaves beside its result: the sequencer moves on, one SIMD cycle is counted, the
watchdog of the domain counts anew, nothing but scratch, the tile and registers differs. -/
def VecDone (s t : State) (k cnt n : Nat) : Prop :=
  t.tile k = { s.tile k with seq := seqNext (s.tile k).seq } ∧ OnlyTileScratch s t k ∧
  OnlyCounter s t cnt n ∧ Progressed s t k

/-- An element-wise instruction has written `f` of its operands' elements (R195). -/
def VecWrote (s t : State) (k : Nat) (o : VecOps) (useB useC first : Bool) (f : Fv → Fv → Fv → Fv) : Prop :=
  let fm := o.fmt.toNat
  let n := o.elems.toNat + 1
  let d := s.ptr16 k o.dst
  let size := elemLen fm 1
  let bitsAt (p : BitVec 4) (i : Nat) : Nat := leNat (s.scr k (s.ptr16 k p + size * i) size)
  (∀ i, i < n →
    let a := elemVal fm (bitsAt o.srcA i)
    let b := elemVal fm (bitsAt o.srcB i)
    let c := elemVal fm (bitsAt o.srcC (if first then 0 else i))
    ElemIs fm (isNan a || (useB && isNan b) || (useC && isNan c)) (f a (if useB then b else elemVal fm 0) (if useC then c else elemVal fm 0))
      (leNat (t.scr k (d + size * i) size))) ∧
  (∃ bs, bs.length = size * n ∧ Stored s t k d bs) ∧
  VecDone s t k (aVecwSimdOpCnt k) 1

/-- The operands of a VEC instruction of `n` elements in its source format are readable, its result's bytes writable, and the
count is one that the load check admits (R180, R195). -/
def VecFits (s : State) (k : Nat) (o : VecOps) (srcs : List (BitVec 4 × Nat)) (len : Nat) : Prop :=
  countOk o.fmt.toNat o.dfmt.toNat (o.elems.toNat + 1) = true ∧
  (∀ e ∈ srcs, Readable s k (s.ptr16 k e.1) (elemLen o.fmt.toNat e.2)) ∧ Allowed s k (s.ptr16 k o.dst) len

end Sys2Proof.Machine

/-- ADD, SUB, MUL, FMA, MAX, MIN, ABS and SCALE in FP32, BF16 and INT8 (R117, R118, R195).

The model's own choices it rests on: MAX and MIN take -0 below +0 (notes/assumptions/16.md); the corners of the functions (notes/assumptions/45.md). -/
def Obligations.VecArithmeticWritesEveryElement : Prop :=
  ∀ (s : State) (w : At) (o : VecOps), Ready s w [1] → o.fmt.toNat ≤ 2 → o.dfmt = o.fmt →
    let k := w.tile.toNat
    let n := o.elems.toNat + 1
    let len := elemLen o.fmt.toNat n
    (VecFits s k o [(o.srcA, n), (o.srcB, n)] len →
      (∃ t, exec (.vecAdd w o) s = .next t ∧ VecWrote s t k o true false false (fun a b _ => fadd a b)) ∧
      (∃ t, exec (.vecSub w o) s = .next t ∧ VecWrote s t k o true false false (fun a b _ => fadd a (fopp b))) ∧
      (∃ t, exec (.vecMul w o) s = .next t ∧ VecWrote s t k o true false false (fun a b _ => fmul a b)) ∧
      (∃ t, exec (.vecMax w o) s = .next t ∧ VecWrote s t k o true false false
        (fun a b _ => if isNan a || isNan b then .nan else if fless a b then b else a)) ∧
      (∃ t, exec (.vecMin w o) s = .next t ∧ VecWrote s t k o true false false
        (fun a b _ => if isNan a || isNan b then .nan else if fless b a then b else a))) ∧
    (VecFits s k o [(o.srcA, n), (o.srcB, n), (o.srcC, n)] len →
      ∃ t, exec (.vecFma w o) s = .next t ∧ VecWrote s t k o true true false (fun a b c => fadd (fmul a b) c)) ∧
    (VecFits s k o [(o.srcA, n)] len →
      ∃ t, exec (.vecAbs w o) s = .next t ∧ VecWrote s t k o false false false (fun a _ _ => fabs a)) ∧
    (VecFits s k o [(o.srcA, n), (o.srcC, 1)] len →
      ∃ t, exec (.vecScale w o) s = .next t ∧ VecWrote s t k o false true true (fun a _ c => fmul a c))

/-- EXP2, LOG2, RCP and RSQRT accept only FP32 (R195), and write the rounded value of the model's working value of the
function for every element.

The special inputs of R118, as bit patterns in FP32: exp2 of the infinities, log2 of the zeros and of negative values, rcp
of the zeros, rsqrt of +0 and of negative values, and NaN inputs.

RCP is correctly rounded (R118): for a positive finite input, no other pattern is nearer to the exact value;
stated by the exact inequalities that the value lies in the rounding interval of the result.

The model's own choices it rests on: the corners of the functions (notes/assumptions/45.md). -/
def Obligations.VecFunctionsFollowTheirBounds : Prop :=
  (∀ (s : State) (w : At) (o : VecOps), Ready s w [1] → o.fmt = 0 → o.dfmt = 0 →
    let k := w.tile.toNat
    let n := o.elems.toNat + 1
    VecFits s k o [(o.srcA, n)] (4 * n) →
      (∃ t, exec (.vecExp2 w o) s = .next t ∧ VecWrote s t k o false false false (fun a _ _ => fexp2 a)) ∧
      (∃ t, exec (.vecLog2 w o) s = .next t ∧ VecWrote s t k o false false false (fun a _ _ => flog2 a)) ∧
      (∃ t, exec (.vecRcp w o) s = .next t ∧ VecWrote s t k o false false false (fun a _ _ => frcp a)) ∧
      (∃ t, exec (.vecRsqrt w o) s = .next t ∧ VecWrote s t k o false false false (fun a _ _ => frsqrt a))) ∧
  (let ev (f : Fv → Fv) (x : Nat) : Nat := fenc fp32 (f (fdec fp32 x))
  ev fexp2 0xFF800000 = 0 ∧ ev fexp2 0x7F800000 = 0x7F800000 ∧
  ev flog2 0 = 0xFF800000 ∧ ev flog2 0x80000000 = 0xFF800000 ∧
  (∀ x, 0x80000000 < x → x ≤ 0xFF800000 → fdec fp32 (ev flog2 x) = .nan) ∧
  ev frcp 0 = 0x7F800000 ∧ ev frcp 0x80000000 = 0xFF800000 ∧
  ev frsqrt 0 = 0x7F800000 ∧ (∀ x, 0x80000000 < x → x ≤ 0xFF800000 → fdec fp32 (ev frsqrt x) = .nan) ∧
  (∀ x, x < 2 ^ 32 → fdec fp32 x = .nan →
    ev fexp2 x = 0x7FC00000 ∧ ev flog2 x = 0x7FC00000 ∧ ev frcp x = 0x7FC00000 ∧ ev frsqrt x = 0x7FC00000)) ∧
  (∀ (m : Nat) (e : Int), 2 ^ 23 ≤ m → m < 2 ^ 24 → -120 ≤ e → e ≤ 70 →
    ∃ (r : Nat) (g : Int), 2 ^ 23 ≤ r ∧ r < 2 ^ 24 ∧
      fdec fp32 (fenc fp32 (frcp (.fin false m e))) = .fin false r g ∧
      (2 * r - 1) * m * 2 ^ (g + e + 200).toNat ≤ 2 * 2 ^ 200 ∧ 2 * 2 ^ 200 ≤ (2 * r + 1) * m * 2 ^ (g + e + 200).toNat)

/-- SUMRED, MAXRED and SQSUMRED (R195): in FP32 and BF16 from the seed C[0], elements in ascending index, each step rounded to
FP32, the result rounded once; in INT8 the exact sum, saturated once at the end.

COPY, CVT, ENC and DEC (R86, R89, R93, R104, R195): the bytes they write, and the numeric events they record for their
layer slot in the current step of the tile's domain.

The model's own choices it rests on: the corners of the functions (notes/assumptions/45.md). -/
def Obligations.VecReductionsCopiesAndConversions : Prop :=
  (∀ (s : State) (w : At) (o : VecOps), Ready s w [1] → o.fmt.toNat ≤ 2 → o.dfmt = o.fmt →
    let k := w.tile.toNat
    let n := o.elems.toNat + 1
    let fm := o.fmt.toNat
    let size := elemLen fm 1
    let vals := (List.range n).map (fun i => elemVal fm (leNat (s.scr k (s.ptr16 k o.srcA + size * i) size)))
    let seed := elemVal fm (leNat (s.scr k (s.ptr16 k o.srcC) size))
    let round (v : Fv) : Fv := if fm = 2 then v else fround fp32 v
    let wrote (t : State) (v : Fv) : Prop :=
      ElemIs fm (isNan seed || vals.any isNan) v (leNat (t.scr k (s.ptr16 k o.dst) size)) ∧
      (∃ bs, bs.length = size ∧ Stored s t k (s.ptr16 k o.dst) bs) ∧ VecDone s t k (aVecwSimdOpCnt k) 1
    VecFits s k o [(o.srcA, n), (o.srcC, 1)] size →
      (∃ t, exec (.vecSumred w o) s = .next t ∧ wrote t (vals.foldl (fun r a => round (fadd r a)) seed)) ∧
      (∃ t, exec (.vecMaxred w o) s = .next t ∧ wrote t (vals.foldl (fun r a => round (fmax r a)) seed)) ∧
      (∃ t, exec (.vecSqsumred w o) s = .next t ∧ wrote t (vals.foldl (fun r a => round (fadd (fmul a a) r)) seed))) ∧
  (∀ (s : State) (w : At) (o : VecOps), Ready s w [1] →
    let k := w.tile.toNat
    let d := s.domOf k
    let n := o.elems.toNat + 1
    let fm := o.fmt.toNat
    let df := o.dfmt.toNat
    let src := s.scr k (s.ptr16 k o.srcA) (elemLen fm n)
    let vals := elemVals fm n src
    let done (t : State) (bs : List Byte) (events : List (Nat × Nat)) : Prop :=
      Stored s t k (s.ptr16 k o.dst) bs ∧
      t.tile k = { s.tile k with seq := seqNext (s.tile k).seq } ∧ (∀ j, j ≠ k → t.tile j = s.tile j) ∧
      OnlyCounter s t (aVecwSimdOpCnt k) 1 ∧
      t.dom d = { s.dom d with events := (s.dom d).events ++
        (events.filter (fun e => e.2 != 0)).map (fun e =>
          { slot := o.lslot, kind := e.1, amount := e.2, beat := s.beatOf k }) } ∧
      (∀ e, e ≠ d → t.dom e = s.dom e) ∧ Progressed s t k ∧
      t = { s with
            wafer.tiles := t.wafer.tiles
            wafer.scratch := t.wafer.scratch
            wafer.scratchBad := t.wafer.scratchBad
            con.doms := t.con.doms
            reg.vals := t.reg.vals
            watch := t.watch }
    VecFits s k o [(o.srcA, n)] (elemLen df n) →
      (fm ≤ 4 → df = fm → ∃ t bs, exec (.vecCopy w o) s = .next t ∧ done t bs [] ∧ bs.length = elemLen fm n ∧
        elemVals fm n bs = vals ∧ (fm ≤ 2 → bs = src)) ∧
      (fm ≤ 2 → df ≤ 2 → ∃ t, exec (.vecCvt w o) s = .next t ∧
        done t (vals.flatMap (fun v => (cvtBytes df v).1))
          [(3, if vals.any (fun v => (cvtBytes df v).2) then 1 else 0), (5, if df = 2 ∧ vals.any isNan then 1 else 0)]) ∧
      (fm ≤ 1 → (df = 3 ∨ df = 4) → ∃ t, exec (.vecEnc w o) s = .next t ∧
        let es := encodeRun (df == 4) vals
        done t (runBytes (df == 4) es)
          [(2, es.countP (fun e => e.zero)), (3, es.countP (fun e => e.sat)), (5, es.countP (fun e => e.poison))]) ∧
      ((fm = 3 ∨ fm = 4) → df ≤ 1 → ∃ t, exec (.vecDec w o) s = .next t ∧
        done t (vals.flatMap (fun v => (cvtBytes df v).1))
          [(3, (chunks 32 n vals).countP (fun c => c.any (fun v => (cvtBytes df v).2)))]))

/-- A lockstep mismatch (R126): the instruction's effects are suppressed, the step is marked for replay and both
counters count it; the sequencer stays, so the instruction is executed again. A second mismatch within 1 s asks for the
tile's repair. Stated of instructions of every kind the pair executes.

A residue mismatch on a vector instruction (R124): the result is withheld from scratch, the step is marked for replay, the
operation counts like any other and the mismatch is counted, and the tile goes on to the next instruction.

The model's own choices it rests on: one mark per barrier attempt (notes/assumptions/39.md); a failing check is an operand of the execution (notes/assumptions/47.md). -/
def Obligations.ChecksMarkTheStepForReplay : Prop :=
  (∀ (s : State) (w : At) (jump : Bool) (next body : BitVec 13) (n16 adv : BitVec 16) (p px : BitVec 4) (addr : BitVec 22)
    (flag : BitVec 18) (n : BitVec 12) (dst a b : BitVec 5) (imm : Half),
    w.fault = true → s.runs w.tile.toNat = true → tileKind w.tile.toNat = 2 →
    ∀ c ∈ ([.nop w, .bar w jump next, .loopBegin w n16 body adv, .loopPset w p addr addr, .loopPadd w p addr,
        .flagWait w flag n16, .flagSignal w flag n16, .queueTake w p n n16, .queuePeek w p n n16, .queueRelease w n n16,
        .moveSend w p n, .moveRecv w p n, .movePut w p n n16, .moveSrd w p px n, .moveSwr w p px n, .moveRrd w p px n,
        .moveRwr w p px n, .moveRflag w px, .sclAdd w dst a b, .sclLi w dst imm, .sclLd w dst a imm, .sclSd w a b imm,
        .sclBeq w a b imm, .sclJmp w imm, .sclTop w dst a b, .sclFromp w dst a] : List Instr),
    let k := w.tile.toNat
    ∃ t, exec c s = .next t ∧
      (t.tile k).seq = (s.tile k).seq ∧
      (if (s.tile k).dom ≠ none ∧ k ∈ (s.dom (s.domOf k)).arrived then (t.dom (s.domOf k)).mark = true
        else (t.tile k).mark = true) ∧
      (t.tile k).wait = (s.tile k).wait ∧
      (t.tile k).outbox = (s.tile k).outbox ∧ (t.tile k).reads = (s.tile k).reads ∧
      (∀ j, j ≠ k → t.tile j = s.tile j) ∧
      t = { s with wafer.tiles := t.wafer.tiles, reg.vals := t.reg.vals, con.doms := t.con.doms } ∧
      (t.reg64 (aSclwLockstepErrCnt k)).toNat = min ((s.reg64 (aSclwLockstepErrCnt k)).toNat + 1) (2 ^ 64 - 1) ∧
      (t.reg64 aRepLockstepErrCnt).toNat = min ((s.reg64 aRepLockstepErrCnt).toNat + 1) (2 ^ 64 - 1) ∧
      ((t.tile k).repairPending = true ↔
        (s.tile k).repairPending = true ∨ ∃ c, (s.tile k).lockAt = some c ∧ s.clock ≤ c + 1000000)) ∧
  (∀ (s : State) (w : At) (o : VecOps), w.fault = true → s.runs w.tile.toNat = true → tileKind w.tile.toNat = 1 →
    o.fmt = 0 → o.dfmt = 0 →
    let k := w.tile.toNat
    let n := o.elems.toNat + 1
    VecFits s k o [(o.srcA, n), (o.srcB, n)] (4 * n) →
    ∀ c ∈ ([.vecAdd w o, .vecSub w o, .vecMul w o, .vecMax w o, .vecMin w o] : List Instr),
    ∃ t, exec c s = .next t ∧ t.wafer.scratch = s.wafer.scratch ∧ t.wafer.scratchBad = s.wafer.scratchBad ∧
      (if (s.tile k).dom ≠ none ∧ k ∈ (s.dom (s.domOf k)).arrived then (t.dom (s.domOf k)).mark = true
        else (t.tile k).mark = true) ∧
      (t.tile k).seq = seqNext (s.tile k).seq ∧
      (t.reg64 (aVecwSimdOpCnt k)).toNat = min ((s.reg64 (aVecwSimdOpCnt k)).toNat + 1) (2 ^ 64 - 1) ∧
      (t.reg64 (aVecwResidueErrCnt k)).toNat = min ((s.reg64 (aVecwResidueErrCnt k)).toNat + 1) (2 ^ 64 - 1) ∧
      (t.reg64 aRepResidueErrCnt).toNat = min ((s.reg64 aRepResidueErrCnt).toNat + 1) (2 ^ 64 - 1) ∧
      ((t.tile k).repairPending = true ↔
        (s.tile k).repairPending = true ∨ ∃ c, (s.tile k).residueAt = some c ∧ s.clock ≤ c + 1000000))

namespace Sys2Proof.Machine

/-- Code `e` of row `i` in chunk `c` of a DOT operand at offset `base` (R120, R196): plain bytes, A8B blocks or A4B blocks along the
depth, rows at a pitch rounded up to 16 bytes. -/
def dotCode (s : State) (k ofmt pitch base i c e : Nat) : Int :=
  let byte (off : Nat) : Byte := memGet 0 (scrKey k (base + pitch * i + off)) s.wafer.scratch
  if ofmt = 0 then (byte (32 * c + e)).toInt
  else if ofmt = 1 then (byte (33 * c + 1 + e)).toInt
  else sext 4 ((byte (17 * c + 1 + e / 2)).toNat / 16 ^ (e % 2) % 16)

/-- The block exponent of row `i` in chunk `c` of a DOT operand in A8B or A4B. -/
def dotExp (s : State) (k ofmt pitch base i c : Nat) : Nat :=
  (memGet 0 (scrKey k (base + pitch * i + (if ofmt = 1 then 33 else 17) * c)) s.wafer.scratch).toNat

/-- One accumulator of the attention engine after the chunks of a DOT (R120). -/
def dotResult (s : State) (k ofmt pitch a b i j n : Nat) (start : Half) : Half :=
  (List.range n).foldl (fun acc c =>
    let p : Int := ((List.range 32).map (fun e => dotCode s k ofmt pitch a i c e * dotCode s k ofmt pitch b j c e)).sum
    if ofmt = 0 then BitVec.ofInt 32 (max (-(2 ^ 31)) (min (2 ^ 31 - 1) (acc.toInt + p)))
    else
      let ea := dotExp s k ofmt pitch a i c
      let eb := dotExp s k ofmt pitch b j c
      if ea = 255 ∨ eb = 255 then 0x7FC00000
      else if ea = 0 ∨ eb = 0 then acc
      else BitVec.ofNat 32 (fenc fp32 (fadd (fdec fp32 acc.toNat)
        (.fin (decide (p < 0)) p.natAbs ((ea : Int) + eb - 254))))) start

/-- What SIDE.ENC, WADD and AADD leave beside their results and their numeric events: how many SIMD cycles they count is not
stated, so it is open here. -/
def SideDone (s t : State) (k : Nat) : Prop :=
  t.tile k = { s.tile k with seq := seqNext (s.tile k).seq } ∧ (∀ j, j ≠ k → t.tile j = s.tile j) ∧
  (∀ x, x ≠ aVecwSimdOpCnt k → t.reg64 x = s.reg64 x) ∧ (∀ e, e ≠ s.domOf k → t.dom e = s.dom e) ∧ Progressed s t k ∧
  t = { s with
        freeCtr := t.freeCtr
        wafer.tiles := t.wafer.tiles
        wafer.scratch := t.wafer.scratch
        wafer.scratchBad := t.wafer.scratchBad
        con.doms := t.con.doms
        con.queues := t.con.queues
        reg.vals := t.reg.vals
        watch := t.watch }

/-- The draw of one token at a temperature above 0 (R261): the candidates C are the first min(TOP_K, |A|) members of A by
descending scaled logit `z`, ties by ascending index, each standing after exactly as many members as its position says; the
running sums of their weights, each rounded to FP32; m is the first position whose sum reaches TOP_P times the whole; the token
is the first up to m whose sum exceeds u times the sum at m, else that at m. -/
def Draws (A : List Nat) (z : Nat → Fv) (topP : Fv) (topK : Nat) (x : Word) (token : Nat) : Prop :=
  let before (i j : Nat) : Bool := fltNum (z j) (z i) || (!fltNum (z i) (z j) && decide (i < j))
  ∃ C : List Nat, C.length = min topK A.length ∧ token ∈ C ∧
    (∀ (q i : Nat), C[q]? = some i → i ∈ A ∧ A.countP (fun j => before j i) = q) ∧
    (let weight (i : Nat) : Fv := fround fp32 (fexp2 (fround fp32 (fmul
       (fround fp32 (fadd (z i) (fopp (z (C.headD 0))))) (fdec fp32 0x3FB8AA3B))))
     let sum (q : Nat) : Fv := ((C.take (q + 1)).map weight).foldl (fun a y => fround fp32 (fadd a y)) (.fin false 0 0)
     let goal := fround fp32 (fmul topP (sum (C.length - 1)))
     let reaches (q : Nat) : Prop := isNan (sum q) = false ∧ isNan goal = false ∧ fltNum (sum q) goal = false
     ∀ m, m < C.length → reaches m → (∀ q, q < m → ¬ reaches q) →
       let bound := fround fp32 (fmul (.fin false (x >>> 40).toNat (-24)) (sum m))
       (∃ j, j ≤ m ∧ C[j]? = some token ∧ fltNum bound (sum j) = true ∧ ∀ q, q < j → fltNum bound (sum q) = false) ∨
       (C[m]? = some token ∧ ∀ q, q ≤ m → fltNum bound (sum q) = false))

/-- The numeric events a step records for a layer slot, kind by kind, where the amount is not zero (R104). -/
def Events (s t : State) (k : Nat) (slot : BitVec 12) (es : List (Nat × Nat)) : Prop :=
  let d := s.dom (s.domOf k)
  t.dom (s.domOf k) = { d with events := d.events ++
    (es.filter (fun e => e.2 != 0)).map (fun e => { slot := slot, kind := e.1, amount := e.2, beat := s.beatOf k }) }

end Sys2Proof.Machine

/-- DOT (R119, R120, R196): the 64 × 64 accumulators after KC + 1 chunks, cleared first where CLR is 1, and the write-back: none,
FP32, BF16, or the INT32 accumulator as it stands. -/
def Obligations.DotAccumulatesAndWritesBack : Prop :=
  ∀ (s : State) (w : At) (o : DotOps), Ready s w [1] → o.ofmt ≠ 3 → (o.wfmt = 3 → o.ofmt = 0) →
    let k := w.tile.toNat
    let n := o.kc.toNat + 1
    let pitch := (n * (if o.ofmt = 0 then 32 else if o.ofmt = 1 then 33 else 17) + 15) / 16 * 16
    let a := s.ptr16 k o.srcA
    let b := s.ptr16 k o.srcB
    let d := s.ptr16 k o.dst
    let size := if o.wfmt = 2 then 2 else 4
    Readable s k a (64 * pitch) → Readable s k b (64 * pitch) → (o.wfmt ≠ 0 → Allowed s k d (4096 * size)) →
    ∃ t, exec (.dot w o) s = .next t ∧
      (∀ i j, i < 64 → j < 64 →
        let acc := dotResult s k o.ofmt.toNat pitch a b i j n (if o.clr then 0 else kvGet 0 (64 * i + j) (s.tile k).seq.acc)
        kvGet 0 (64 * i + j) (t.tile k).seq.acc = acc ∧
        (let v := if o.ofmt = 0 then fofInt acc.toInt else fdec fp32 acc.toNat
         (o.wfmt = 1 → leNat (t.scr k (d + 4 * (64 * i + j)) 4) = fenc fp32 v) ∧
         (o.wfmt = 2 → leNat (t.scr k (d + 2 * (64 * i + j)) 2) = fenc bf16 v) ∧
         (o.wfmt = 3 → leNat (t.scr k (d + 4 * (64 * i + j)) 4) = acc.toNat))) ∧
      (o.wfmt = 0 → t.wafer.scratch = s.wafer.scratch) ∧
      (o.wfmt ≠ 0 → ∃ bs, bs.length = 4096 * size ∧ Stored s t k d bs) ∧
      OnlyCounter s t (aVecwDotChunkCnt k) n ∧
      t.tile k = { s.tile k with seq := seqNext { (s.tile k).seq with acc := (t.tile k).seq.acc } } ∧
      (∀ j, j ≠ k → t.tile j = s.tile j) ∧ Progressed s t k ∧
      t = { s with
            freeCtr := t.freeCtr
            wafer.tiles := t.wafer.tiles
            wafer.scratch := t.wafer.scratch
            wafer.scratchBad := t.wafer.scratchBad
            reg.vals := t.reg.vals
            watch := t.watch }

/-- SAMPLE with no mask, a bitmap or a grammar state (R197, R260, R261, R263, R265). A is every index below V that the mask allows
and whose logit is not −Inf. TEMP, TOP_K or TOP_P out of range, a logit of A that is NaN or +Inf, a state or mask beyond the
grammar object's counts, or a scaled logit that overflows to NaN or +Inf gives STATUS POISON and one POISON event; A empty
gives MASK_EMPTY; at temperature 0 the token is the smallest index of A with the largest logit; else the one that the draw
gives. A token holds its logit and the next grammar state; its transitions beyond the object's count make the result poison.
The pages that a grammar is read from read as before.

The model's own choices it rests on: a free token where the rule leaves none (notes/assumptions/19.md). -/
def Obligations.SampleSelectsAToken : Prop :=
  ∀ (s : State) (w : At) (o : SampleOps), Ready s w [1] → o.mmode ≠ 3 →
    let k := w.tile.toNat
    let d := s.domOf k
    let v := o.v.toNat + 1
    let size := if o.lfmt then 4 else 2
    let logit (i : Nat) : Fv := fdec (if o.lfmt then fp32 else bf16) (leNat (s.scr k (s.ptr16 k o.logP + size * i) size))
    let par := wordsOf (s.scr k (s.ptr16 k o.parP) 24)
    let temp := fdec fp32 (recFld par 0 31 0)
    let topP := fdec fp32 (recFld par 0 63 32)
    let topK := recFld par 2 40 32
    let mp := s.ptr16 k o.maskP
    let gram := leNat (s.scr k mp 8)
    let useG : Bool := o.mmode == 2 && bit gram 63
    let g : GramView := if useG then s.gramView (bits gram 45 20) (bits gram 19 0) else {}
    let allowed (i : Nat) : Bool :=
      if o.mmode = 1 then bit (leNat (s.scr k (mp + i / 8) 1)) (i % 8)
      else if useG && !g.all then bit (leNat (s.stk (g.mask + i / 8) 1)) (i % 8)
      else true
    let A := (List.range v).filter (fun i => allowed i && logit i != .inf true)
    let z (i : Nat) : Fv := fround fp32 (fmul (logit i) (fround fp32 (frcp temp)))
    let res := s.ptr16 k o.resP
    Readable s k (s.ptr16 k o.logP) (v * size) → Readable s k (s.ptr16 k o.parP) 24 → Allowed s k res 16 →
    (o.mmode = 1 → Readable s k mp ((v + 7) / 8)) → (o.mmode = 2 → Readable s k mp 8) →
    (∀ r ∈ g.reads ++ (if useG && g.ntrans != 0 then [(g.trans, 8 * g.ntrans)] else []),
      s.stackAllows (s.tile k).tenant.toNat r.1 r.2 = true) →
    ∃ t, exec (.sample w o) s = .next t ∧
      (let stay := if o.mmode = 2 then bits gram 19 0 else 0
       let wrote (status token next logitBits : Nat) (es : List (Nat × Nat)) : Prop :=
         leNat (t.scr k res 8) = token + 2 ^ 18 * status + 2 ^ 20 * next ∧ leNat (t.scr k (res + 8) 8) = logitBits ∧
         t.dom d = { s.dom d with
           mark := (t.dom d).mark
           events := (s.dom d).events ++
             es.map (fun e => { slot := o.lslot, kind := e.1, amount := e.2, beat := s.beatOf k }) }
       let poison : Prop := wrote 2 0 stay 0 [(5, 1)]
       let token (i : Nat) : Prop :=
         if useG && g.beyond then poison
         else wrote 0 i (if useG then s.gramNext g i else stay) (fenc fp32 (logit i)) []
       if g.bad = true ∨ isNan temp = true ∨ fltNum temp (.fin false 0 0) = true ∨ temp = .inf false ∨
           topK < 1 ∨ 256 < topK ∨ isNan topP = true ∨ fltNum (.fin false 0 0) topP = false ∨
           fltNum (.fin false 1 0) topP = true ∨ (∃ i ∈ A, logit i = .nan ∨ logit i = .inf false) then poison
       else if A = [] then wrote 1 0 stay 0 []
       else if fltNum (.fin false 0 0) temp = false then
         ∃ i ∈ A, token i ∧ (∀ j ∈ A, fltNum (logit i) (logit j) = false) ∧ ∀ j ∈ A, j < i → fltNum (logit j) (logit i) = true
       else if ∃ i ∈ A, z i = .nan ∨ z i = .inf false then poison
       else ∃ i, token i ∧ Draws A z topP topK (sampleGen (wordAt par 1) (recFld par 2 31 0)) i) ∧
      (∃ bs, bs.length = 16 ∧ Stored s t k res bs) ∧ Counts s t (aVecwSampleCnt k) 1 ∧
      RegsBut s t (aVecwSampleCnt k :: if useG then [aMemZeroFillCnt] else []) ∧ Progressed s t k ∧
      t.tile k = { s.tile k with seq := seqNext (s.tile k).seq, mark := (t.tile k).mark } ∧
      (useG = false → (t.tile k).mark = (s.tile k).mark ∧ (t.dom d).mark = (s.dom d).mark ∧ t.mem = s.mem) ∧
      (∀ a n, t.stk a n = s.stk a n) ∧
      (∀ j, j ≠ k → t.tile j = s.tile j) ∧ (∀ e, e ≠ d → t.dom e = s.dom e) ∧
      t = { s with
            freeCtr := t.freeCtr
            wafer.tiles := t.wafer.tiles
            wafer.scratch := t.wafer.scratch
            wafer.scratchBad := t.wafer.scratchBad
            con.doms := t.con.doms
            mem.stack := t.mem.stack
            mem.stackBad := t.mem.stackBad
            mem.zeroFill := t.mem.zeroFill
            reg.vals := t.reg.vals
            watch := t.watch }

/-- SIDE.ENC, WADD and AADD (R96 to R102, R193): ENC writes the packed blocks and the padded entry lists of every 512-row block;
WADD adds to each column its weight entries in list order; AADD waits for the row flits, takes them, and adds the activation
entries in list order. Each product and sum of the additions is rounded to FP32 (the model's reading, notes/assumptions/17.md).

Outlier detection (R98, R99): with C_a entries for a 512-row block, the entries taken are the first C_a outliers in ascending
channel index, the rest are excess, and a taken outlier's A4B code is 0. Outliers are those of blocks without NaN whose
magnitude exceeds T_a times the mean magnitude of their block, compared exactly (notes/assumptions/17.md).

The model's own choices it rests on: exact comparison with T_a times the mean, each sidestep step rounded to FP32 (notes/assumptions/17.md); a null outlier (notes/assumptions/167.md); a null product counts again (notes/assumptions/168.md). -/
def Obligations.SidestepAndOutlierDetection : Prop :=
  (∀ (s : State) (w : At) (e : EncOps) (a : WaddOps) (d : AaddOps), Ready s w [1] →
    let k := w.tile.toNat
    (let n := e.nblk.toNat + 1
     let ca := e.ca.toNat
     let size := if e.sfmt then 2 else 4
     let src := s.ptr16 k e.srcP
     let out := s.ptr16 k e.outP
     let lst := s.ptr16 k e.listP
     let vals (b : Nat) : List Fv := (List.range 512).map (fun i =>
       fdec (if e.sfmt then bf16 else fp32) (leNat (s.scr k (src + size * (512 * b + i)) size)))
     let made (b : Nat) := encodeLayer (fdec fp16 e.ta.toNat) ca (vals b)
     Readable s k src (512 * n * size) → Allowed s k out (272 * n) → Allowed s k lst ((4 * ca + 127) / 128 * 128 * n) →
     (out + 272 * n ≤ lst ∨ lst + (4 * ca + 127) / 128 * 128 * n ≤ out) →
     ∃ t, exec (.sideEnc w e) s = .next t ∧ SideDone s t k ∧
       (∀ b, b < n → t.scr k (out + 272 * b) 272 = runBytes false (made b).1 ∧
         t.scr k (lst + (4 * ca + 127) / 128 * 128 * b) (4 * ca) =
           ((made b).2.1.map entryBytes).flatten ++ List.replicate (4 * ca - 4 * (made b).2.1.length) 0) ∧
       t.con.queues = s.con.queues) ∧
    (let n := a.nch.toNat + 1
     let ca := a.ca.toNat
     let cw := a.cw.toNat
     let y := s.ptr16 k a.yP
     let wp := s.ptr16 k a.wP
     let inp := s.ptr16 k a.inP
     let act := s.ptr16 k a.actP
     Readable s k y 2048 → Readable s k wp (1024 + 4 * cw * n) → Readable s k inp (272 * n) →
     Readable s k act ((4 * ca + 127) / 128 * 128 * n) →
     ∃ t, exec (.sideWadd w a) s = .next t ∧ SideDone s t k ∧ t.con.queues = s.con.queues ∧
       (∃ bs, bs.length = 2048 ∧ Stored s t k y bs) ∧
       ∀ c, c < 512 →
         let entry (i : Nat) : WEntry := wEntryOf (s.scr k (wp + 1024 + 4 * i) 4)
         let scale := fdec fp16 (leNat (s.scr k (wp + 2 * c) 2))
         let channel (j row : Nat) : Fv := channelVal (s.actList k act ca j) (s.scr k (inp + 272 * j) 272) row
         let y0 := fdec fp32 (leNat (s.scr k (y + 4 * c) 4))
         leNat (t.scr k (y + 4 * c) 4) = fenc fp32 ((List.range (n * cw)).foldl (fun v i =>
           if (entry i).col ≠ c ∨ (entry i).val = 0 then v
           else if (entry i).val = 0x80 then .nan
           else fround fp32 (fadd v (fround fp32 (fmul (fround fp32
             (fmul (channel (i / cw) (entry i).row) (fofInt (sext 8 (entry i).val)))) scale)))) y0)) ∧
    (let n := d.nblk.toNat + 1
     let ca := d.ca.toNat
     let h := d.queue.toNat
     let x := s.queue h
     let y := s.ptr16 k d.yP
     let wp := s.ptr16 k d.wP
     let act := s.ptr16 k d.actP
     Readable s k y 2048 → Readable s k wp 1024 → Readable s k act ((4 * ca + 127) / 128 * 128 * n) →
     x.cho ≠ none → x.consumer = k → 2 * n * ca ≤ (x.pub + 2 * x.depth - x.head) % (2 * x.depth) → s.beatOf k = 0 →
     (∀ i, i < 2 * n * ca → s.scrBad k (x.store + 128 * ((x.head + i) % (2 * x.depth) % x.depth)) 128 = []) →
     ∃ t, exec (.sideAadd w d) s = .next t ∧ SideDone s t k ∧ (∃ bs, bs.length = 2048 ∧ Stored s t k y bs) ∧
       t.queue h = { x with
         head := (x.head + 2 * n * ca) % (2 * x.depth)
         free := if x.gated then x.free else (x.head + 2 * n * ca) % (2 * x.depth) } ∧
       (∀ g, g ≠ h → t.queue g = s.queue g) ∧
       ∀ c, c < 512 →
         let entry (i : Nat) : ActEntry := entryOf (s.scr k (act + (4 * ca + 127) / 128 * 128 * (i / ca) + 4 * (i % ca)) 4)
         let byte (i : Nat) : Nat := leNat (s.scr k
           (x.store + 128 * ((x.head + 2 * i + c / 256) % (2 * x.depth) % x.depth) + c % 256 / 2) 1)
         let scale := fdec fp16 (leNat (s.scr k (wp + 2 * c) 2))
         let y0 := fdec fp32 (leNat (s.scr k (y + 4 * c) 4))
         leNat (t.scr k (y + 4 * c) 4) = fenc fp32 ((List.range (n * ca)).foldl (fun v i =>
           if (entry i).exp = 0 then v
           else fround fp32 (fadd v (fround fp32 (fmul (fround fp32
             (fmul (codeVal (entry i).exp (entry i).code) (fofInt (sext 4 (byte i / 16 ^ (c % 2) % 16))))) scale)))) y0))) ∧
  (∀ (ta : Fv) (ca : Nat) (vs : List Fv), vs.length = 512 → 0 < ca →
    let block (b : Nat) : List Fv := (vs.drop (32 * b)).take 32
    let value (i : Nat) : Fv := vs.getD i .nan
    let out (i : Nat) : Bool := !(block (i / 32)).any isNan &&
      fless (fmul ta (((block (i / 32)).map fabs).foldr fadd (.fin false 0 0))) (fmul (fofInt 32) (fabs (value i)))
    let chans := (List.range 512).filter out
    let r := encodeLayer ta ca vs
    r.2.1.map (fun e => e.chan) = chans.take ca ∧ r.2.2 = chans.length - ca ∧ r.1.length = 16 ∧
    (∀ i ∈ chans.take ca, ((r.1.getD (i / 32) poisonBlock).codes.getD (i % 32) 1) = 0) ∧
    (∀ b, b < 16 → ((block b).any isNan = true ↔ (r.1.getD b poisonBlock).poison = true)))

/-! ### Compute-in-memory arrays (R42 to R84, R239) -/

namespace Sys2Proof.Machine

/-- The aligned code of input element `i` of a product (R46): the codes of a block rest on the largest exponent, divided by a power
of two with ties to even; an exact zero block gives zeros. -/
def alignedAt (s : State) (k a eMax i : Nat) : Int :=
  let base := a + 17 * (i / 32)
  let e := leNat (s.scr k base 1)
  let c := sext 4 (leNat (s.scr k (base + 1 + i % 32 / 2) 1) / 16 ^ (i % 2) % 16)
  if e = 0 then 0 else frint (decide (c < 0)) c.natAbs (-((eMax - e : Nat) : Int))

/-- The charge of column `c` (row, for a transpose pass) in product units: the sum over the rows of the group (R52). -/
def chargeAt (s : State) (k p : Nat) (pr : Product) (g : Nat × Nat × Nat) (c : Nat) : Int :=
  ((List.range g.2.2).map (fun i =>
    pr.codes.getD (512 * g.1 + g.2.1 + i) 0 *
      (if pr.transpose then s.cell k p c (g.2.1 + i) else s.cell k p (g.2.1 + i) c))).sum

/-- A tile waits for a pass of its product: the domain runs, the master is free, the array of the chain position is `p` and is not
being programmed; the tile is the system's or the array's tenant is its own, and no check of Loupe runs. -/
def PassWaits (s : State) (k p : Nat) (pr : Product) (g : Nat × Nat × Nat) (rest : List (Nat × Nat × Nat)) : Prop :=
  (s.tile k).product = some pr ∧ pr.groups = g :: rest ∧ (s.tile k).wait = .product ∧ (s.dom (s.domOf k)).state = 2 ∧
  (s.dom (s.domOf k)).loupe = false ∧ s.frozenAt 0 k = false ∧ s.physOf k (pr.ops.arr.toNat + g.1) = some p ∧
  (s.arrayRec k p).state ≠ 3 ∧ (s.tile k).tenant = 0 ∧ s.beatOf k = 0

/-- A group has a row that is driven (R62). -/
def Driven (pr : Product) (g : Nat × Nat × Nat) : Prop := ∃ i, i < g.2.2 ∧ pr.codes.getD (512 * g.1 + g.2.1 + i) 0 ≠ 0

end Sys2Proof.Machine

/-- MVM and TMVM (R46, R49, R64, R72, R192): with no poison block and a driven first group, the tile holds the product, with
the aligned input, the largest exponent, accumulators of zero and the row groups of the chain in order, and waits for its first
pass. -/
def Obligations.ProductsStart : Prop :=
  ∀ (s : State) (w : At) (o : ProdOps), Ready s w [0] → o.gsel.toNat ≤ 4 → o.arr.toNat + o.nch.toNat ≤ 15 →
    let k := w.tile.toNat
    let n := o.nch.toNat + 1
    let inp := s.ptr16 k o.inP
    let out := s.ptr16 k o.outP
    let e (b : Nat) : Nat := leNat (s.scr k (inp + 17 * b) 1)
    let eMax := (List.range (16 * n)).foldl (fun m b => max m (e b)) 0
    let g := 16 * 2 ^ o.gsel.toNat
    Readable s k inp (272 * n) → (s.tile k).tenant = 0 →
    ((∀ b, b < 16 * n → e b ≠ 255) → Allowed s k out (outLen o.ofmt.toNat) → (∃ i, i < g ∧ alignedAt s k inp eMax i ≠ 0) →
      (∀ tr : Bool, ∃ t pr, exec (if tr then .tmvm w o else .mvm w o) s = .next t ∧
        t.tile k = { s.tile k with wait := .product, product := some pr } ∧
        pr.ops = o ∧ pr.transpose = tr ∧ pr.eMax = eMax ∧ pr.acc = List.replicate 512 0 ∧
        (∀ i, i < 512 * n → pr.codes.getD i 0 = alignedAt s k inp eMax i) ∧
        pr.groups = (List.range n).flatMap (fun c => (List.range (512 / g)).map (fun j => (c, j * g, g))) ∧
        (∀ j, j ≠ k → t.tile j = s.tile j) ∧
        t = { s with wafer.tiles := t.wafer.tiles, arr.recs := t.arr.recs }))

/-- A product with a poison block in its input (R47): no pass runs, every output column is poison in the product's output format
(R66, R88, R192), the instruction is done, and the event is counted for the layer as POISON. -/
def Obligations.PoisonInputMakesEveryOutputPoison : Prop :=
  ∀ (s : State) (w : At) (o : ProdOps), Ready s w [0] → o.gsel.toNat ≤ 4 → o.arr.toNat + o.nch.toNat ≤ 15 →
    let k := w.tile.toNat
    let n := o.nch.toNat + 1
    let inp := s.ptr16 k o.inP
    let out := s.ptr16 k o.outP
    let f := o.ofmt.toNat
    Readable s k inp (272 * n) → Allowed s k out (outLen f) →
    (∃ b, b < 16 * n ∧ leNat (s.scr k (inp + 17 * b) 1) = 255) →
    ∀ tr : Bool, ∃ t, exec (if tr then .tmvm w o else .mvm w o) s = .next t ∧
      (f < 2 → ∀ b, b < 16 → t.scr k (out + (16 * f + 17) * b) (16 * f + 17) = 0xFF :: List.replicate (16 * f + 16) 0) ∧
      (f = 2 → ∀ c, c < 512 → leNat (t.scr k (out + 2 * c) 2) = 0x7FC0) ∧
      (f = 3 → ∀ c, c < 512 → leNat (t.scr k (out + 4 * c) 4) = 0x7FC00000) ∧
      (∃ bs, bs.length = outLen f ∧ Stored s t k out bs) ∧ Events s t k o.lslot [(5, 1)] ∧
      t.tile k = { s.tile k with wait := .no, product := none, seq := seqNext (s.tile k).seq } ∧
      (∀ j, j ≠ k → t.tile j = s.tile j) ∧ Retired s t k ∧
      t = { s with
            wafer.tiles := t.wafer.tiles, wafer.scratch := t.wafer.scratch, wafer.scratchBad := t.wafer.scratchBad
            con.doms := t.con.doms, reg.vals := t.reg.vals, watch := t.watch }

/-- ARRAY_PASS_COMPLETE and TRANSPOSE_PASS_COMPLETE where no column clips (R50, R52, R53, R64): every accumulator grows by its
converter code times 2^GAIN, a code within 2 of the rounded charge over the gain; the next group's pass follows. Whether the
mirror check fails depends on the converters' errors, which the spec bounds and does not give, so both outcomes are allowed.

A clipped forward pass of an AUTO_SPLIT product (R58, R59): it is counted, its codes are not accumulated, and it is replaced by
its two halves, lower half first.

The model's own choices it rests on: where a charge may clip (notes/assumptions/157.md). -/
def Obligations.PassesAccumulateOrSplit : Prop :=
  (∀ (s : State) (tile : TileIx) (p : Nat) (pr : Product) (g g2 : Nat × Nat × Nat) (rest : List (Nat × Nat × Nat)),
    let k := tile.toNat
    let gain := pr.ops.gain.toNat
    PassWaits s k p pr g (g2 :: rest) → Driven pr g2 → pr.acc.length = 512 → g.2.2 ≤ 512 →
    (∀ c, c < 512 → 4 * (chargeAt s k p pr g c).natAbs ≤ 251 * 2 ^ gain) →
    ∃ t pr', exec (if pr.transpose then .transposePassComplete tile { convs := [], mirrors := [], comps := [] }
        else .arrayPassComplete tile { convs := [], mirrors := [], comps := [] }) s = .next t ∧
      (t.tile k).product = some pr' ∧ (t.tile k).wait = .product ∧ pr' = { pr with acc := pr'.acc, groups := g2 :: rest } ∧
      (∀ c, c < 512 → ∃ code : Int, -127 ≤ code ∧ code ≤ 127 ∧
        (2 * code * 2 ^ gain - 4 * chargeAt s k p pr g c).natAbs ≤ 5 * 2 ^ gain ∧
        pr'.acc.getD c 0 = pr.acc.getD c 0 + code * 2 ^ gain) ∧
      Counts s t (if pr.transpose then aCimwTpassCnt k else aCimwPassCnt k) 1 ∧
      t.wafer.scratch = s.wafer.scratch ∧ t.arr.cells = s.arr.cells ∧ t.arr.scales = s.arr.scales ∧ t.mem = s.mem) ∧
  (∀ (s : State) (tile : TileIx) (p : Nat) (pr : Product) (g : Nat × Nat × Nat) (rest : List (Nat × Nat × Nat)),
    let k := tile.toNat
    let half := g.2.2 / 2
    PassWaits s k p pr g rest → pr.transpose = false → pr.ops.autoSplit = true → 16 < g.2.2 → g.2.2 ≤ 512 →
    Driven pr (g.1, g.2.1, half) → (∃ c, c < 512 ∧ 259 * 2 ^ pr.ops.gain.toNat ≤ 4 * (chargeAt s k p pr g c).natAbs) →
    ∃ t, exec (.arrayPassComplete tile { convs := [], mirrors := [], comps := [] }) s = .next t ∧
      (t.tile k).product = some { pr with groups := (g.1, g.2.1, half) :: (g.1, g.2.1 + half, half) :: rest } ∧
      Counts s t (aCimwClipCnt k) 1 ∧ Counts s t (aCimwSplitCnt k) 1 ∧ t.reg64 (aCimwClipFinalCnt k) = s.reg64 (aCimwClipFinalCnt k))

/-- SIDE.FETCH (R100, R193): for every slot of every block's list two row flits are offered: the 512 codes of the row, packed, lower
index in the low nibble, or zero codes for a null entry; the tile waits until they are taken. -/
def Obligations.FetchSendsTwoFlitsForEverySlot : Prop :=
  ∀ (s : State) (w : At) (o : FetchOps), Ready s w [0] → o.arr.toNat + o.nblk.toNat ≤ 15 → 0 < o.ca.toNat →
    let k := w.tile.toNat
    let ca := o.ca.toNat
    let n := o.nblk.toNat + 1
    let lst := s.ptr16 k o.listP
    let pitch := (4 * ca + 127) / 128 * 128
    let entry (b i : Nat) : ActEntry := entryOf (s.scr k (lst + pitch * b + 4 * i) 4)
    (s.queue o.queue.toNat).cho ≠ none → k ∈ (s.queue o.queue.toNat).producers → (s.tile k).tenant = 0 →
    Readable s k lst (pitch * n) →
    (∀ b, b < n → ∃ p, s.physOf k (o.arr.toNat + b) = some p ∧ (s.arrayRec k p).state ≠ 3) →
    ∃ t fs, exec (.sideFetch w o) s = .next t ∧
      t.tile k = { s.tile k with outbox := (s.tile k).outbox ++ fs, wait := .sending } ∧ fs.length = 2 * ca * n ∧
      (∀ b i c p, b < n → i < ca → c < 512 → s.physOf k (o.arr.toNat + b) = some p →
        ∃ f, fs[2 * (ca * b + i) + c / 256]? = some f ∧ f.bytes.length = 128 ∧ f.bad = [] ∧
          sext 4 ((f.bytes.getD (c % 256 / 2) 0).toNat / 16 ^ (c % 2) % 16) =
            if (entry b i).exp = 0 then 0 else s.cell k p (entry b i).chan c) ∧
      (∀ j, j ≠ k → t.tile j = s.tile j) ∧ t = { s with wafer.tiles := t.wafer.tiles }

/-- The end of programming, erasing, a converter self-test, a patrol and a refresh (R44, R69 to R71, R75, R79, R81, R214, R215): a
programmed array holds the weights, scales and sums of the shadow record in its slot of the target buffer; an erased one holds
none and is open to every tenant; a self-test that finds one column converter out of limit, itself or the spare that serves
its columns, gives the columns to the next spare; a patrol of an array idle for 30 s, or at order 10 of the start, is counted, once or twice, and changes no
cell; a refresh that is due puts the cells at the levels of the record and counts its touches.

The model's own choices it rests on: physical outcomes are operands of the event (notes/assumptions/8.md); a time-limit event looks at the clock (notes/assumptions/70.md); one mirror mismatch a pass (notes/assumptions/160.md); a converter that serves no columns (notes/assumptions/161.md); a refresh that fails is not counted (notes/assumptions/162.md). -/
def Obligations.ArrayMaintenanceCommands : Prop :=
  ∀ (s : State) (tile : TileIx) (p : BitVec 5) (touched : Nat) (first again : PatrolRun) (number : Nat),
    let k := tile.toNat
    let x := s.arrayRec k p.toNat
    (∀ r, s.progOf k p.toNat = some r → r.why = .load → s.arr.waiting = [] → (s.inst r.inst.toNat).state ≠ 0 →
      let byte (i : Nat) : Nat := (r.slot.getD i 0).toNat
      let word (i : Nat) : Nat := byte i + 256 * byte (i + 1)
      let w := wordsOf (r.slot.take 24)
      ∃ t, exec (.arrayProgramDone tile p true) s = .next t ∧
        (∀ row c, row < 512 → c < 512 → t.cell k p.toNat row c =
          sext 4 (byte (0x2000 + (512 * row + c) / 2) / 16 ^ (c % 2) % 16)) ∧
        (∀ c, c < 512 → (kvGet 0 (arrKey k p.toNat * 512 + c) t.arr.scales).toNat = word (0x800 + 2 * c) ∧
          (kvGet 0 (arrKey k p.toNat * 512 + c) t.arr.ksums).toNat = word (0xC00 + 2 * c)) ∧
        t.arrayRec k p.toNat = { x with
          state := 0
          suspect := none
          recheck := false
          cycles := x.cycles + 100
          verify := BitVec.ofNat 32 s.calendar
          tenant := BitVec.ofNat 8 (recFld w 1 51 44)
          inst := BitVec.ofNat 10 (recFld w 1 9 0)
          gen := BitVec.ofNat 16 (recFld w 1 31 16)
          lslot := BitVec.ofNat 12 (recFld w 1 43 32) } ∧
        t.progOf k p.toNat = none ∧ Counts s t (aCimwProgCnt k) 1 ∧ t.wafer = s.wafer ∧ t.mem = s.mem ∧ t.con = s.con) ∧
    (∀ r, s.progOf k p.toNat = some r → r.why = .erase → s.arr.waiting = [] → s.engineWaits = false → s.jobOf r.inst.toNat = none →
      ∃ t, exec (.arrayEraseDone tile p) s = .next t ∧
        (∀ row c, row < 512 → c < 512 → t.cell k p.toNat row c = 0) ∧
        t.arrayRec k p.toNat = { x with
          state := if x.bound then 0 else 2
          suspect := none
          cycles := x.cycles + 100
          tenant := 0
          inst := 0
          gen := 0
          lslot := 0 } ∧
        t.progOf k p.toNat = none ∧ Noted s t 2 (k + p.toNat * 2 ^ 14) ∧ t.wafer = s.wafer ∧ t.mem = s.mem ∧ t.con = s.con) ∧
    (tileKind k = 0 → p.toNat < 17 → x.state ≠ 3 → x.state ≠ 4 → x.colSwaps.length < 2 → (s.tile k).dom = none →
      ∀ i, i < 64 → (number = i ∧ i ∉ x.colSwaps ∨
        ∃ j, number = 64 + j ∧ x.colSwaps[j]? = some i ∧ i ∉ x.colSwaps.drop (j + 1)) →
      ∃ t, exec (.converterSelfTest tile p [{ kind := .column, number := number }]) s = .next t ∧
        t.arrayRec k p.toNat = { x with colSwaps := x.colSwaps ++ [i], suspect := none } ∧ Counts s t aRepConvSwapCnt 1 ∧
        Noted s t 0x11 (k + p.toNat * 2 ^ 14 + i * 2 ^ 20 + x.colSwaps.length * 2 ^ 26) ∧
        RegsBut s t (aRepConvSwapCnt :: noteRegs) ∧ t.wafer = s.wafer ∧ t.con = s.con ∧ t.mem = s.mem) ∧
    (tileKind k = 0 → p.toNat < 17 → x.state ≠ 3 → x.state ≠ 4 → s.mapOf k ≠ 2 → s.rbit aRepCtrl 0 = true →
      s.fieldOn (fieldOf k) = true → s.inCal (fieldOf k) = false → x.lastUse + 30000000 ≤ s.clock ∨ s.order = 10 →
      ∃ t n, exec (.patrol tile p first again) s = .next t ∧ (n = 1 ∨ n = 2) ∧ Counts s t aRepPatrolCnt n ∧
        Counts s t (aCimwPatrolCnt k) n ∧ t.arr.cells = s.arr.cells ∧ t.wafer.scratch = s.wafer.scratch ∧
        ((t.arrayRec k p.toNat).state ≠ 4 → t.wafer = s.wafer ∧ t.con = s.con ∧ t.mem = s.mem)) ∧
    (tileKind k = 0 → p.toNat < 17 → x.state = 0 → x.bound = true → s.arrayOwned x = true →
      ∀ a, s.recordOf x.inst.toNat k x.logical.toNat = some a → s.stackOffline (stackOf a) = false →
      s.progAsked k p.toNat = false → s.fieldOn (fieldOf k) = true → s.inCal (fieldOf k) = false →
      (x.recheck = true ∨ x.verify.toNat + 86400 ≤ s.calendar) →
      ∃ t, exec (.refresh tile p touched false) s = .next t ∧
        t.arrayRec k p.toNat = { x with cycles := x.cycles + 1, verify := BitVec.ofNat 32 s.calendar, recheck := false } ∧
        (∀ row c, row < 512 → c < 512 → t.cell k p.toNat row c =
          sext 4 (leNat (s.stk (a + 0x2000 + (512 * row + c) / 2) 1) / 16 ^ (c % 2) % 16)) ∧
        Counts s t (aCimwTouchCnt k) touched ∧ Counts s t aRepRefreshCnt 1 ∧
        Noted s t 3 (k + p.toNat * 2 ^ 14 + touched % 2 ^ 32 * 2 ^ 32) ∧
        RegsBut s t [aCimwTouchCnt k, aRepRefreshCnt, aMemZeroFillCnt] ∧ t.wafer = s.wafer ∧ t.con = s.con ∧
        ∀ b n, t.stk b n = s.stk b n)

/-! ### The meshes (R25 to R30, R149 to R153) -/

/-- DATA_FLIT_RECEIVE (R25, R27): with no lane failing, the oldest flit of the link reaches the input buffer as it is; with one lane
failing on a byte that came with good parity, the byte is bad and marked, its lane's tally grows by one, and the flit goes on. With an end of the link unpowered (R39)
nothing moves.

LANE_SWAP (R28): at a step boundary of every domain that uses the link, a lane that waits for it is replaced by the next spare
lane, counted, and recorded as a journal entry of kind 0x16.

SYNC_FLIT_RECEIVE with both planes in use (R29, R30): planes with good parity, an odd number of ones in every byte with its
parity bit, that agree change nothing; planes that differ, or are both bad, count a mismatch and mark the attempt of every domain
in a step whose sync paths cross the link; the first bad parity on one plane is counted and marks no attempt; the second within
1 s marks that plane failed.

The model's own choices it rests on: physical outcomes are operands of the event (notes/assumptions/8.md); bad parity on both planes is only a mismatch (notes/assumptions/36.md); when a lane swap takes effect (notes/assumptions/37.md); a mark for a retired sync link (notes/assumptions/155.md); which errors of the surviving plane count (notes/assumptions/156.md). -/
def Obligations.MeshInputsCheckAndTally : Prop :=
  (∀ (s : State) (pos : TileIx) (input : BitVec 3) (f : Flit) (rest : List Flit) (i : Nat),
    let k := pos.toNat * 5 + input.toNat
    let x := s.link k
    (s.fieldOn (fieldOf pos.toNat) = false → exec (.dataFlitReceive pos input []) s = .next s) ∧
    (x.wire = f :: rest → (∀ b ∈ f.bad, b ∈ f.marks) → s.fieldOn (fieldOf pos.toNat) = true →
    (∀ p, neighbour pos.toNat input.toNat = some p → s.fieldOn (fieldOf p) = true) →
    (∃ t, exec (.dataFlitReceive pos input []) s = .next t ∧ t.link k = { x with wire := rest, buf := x.buf ++ [f] } ∧
      (∀ j, j ≠ k → t.link j = s.link j) ∧
      t = { s with freeCtr := t.freeCtr, wafer.links := t.wafer.links }) ∧
    (i < 128 → i ∉ f.bad → i ∉ f.marks → f.bytes.length = 128 → x.swapped = [] → kvFind i x.errAt = none →
      (kvGet 0 i x.tally).toNat < 65535 →
      ∃ t g, exec (.dataFlitReceive pos input [i]) s = .next t ∧
        g = { f with bytes := g.bytes, bad := g.bad, marks := g.marks } ∧ (∀ j, j ∈ g.bad ↔ j = i ∨ j ∈ f.bad) ∧
        (∀ j, j ∈ g.marks ↔ j = i ∨ j ∈ f.marks) ∧ (∀ j, j ≠ i → g.bytes[j]? = f.bytes[j]?) ∧
        t.link k = { x with
          wire := rest, buf := x.buf ++ [g], tally := (t.link k).tally, errAt := (t.link k).errAt } ∧
        kvGet 0 i (t.link k).tally = kvGet 0 i x.tally + 1 ∧ (∀ j, j ≠ i → kvGet 0 j (t.link k).tally = kvGet 0 j x.tally) ∧
        OnlyCounter s t aRepLaneErrCnt 1 ∧ (∀ j, j ≠ k → t.link j = s.link j) ∧
        t = { s with freeCtr := t.freeCtr, wafer.links := t.wafer.links, reg.vals := t.reg.vals }))) ∧
  (∀ (s : State) (pos : TileIx) (input : BitVec 3) (lane : Nat),
    let k := pos.toNat * 5 + input.toNat
    let x := s.link k
    x.swaps = [lane] → (∀ d ∈ s.linkDoms pos.toNat input.toNat, s.atBoundary d = true) →
    ∃ t, exec (.laneSwap pos input) s = .next t ∧ t.link k = { x with swapped := x.swapped ++ [lane], swaps := [] } ∧
      (∀ j, j ≠ k → t.link j = s.link j) ∧ Counts s t aRepLaneSwapCnt 1 ∧
      Noted s t 0x16 (pos.toNat + input.toNat * 2 ^ 14 + lane * 2 ^ 17 + x.swapped.length * 2 ^ 24) ∧
      RegsBut s t (aRepLaneSwapCnt :: noteRegs) ∧ t.con = s.con ∧ t.mem = s.mem ∧
      t.wafer = { s.wafer with links := t.wafer.links }) ∧
  (∀ (s : State) (pos : TileIx) (input : BitVec 3) (a b : SyncFlit),
    let k := pos.toNat * 5 + input.toNat
    let x := s.link k
    let good (f : SyncFlit) : Prop := ∀ i, i < 4 →
      (((List.range 8).filter (fun j => f.word.getLsbD (8 * i + j))).length + (if f.par.getLsbD i then 1 else 0)) % 2 = 1
    x.syncRetired = false → x.aFailed = false → x.bFailed = false → s.fieldOn (fieldOf pos.toNat) = true →
    (∀ p, neighbour pos.toNat input.toNat = some p → s.fieldOn (fieldOf p) = true) →
    (good a → good b → a.word = b.word → exec (.syncFlitReceive pos input { a := a, b := b }) s = .next s) ∧
    ((good a ∧ good b ∧ a.word ≠ b.word) ∨ (¬ good a ∧ ¬ good b) →
      ∃ t, exec (.syncFlitReceive pos input { a := a, b := b }) s = .next t ∧ OnlyCounter s t aRepSyncMismatchCnt 1 ∧
        (∀ d, t.dom d = { s.dom d with
          mark := (s.dom d).mark ||
            ((s.syncDoms pos.toNat input.toNat).contains d && (s.dom d).state == 2 && !(s.dom d).waiting) }) ∧
        t = { s with con.doms := t.con.doms, reg.vals := t.reg.vals }) ∧
    (¬ good a → good b → ∃ t, exec (.syncFlitReceive pos input { a := a, b := b }) s = .next t ∧
      t.link k = { x with
        aErrAt := some s.clock
        aFailed := match x.aErrAt with
          | some c => decide (s.clock ≤ c + 1000000)
          | none => false } ∧
      (∀ j, j ≠ k → t.link j = s.link j) ∧ Counts s t aRepSyncPlaneErrCnt 1 ∧ t.con = s.con ∧ t.mem = s.mem ∧
      RegsBut s t (aRepSyncPlaneErrCnt :: noteRegs) ∧ t.wafer = { s.wafer with links := t.wafer.links }) ∧
    (good a → ¬ good b → ∃ t, exec (.syncFlitReceive pos input { a := a, b := b }) s = .next t ∧
      t.link k = { x with
        bErrAt := some s.clock
        bFailed := match x.bErrAt with
          | some c => decide (s.clock ≤ c + 1000000)
          | none => false } ∧
      (∀ j, j ≠ k → t.link j = s.link j) ∧ Counts s t aRepSyncPlaneErrCnt 1 ∧ t.con = s.con ∧ t.mem = s.mem ∧
      RegsBut s t (aRepSyncPlaneErrCnt :: noteRegs) ∧ t.wafer = { s.wafer with links := t.wafer.links }))

/-- ROUTER_OUTPUT_TURN (R149, R150, R152): a running owned output at a FIXED unicast entry of one flit moves the oldest flit of the
named input to the link of its output when that has room, and goes on to the next entry; when the input holds no flit, or the next
router's buffer has no room, nothing moves.

The model's own choices it rests on: one command moves as many flits of a turn as can move (notes/assumptions/11.md). -/
def Obligations.FixedTurnMovesOneFlit : Prop :=
  ∀ (s : State) (pos : TileIx) (output : BitVec 3) (e : BitVec 32) (p q : Nat) (c : Nat),
    let k := pos.toNat * 5 + output.toNat
    let o := s.outp k
    let inKey := pos.toNat * 5 + bits e.toNat 2 0
    let outLink := p * 5 + (output.toNat + 2) % 4
    o.cho = some c → s.outRuns k = true → outEntry o = some e → o.moved = 0 → output.toNat < 4 → bits e.toNat 2 0 < 4 →
    entOpen e = false → entCount e = 1 → entSet e = [] →
    neighbour pos.toNat output.toNat = some p → neighbour pos.toNat (bits e.toNat 2 0) = some q →
    tensorPortAt pos.toNat (bits e.toNat 2 0) = none →
    (∀ f rest, (s.link inKey).buf = f :: rest → f.beat = 0 → (s.link outLink).buf.length + (s.link outLink).wire.length < 2 →
      ∃ t, exec (.routerOutputTurn pos output) s = .next t ∧
        t.link inKey = { s.link inKey with buf := rest } ∧ t.link outLink = { s.link outLink with wire := (s.link outLink).wire ++ [f] } ∧
        (∀ j, j ≠ inKey → j ≠ outLink → t.link j = s.link j) ∧
        t.outp k = outAdvance { o with moved := 1 } ∧ (∀ j, j ≠ k → t.outp j = s.outp j) ∧
        (∀ d, kvGet 0 d t.watch = if d = o.dom.toNat then 0 else kvGet 0 d s.watch) ∧
        t = { s with wafer.links := t.wafer.links, wafer.outputs := t.wafer.outputs, watch := t.watch }) ∧
    (((s.link inKey).buf = [] ∨ 2 ≤ (s.link outLink).buf.length + (s.link outLink).wire.length) →
      exec (.routerOutputTurn pos output) s = .next s)

/-! ### Replay domains (R147, R159 to R171, R178, R253, R364) -/

/-- Every participant of a domain of this module alone has arrived at the barrier, and nothing delays the decision. -/
def Sys2Proof.Machine.AtBarrier (s : State) (d : Nat) : Prop :=
  let x := s.dom d
  x.state = 2 ∧ x.waiting = false ∧ x.awaitRelease = false ∧ x.spans = false ∧ x.loupe = false ∧
  s.tilesArrived d = true ∧ s.domUnfinished d = [] ∧ s.domStrays d = [] ∧
  (∀ t ∈ x.members, (s.tile t).exhausted = false) ∧ x.repairTiles = [] ∧ x.repairArrays = []

/-- The tables of flags, queues, outputs and tiles are in canonical form. -/
def Sys2Proof.Machine.SyncWf (s : State) : Prop :=
  kvWf {} s.con.flags = true ∧ kvWf {} s.con.queues = true ∧ kvWf {} s.wafer.outputs = true ∧
  kvWf {} s.wafer.tiles = true

/-- The watchdog of a domain counts anew, every other keeps its count (R170). -/
def Sys2Proof.Machine.Rewatched (s t : State) (d : Nat) : Prop :=
  ∀ e, kvGet 0 e t.watch = if e = d then 0 else kvGet 0 e s.watch

/-- STALL_LIMIT as the last accepted commit left it, in µs. -/
def Sys2Proof.Machine.LimitNow (s : State) : Nat := fld (s.committedOf aChoStallLimit) 19 0

/-- The tiles of a restored domain are at their saved state with nothing in progress; of every other tile only the flits of the
domain that it offers are gone (R116, R165). -/
def Sys2Proof.Machine.TilesRestored (s t : State) (d : Nat) : Prop :=
  (∀ p ∈ (s.dom d).members, t.tile p = { s.tile p with
    seq := (s.tile p).saved, wait := .no, mark := false, outbox := [], reads := [], ctabWait := false, product := none }) ∧
  ∀ p, p ∉ (s.dom d).members → t.tile p = { s.tile p with outbox := (s.tile p).outbox.filter (fun f => !s.flitOf d f) }

/-- The domain starts a step: its release is on its way to every participant. -/
def Sys2Proof.Machine.Starts (t : State) (d : Nat) (x : Domain) (replay : Bool) : Prop :=
  t.dom d = { x with
    await := (t.dom d).await, replaying := replay, waiting := false, arrived := [], mark := false, between := false } ∧
  ∀ p, p ∈ (t.dom d).await ↔ p ∈ x.members ∨ p ∈ x.routers

/-- The flags and queues of a domain are back at their step-start values (R165). -/
def Sys2Proof.Machine.SyncRestored (s t : State) (d : Nat) : Prop :=
  (∀ h, t.flag h = if (s.flag h).cho ≠ none ∧ (s.flag h).dom.toNat = d
    then { s.flag h with count := (s.flag h).start, request := none } else s.flag h) ∧
  (∀ h, (s.queue h).cho ≠ none → (s.queue h).gated = false → (s.queue h).consDom.toNat = d →
    t.queue h = { s.queue h with
      head := (s.queue h).startHead, free := (s.queue h).startHead, tail := (s.queue h).startTail, pub := (s.queue h).startTail }) ∧
  (∀ h, (s.queue h).cho ≠ none → (s.queue h).gated = true → t.queue h = { s.queue h with
    tail := if (s.queue h).prodDom.toNat = d then (s.queue h).pub else (s.queue h).tail
    head := if (s.queue h).consDom.toNat = d then (s.queue h).free else (s.queue h).head }) ∧
  (∀ h, ((s.queue h).cho = none ∨ ((s.queue h).gated = false ∧ (s.queue h).consDom.toNat ≠ d)) → t.queue h = s.queue h)

/-- BARRIER_DECIDE without an error mark (R116, R158, R161, R162, R167): the step commits. Its count and CHO.COMMIT_CNT grow by one,
the attempt count is zero, the committed STALL_LIMIT is taken, every member tile saves its sequencer, the domain's flags and
queues have new step-start values, gated queues show what the step added and free what it released; then the next step starts,
or the domain waits at the barrier while it is held.

BARRIER_DECIDE with an error mark (R161, R165, R166, R178): the first two attempts are replayed from the step-start state of
the flags and queues, with the next attempt count; the third aborts, the domain is restored with STATE 4, and the abort
is a FAULT entry of the journal.

The model's own choices it rests on: a restore drops outstanding stack requests (notes/assumptions/51.md); when a barrier decides (notes/assumptions/52.md). -/
def Obligations.BarrierCommitsReplaysOrAborts : Prop :=
  (∀ (s : State) (dom : BitVec 10),
    let d := dom.toNat
    let x := s.dom d
    AtBarrier s d → SyncWf s → x.mark = false → x.stopReq = false → s.con.held = [] → (∀ e ∈ x.events, e.kind < 6) →
    let y := { x with
      steps := x.steps + 1, attempt := 0, events := [], mark := false, between := true, limit := LimitNow s }
    ∃ t, exec (.barrierDecide dom) s = .next t ∧
      (s.domInst d = none → x.holdAfter = none → Starts t d y false ∧ Rewatched s t d) ∧
      (∀ n, x.holdAfter = some n → n ≤ (x.steps + 1).toNat → t.dom d = { y with waiting := true } ∧ t.watch = s.watch) ∧
      (∀ p, t.tile p = if p ∈ x.members then { s.tile p with saved := (s.tile p).seq } else s.tile p) ∧
      (∀ e, e ≠ d → t.dom e = s.dom e) ∧ Counts s t aChoCommitCnt 1 ∧
      (∀ h, t.flag h = if (s.flag h).cho ≠ none ∧ (s.flag h).dom.toNat = d
        then { s.flag h with start := (s.flag h).count } else s.flag h) ∧
      (∀ h, (s.queue h).cho ≠ none → t.queue h = { s.queue h with
        pub := if (s.queue h).gated ∧ (s.queue h).prodDom.toNat = d then (s.queue h).tail else (s.queue h).pub
        free := if (s.queue h).gated ∧ (s.queue h).consDom.toNat = d then (s.queue h).head else (s.queue h).free
        startHead := if (s.queue h).consDom.toNat = d then (s.queue h).head else (s.queue h).startHead
        startTail := if (s.queue h).consDom.toNat = d then (s.queue h).tail else (s.queue h).startTail }) ∧
      t.con = { s.con with
        doms := t.con.doms, flags := t.con.flags, queues := t.con.queues, notices := t.con.notices } ∧
      t = { s with con := t.con, reg := t.reg, dbg := t.dbg, wafer.tiles := t.wafer.tiles, watch := t.watch }) ∧
  (∀ (s : State) (dom : BitVec 10),
    let d := dom.toNat
    let x := s.dom d
    AtBarrier s d → SyncWf s → x.mark = true →
    (x.attempt ≠ 2 →
      ∃ t, exec (.barrierDecide dom) s = .next t ∧
        Starts t d { x with attempt := x.attempt + 1, events := [], limit := LimitNow s } true ∧ Rewatched s t d ∧
        SyncRestored s t d ∧ Counts s t aChoReplayCnt 1 ∧ (∀ e, e ≠ d → t.dom e = s.dom e) ∧
        t = { s with
              con.doms := t.con.doms, con.flags := t.con.flags, con.queues := t.con.queues
              reg := t.reg, dbg := t.dbg, watch := t.watch }) ∧
    (x.attempt = 2 →
      ∃ t e, exec (.barrierDecide dom) s = .next t ∧
        t.dom d = { x with
          state := 4, attempt := 0, stopReq := false, arrived := [], await := [], mark := false, events := [], violated := false
          waiting := false, replaying := false, awaitRelease := false } ∧
        (∀ g, g ≠ d → t.dom g = s.dom g) ∧ SyncRestored s t d ∧ Counts s t aChoAbortCnt 1 ∧ TilesRestored s t d ∧
        t.keep.ledger.journal = s.keep.ledger.journal ++ [e] ∧ e.kind = 0x20 ∧ fld e.payload 7 0 = 1 ∧
        fld e.payload 31 22 = d))

/-- BARRIER_RELEASE_ARRIVE (R116, R152, R161, R170): after a commit a tile runs on from the state it has saved; for a replay it takes
its saved state; the outputs of the position stand at entry 0 of phase 0; the arrival is progress of the domain. -/
def Obligations.ReleaseSavesOrRestoresTheTile : Prop :=
  ∀ (s : State) (dom : BitVec 10) (pos : TileIx),
    let d := dom.toNat
    let p := pos.toNat
    let x := s.dom d
    SyncWf s → x.state = 2 → p ∈ x.await → s.beatDom d = false →
    ∃ t, exec (.barrierReleaseArrive dom pos) s = .next t ∧
      t.dom d = { x with await := x.await.filter (fun q => q != p) } ∧ (∀ e, e ≠ d → t.dom e = s.dom e) ∧
      (p ∈ x.members → x.replaying = false → t.tile p = { s.tile p with
        saved := (s.tile p).seq, wait := .no, steps := x.steps }) ∧
      (p ∈ x.members → x.replaying = true → t.tile p = { s.tile p with
        seq := (s.tile p).saved, wait := .no, mark := false, outbox := [], reads := [], ctabWait := false, product := none }) ∧
      (p ∉ x.members → t.tile p = s.tile p) ∧ (∀ j, j ≠ p → t.tile j = s.tile j) ∧
      (∀ k, t.outp k = if k / 5 = p ∧ (s.outp k).cho ≠ none
        then { s.outp k with phase := 0, rep := 0, entry := 0, moved := 0 } else s.outp k) ∧ Rewatched s t d ∧
      t = { s with
            con.doms := t.con.doms, wafer.tiles := t.wafer.tiles, wafer.outputs := t.wafer.outputs
            beat.hold := t.beat.hold, watch := t.watch }

/-- ASYNC_SIGNAL_ARRIVE (R159): from the start of a step of its domain until that step has committed a signal or an entry is held,
in arrival order; between steps it is applied at once, and the flag's or queue's step-start value with it; a signal that would take the flag above 65,535 leaves it as it is
and is a violation of kind 5 that freezes no master and stops the domain with STATE 6.

The model's own choices it rests on: what VIOL_ADDR holds (notes/assumptions/40.md); an item outside a step is applied at once (notes/assumptions/59.md); what Loupe detects lands all the same (notes/assumptions/149.md). -/
def Obligations.AsynchronousItemsAreHeldDuringAStep : Prop :=
  ∀ (s : State) (flag : BitVec 18) (amount : BitVec 8) (queue : BitVec 16) (flit : List Byte), SyncWf s →
    let f := s.flag flag.toNat
    let d := f.dom.toNat
    let q := s.queue queue.toNat
    (f.cho ≠ none → (s.dom d).between = false →
      ∃ t, exec (.asyncSignalArrive (.signal flag amount)) s = .next t ∧
        t = { s with con.held := s.con.held ++ [.signal flag amount], dbg.loupe := t.dbg.loupe }) ∧
    (q.cho ≠ none → (s.dom q.consDom.toNat).between = false →
      ∃ t, exec (.asyncSignalArrive (.entry queue flit)) s = .next t ∧
        t = { s with con.held := s.con.held ++ [.entry queue flit], dbg.loupe := t.dbg.loupe }) ∧
    (f.cho ≠ none → (s.dom d).between = true → s.con.held = [] → f.count.toNat + amount.toNat ≤ 65535 →
      ∃ t, exec (.asyncSignalArrive (.signal flag amount)) s = .next t ∧
        (t.flag flag.toNat).count.toNat = f.count.toNat + amount.toNat ∧
        (t.flag flag.toNat).start = (t.flag flag.toNat).count ∧ (∀ g, g ≠ flag.toNat → (t.flag g).count = (s.flag g).count) ∧
        t = { s with con.flags := t.con.flags, con.queues := t.con.queues, dbg.loupe := t.dbg.loupe }) ∧
    (f.cho ≠ none → (s.dom d).between = true → (s.dom d).state ≠ 0 → s.domInst d = none → s.con.held = [] → 65535 < f.count.toNat + amount.toNat →
      ∃ t, exec (.asyncSignalArrive (.signal flag amount)) s = .next t ∧
        (∀ g, (t.flag g).count = (s.flag g).count) ∧ (t.dom d).state = 6 ∧ t.trust = s.trust ∧
        t.rfld aChoViolInfo 7 0 = 5 ∧ t.reg64 aChoViolAddr = BitVec.ofNat 64 flag.toNat ∧ Counts s t aChoViolCnt 1) ∧
    (q.cho ≠ none → (s.dom q.consDom.toNat).between = true → s.con.held = [] → queueFree q ≠ 0 → flit.length = 128 →
      (s.dom (s.domOf q.consumer)).loupe = false →
      ∃ t, exec (.asyncSignalArrive (.entry queue flit)) s = .next t ∧
        (t.queue queue.toNat).tail = (q.tail + 1) % (2 * q.depth) ∧ (t.queue queue.toNat).head = q.head ∧
        Stored s t q.consumer (q.store + 128 * (q.tail % q.depth)) flit ∧ t.wafer.tiles = s.wafer.tiles ∧ t.reg = s.reg)

/-- STALL_TIMEOUT (R170): once the domain has made no progress for its STALL_LIMIT, the step is abandoned; sequencers, flags and
queues return to their step-start values, the domain stops with STATE 5, counted and logged with the limit. It does nothing
before, or while the watchdog does not run: the domain is not in a step, waits at its barrier or for its manager, is held by
another part, or a member holds a young completion entry.

REPAIR_HOLD_END (R364) while other repairs of the hold go on: a tile that passes its self-test is no longer marked and the
hold waits for the others; a committed tile that fails is retired, counted and logged.

The model's own choices it rests on: a restore drops outstanding stack requests (notes/assumptions/51.md); when STALL_LIMIT is taken (notes/assumptions/65.md); a time-limit event looks at the clock (notes/assumptions/70.md). -/
def Obligations.StallsAndRepairHoldsEnd : Prop :=
  (∀ (s : State) (dom : BitVec 10),
    let d := dom.toNat
    let x := s.dom d
    (SyncWf s → x.state = 2 → x.waiting = false → x.awaitRelease = false → x.remoteHold = false → s.holdsRemote x = false →
      (x.spans = true → s.rfld aFabMgrState 1 0 ≠ 1) → s.beatDom d = false → x.limit ≤ kvGet 0 d s.watch →
      ∃ t e, exec (.stallTimeout dom) s = .next t ∧ (t.dom d).state = 5 ∧ (t.dom d).attempt = 0 ∧
        (t.dom d).steps = x.steps ∧ (∀ g, g ≠ d → t.dom g = s.dom g) ∧ SyncRestored s t d ∧ Counts s t aChoStallCnt 1 ∧
        TilesRestored s t d ∧ Rewatched s t d ∧
        t.keep.ledger.journal = s.keep.ledger.journal ++ [e] ∧ e.kind = 0x20 ∧ fld e.payload 7 0 = 2 ∧
        fld e.payload 31 22 = d ∧ fld e.payload 63 32 = x.limit % 2 ^ 32) ∧
    (x.state ≠ 2 ∨ x.waiting = true ∨ x.awaitRelease = true ∨ x.remoteHold = true ∨ s.holdsRemote x = true ∨
      kvGet 0 d s.watch < x.limit → exec (.stallTimeout dom) s = .next s)) ∧
  (∀ (s : State) (dom : BitVec 10) (tile : TileIx),
    let d := dom.toNat
    let k := tile.toNat
    let x := s.dom d
    let times := (s.tile k).repairTimes.filter (fun c => decide (s.clock ≤ c + 86400 * 1000000))
    x.state = 3 → k ∈ x.repairTiles → times.length < 3 →
    (x.repairArrays ≠ [] →
      ∃ t, exec (.repairHoldEnd dom tile true) s = .next t ∧
        t.dom d = { x with repairTiles := x.repairTiles.filter (fun q => q != k) } ∧ (∀ e, e ≠ d → t.dom e = s.dom e) ∧
        t.tile k = { s.tile k with repairPending := false, repairTimes := times } ∧ (∀ j, j ≠ k → t.tile j = s.tile j) ∧
        OnlyCounter s t aRepTileTestCnt 1 ∧
        t = { s with con.doms := t.con.doms, wafer.tiles := t.wafer.tiles, reg.vals := t.reg.vals }) ∧
    (s.mapOf k = 0 → (s.tile k).cho = none →
      ∃ t, exec (.repairHoldEnd dom tile false) s = .next t ∧ t.mapOf k = 2 ∧ (t.tile k).repairPending = false ∧
        Counts s t aRepTileTestCnt 1 ∧ Counts s t aRepTileRetireCnt 1 ∧
        (∃ e, e ∈ t.keep.ledger.journal ∧ e.kind = 0x12 ∧
          e.payload = BitVec.ofNat 64 (k + (s.tile k).repairCause * 2 ^ 14))))

/-- An access of a path reaches its block: the path is present in the module's state, the block is powered, and the host's I/O
agent is neither frozen nor kept out by its tag (R313, R328). -/
def Sys2Proof.Machine.Reaches (s : State) (path : Path) (a : Nat) (write : Bool) : Prop :=
  s.reach path a write = .served ∧ (path = .host → s.frozenAt 2 0 = false ∧ s.agentMay a = true)

/-- An access is refused: the path has an error status, the host's one is recorded and counted, and nothing else changes (R329, R330). -/
def Sys2Proof.Machine.Refused (s t : State) (path : Path) (kind : Nat) (write : Bool) (a : Nat) : Prop :=
  t.resp = { status := 1, data := [] } ∧ t = { s with resp := t.resp, reg.vals := t.reg.vals } ∧
  (path ≠ .host → t.reg = s.reg) ∧
  (path = .host → Counts s t aHostAccErrCnt 1 ∧ t.rfld aHostErrInfo 3 0 = kind ∧ t.rbit aHostErrInfo 5 = write ∧
    t.reg64 aHostErrAddr = BitVec.ofNat 64 (a % 2 ^ 48) ∧ RegsBut s t [aHostAccErrCnt, aHostErrInfo, aHostErrAddr])

/-- DOMAIN_FIRST_STEP (R138, R147): every segment that changes tenant is zero, and once the choreography has been released each of
its domains enters its first step. STAGE_STEP_START (R253): a stage that waits at its barrier starts its next step once its
conditions hold, and not before.

DOM_CTRL (R148, R166, R167, R178): RESTART of a domain that stopped by abort, stall or STOP enters its step from its step-start
state with attempt 0; STOP is held for the next barrier, at once with STATE 7 when the domain waits at one; UNLOAD of a stopped
domain leaves its number free; a command the domain's state does not accept is refused.

The model's own choices it rests on: when a STOP takes effect (notes/assumptions/60.md). -/
def Obligations.DomainsStartStopAndUnload : Prop :=
  (∀ (s : State) (choId : Half) (c : Nat) (x : Cho) (inst : BitVec 10) (stage : BitVec 6) (d : Nat),
    (s.con.chos.find? (fun e => e.2.image.choId == choId && !e.2.started) = some (c, x) → x.released = true →
      x.inst = none → s.beat.cho = none →
      (∀ e ∈ x.doms, (s.dom e.2.toNat).state = 1 ∧ (s.dom e.2.toNat).spans = false ∧ (s.dom e.2.toNat).cho = c ∧
        (s.dom e.2.toNat).holdAfter = none) →
      ∃ t, exec (.domainFirstStep choId) s = .next t ∧
        (∀ r ∈ x.image.tiles, (t.tile r.tile).clearing = [] ∧
          ∀ g ∈ (s.tile r.tile).clearing, ∀ i, i < 16384 → memGet 0 (scrKey r.tile (16384 * g) + i) t.wafer.scratch = 0) ∧
        (∀ e ∈ x.doms, Starts t e.2.toNat { s.dom e.2.toNat with state := 2 } false) ∧
        kvFind c t.con.chos = some { x with started := true } ∧ t.con.flags = s.con.flags ∧ t.con.queues = s.con.queues) ∧
    (s.stageDom inst.toNat stage.toNat = some d → (s.dom d).state = 2 → (s.dom d).waiting = true →
      (s.dom d).repairTiles = [] → (s.dom d).repairArrays = [] →
      (s.stepReady d = true →
        ∃ t, exec (.stageStepStart inst stage) s = .next t ∧ Starts t d (s.dom d) false ∧ (∀ e, e ≠ d → t.dom e = s.dom e) ∧
          Rewatched s t d ∧ t = { s with con.doms := t.con.doms, dbg.loupe := t.dbg.loupe, watch := t.watch }) ∧
      (s.stepReady d = false → exec (.stageStepStart inst stage) s = .next s))) ∧
  (∀ (s : State) (path : Path) (dom : BitVec 10),
    let d := dom.toNat
    let x := s.dom d
    let a := aChoDomCtrl d
    Reaches s path a true →
    ((x.state = 4 ∨ x.state = 5 ∨ x.state = 7) → x.retiredRef = false → x.spans = false → s.domInst d = none →
      x.holdAfter = none → s.domInCal x = false → x.repairTiles = [] → x.repairArrays = [] → s.beatDom d = false →
      ∃ t, exec (.domCtrlRestart path dom) s = .next t ∧
        Starts t d { x with
          state := 2, attempt := 0, arrived := [], violated := false, awaitRelease := false, stopReq := false } false ∧
        (∀ e, e ≠ d → t.dom e = s.dom e) ∧ t.resp = { status := 0, data := [] } ∧ Rewatched s t d ∧
        t = { s with
              con.doms := t.con.doms, fab.ctab := t.fab.ctab, resp := t.resp, dbg.loupe := t.dbg.loupe
              watch := t.watch }) ∧
    (x.state = 6 → s.domFrozen x = true →
      ∃ t, exec (.domCtrlRestart path dom) s = .next t ∧ Refused s t path 2 true a) ∧
    (x.state = 2 → x.waiting = false → s.ctrlBarred d = false →
      ∃ t, exec (.domCtrlStop path dom) s = .next t ∧ t.dom d = { x with stopReq := true } ∧
        (∀ e, e ≠ d → t.dom e = s.dom e) ∧ t.resp = { status := 0, data := [] } ∧
        t = { s with con.doms := t.con.doms, trust := t.trust, resp := t.resp }) ∧
    (x.state = 2 → x.waiting = true → s.ctrlBarred d = false →
      exec (.domCtrlStop path dom) s = .next ({ s.setDom d { x with waiting := false, state := 7 } with
        resp := { status := 0, data := [] } } : State)) ∧
    (4 ≤ x.state.toNat → s.ctrlBarred d = false →
      ∃ t, exec (.domCtrlUnload path dom) s = .next t ∧ t.dom d = {} ∧ (∀ e, e ≠ d → t.dom e = s.dom e) ∧
        t.resp = { status := 0, data := [] } ∧ RegsBut s t [aChoStallLimit] ∧ t.wafer.scratch = s.wafer.scratch ∧
        Rewatched s t d ∧
        t.keep = s.keep ∧ t.trust = s.trust) ∧
    (x.state.toNat < 4 →
      ∃ t, exec (.domCtrlUnload path dom) s = .next t ∧ Refused s t path 2 true a) ∧
    (x.state = 7 → ∃ t, exec (.domCtrlStop path dom) s = .next t ∧ Refused s t path 2 true a))

/-! ### Rings and stacks (R128 to R136, R207 to R210) -/

/-- Only the rings, the memory behind them, the answer and registers differ. -/
def Sys2Proof.Machine.OnlyRings (s t : State) : Prop :=
  t = { s with
        mem := t.mem, wafer.scratch := t.wafer.scratch, wafer.scratchBad := t.wafer.scratchBad
        resp := t.resp, reg.vals := t.reg.vals } ∧
  t.mem = { s.mem with
        stack := t.mem.stack, stackBad := t.mem.stackBad, zeroFill := t.mem.zeroFill, sram := t.mem.sram
        rings := t.mem.rings }

/-- RING_APPEND_WRITE (R129, R131, R132, R135): a write that keeps the window's rules goes into the window's assembly buffer; the
write of the last 8-byte word completes the entry, in which bytes not written since the last completion are zero, and the
entry takes the slot at the tail; on a full ring with policy DROP, or a disabled ring, it is discarded and counted, with policy
HOLD it waits; a write to a window of an unused ring is discarded and counted.

RING_HOLD_ACCEPT (R132, R217): once a slot is free, the oldest waiting entry of a module producer enters the ring, else the
held entry of the window; then the load engines go on if the ring was theirs. A ring in use without a free slot keeps both
waiting; a ring that has been disabled discards the entry that would have entered, and counts it.

The model's own choices it rests on: how a malformed append is counted (notes/assumptions/71.md); whose waiting entry enters first (notes/assumptions/73.md). -/
def Obligations.AppendsEnterTheRing : Prop :=
  (∀ (s : State) (path : Path) (a r w off : Nat) (data : List Byte),
    windowOf a = some (r, w, off) → s.reach path a true = .served →
    (path = .host → s.frozenAt 2 0 = false ∧ (s.agentTag 0 = 0 ∨ s.agentTag 0 = s.ringTenant r) ∧ data.length ≤ 256) →
    let x := s.ring r
    let n := s.ringCount r
    let esz := s.ringEsz r
    let part := memWrite 0 off data (kvGet [] w x.part)
    (n = 0 → ∃ t, exec (.ringAppendWrite path a data) s = .next t ∧ OnlyCounter s t (aRingDrop r) 1 ∧
      t = { s with reg.vals := t.reg.vals, resp := { status := 0, data := [] } }) ∧
    (n ≠ 0 → data.length ∈ [8, 16, 32, 64, 128, 256, 512, 1024, 2048, 4096] → off % data.length = 0 → off + data.length ≤ esz →
      w < s.ringWindows r → w ∉ x.waiting →
      ∃ t, exec (.ringAppendWrite path a data) s = .next t ∧ t.resp = { status := 0, data := [] } ∧ OnlyRings s t ∧
        (∀ q, q ≠ r → t.ring q = s.ring q) ∧ (t.ring r).head = x.head ∧ (t.ring r).outbox = x.outbox ∧
        (∀ v, v ≠ w → kvFind v (t.ring r).part = kvFind v x.part) ∧
        (off + data.length ≠ esz →
          kvFind w (t.ring r).part = some part ∧ (t.ring r).tail = x.tail ∧ t.reg = s.reg ∧ t.mem.stack = s.mem.stack) ∧
        (off + data.length = esz → s.ringEnabled r = true → s.ringFull r = false →
          kvFind w (t.ring r).part = none ∧ (t.ring r).tail = (x.tail + 1) % (2 * n) ∧
          t.slotRead r (x.tail % n) = memRead 0 0 esz part) ∧
        (off + data.length = esz → (s.ringEnabled r = false ∨ (s.ringFull r = true ∧ s.ringPolicy r ≠ 0)) →
          kvFind w (t.ring r).part = none ∧ (t.ring r).tail = x.tail ∧ OnlyCounter s t (aRingDrop r) 1 ∧
          t.mem.stack = s.mem.stack) ∧
        (off + data.length = esz → s.ringEnabled r = true → s.ringFull r = true → s.ringPolicy r = 0 →
          kvFind w (t.ring r).part = some part ∧ w ∈ (t.ring r).waiting ∧ (t.ring r).tail = x.tail ∧ t.reg = s.reg))) ∧
  (∀ (s : State) (ring : RingId) (window : BitVec 3),
    let r := ringNo ring
    let x := s.ring r
    let n := s.ringCount r
    (s.ringSpace r = true → ∀ bs rest, x.outbox = bs :: rest → bs.length = s.ringEsz r →
      ∃ u, exec (.ringHoldAccept ring window) s = .next (if r = 513 then u.jobsPump 300 else u) ∧
        u.ring r = { x with tail := (x.tail + 1) % (2 * n), outbox := rest } ∧ (∀ q, q ≠ r → u.ring q = s.ring q) ∧
        u.slotRead r (x.tail % n) = bs ∧ OnlyRings s u) ∧
    (s.ringSpace r = true → x.outbox = [] → window.toNat ∈ x.waiting →
      ∃ t, exec (.ringHoldAccept ring window) s = .next t ∧ (t.ring r).tail = (x.tail + 1) % (2 * n) ∧
        window.toNat ∉ (t.ring r).waiting ∧ kvFind window.toNat (t.ring r).part = none ∧
        t.slotRead r (x.tail % n) = memRead 0 0 (s.ringEsz r) (kvGet [] window.toNat x.part) ∧
        (∀ q, q ≠ r → t.ring q = s.ring q) ∧ OnlyRings s t) ∧
    (s.ringEnabled r = true → s.ringSpace r = false → exec (.ringHoldAccept ring window) s = .next s) ∧
    (s.ringEnabled r = false → ∀ bs rest, x.outbox = bs :: rest →
      ∃ u, exec (.ringHoldAccept ring window) s = .next (if r = 513 then u.jobsPump 300 else u) ∧
        u.ring r = { x with outbox := rest } ∧ (∀ q, q ≠ r → u.ring q = s.ring q) ∧ OnlyCounter s u (aRingDrop r) 1 ∧
        u = { s with mem.rings := u.mem.rings, reg.vals := u.reg.vals }) ∧
    (s.ringEnabled r = false → x.outbox = [] → window.toNat ∈ x.waiting →
      ∃ t, exec (.ringHoldAccept ring window) s = .next t ∧ (t.ring r).tail = x.tail ∧ (t.ring r).head = x.head ∧
        window.toNat ∉ (t.ring r).waiting ∧ kvFind window.toNat (t.ring r).part = none ∧
        (∀ q, q ≠ r → t.ring q = s.ring q) ∧ OnlyCounter s t (aRingDrop r) 1 ∧
        t = { s with mem.rings := t.mem.rings, reg.vals := t.reg.vals }))

/-- RING_CONSUME_READ (R134, R139), through a consume window or, of a ring without one, by the firmware: offset 0 holds OCCUPANCY and
FULL, offset 64 upward the head entry, zero while the ring is empty; a read that covers the entry's last word while the ring is
not empty releases the head entry; no other read changes a ring. The pages of an entry in stack memory are zero-filled if they
wait for it, and read as before.

RING_SAFE_POINT (R136): a committed change of ENABLE or POLICY alone applies at once and leaves the entries; any other waits until
the ring is empty with no partial entry, then applies with head and tail at index 0 and wrap 0. -/
def Obligations.ConsumeReadsAndConfiguration : Prop :=
  (∀ (s : State) (path : Path) (ring : RingId) (off len : Nat),
    let r := ringNo ring
    let x := s.ring r
    let n := s.ringCount r
    (∀ base, consumeAddr r = some base → Reaches s path (base + off) false ∧
      (path = .host → s.agentTag 0 = 0 ∨ s.agentTag 0 = s.ringTenant r)) →
    (consumeAddr r = none → path = .firmware) →
    len ∈ [8, 16, 32, 64] → off % len = 0 → off + len ≤ 64 + s.ringEsz r →
    let held := (x.tail + 2 * n - x.head) % (2 * n)
    let status := natLe 8 (held + (if 0 < n ∧ held = n then 2 ^ 17 else 0))
    let entry := if held = 0 then List.replicate (s.ringEsz r) (0 : Byte) else s.slotRead r (x.head % n)
    let covers := off ≤ 64 + s.ringEsz r - 8 ∧ 64 + s.ringEsz r ≤ off + len ∧ held ≠ 0
    ∃ t, exec (.ringConsumeRead path ring off len) s = .next t ∧
      t.resp = { status := 0, data := ((status ++ List.replicate 56 0 ++ entry).drop off).take len } ∧
      (covers → t.ring r = { x with head := (x.head + 1) % (2 * n) } ∧ ∀ q, q ≠ r → t.ring q = s.ring q) ∧
      (¬ covers → t.mem.rings = s.mem.rings) ∧ (off + len ≤ 64 → t = { s with resp := t.resp }) ∧
      (∀ a m, t.stk a m = s.stk a m) ∧ RegsBut s t [aMemZeroFillCnt] ∧
      t = { s with
            mem.rings := t.mem.rings, mem.stack := t.mem.stack, mem.stackBad := t.mem.stackBad
            mem.zeroFill := t.mem.zeroFill, reg.vals := t.reg.vals, resp := t.resp }) ∧
  (∀ (s : State) (ring : RingId),
    let r := ringNo ring
    let x := s.ring r
    let due := kvFind (aRing r) s.reg.committed ≠ none ∨ kvFind (aRing r + 8) s.reg.committed ≠ none
    let light := s.committedOf (aRing r + 8) = s.reg64 (aRing r + 8) ∧
      (s.committedOf (aRing r) ^^^ s.reg64 (aRing r)) &&& ~~~0x1000C = 0
    let applied (t : State) : Prop :=
      t.reg64 (aRing r) = s.committedOf (aRing r) ∧ t.reg64 (aRing r + 8) = s.committedOf (aRing r + 8) ∧
      kvFind (aRing r) t.reg.committed = none ∧ kvFind (aRing r + 8) t.reg.committed = none ∧
      RegsBut s t [aRing r, aRing r + 8] ∧ t.reg.staged = s.reg.staged
    (due → light → ∃ t, exec (.ringSafePoint ring) s = .next t ∧ applied t ∧ t = { s with reg := t.reg }) ∧
    (due → ¬ light → s.ringHolds r = 0 → x.part = [] →
      ∃ t, exec (.ringSafePoint ring) s = .next t ∧ applied t ∧ t.ring r = { x with head := 0, tail := 0 } ∧
        (∀ q, q ≠ r → t.ring q = s.ring q) ∧ t = { s with reg := t.reg, mem.rings := t.mem.rings }) ∧
    (¬ light → (s.ringHolds r ≠ 0 ∨ x.part ≠ []) → exec (.ringSafePoint ring) s = .next s) ∧
    (¬ due → exec (.ringSafePoint ring) s = .next s))

/-- STACK_REQUEST_ACCEPT (R208, R209): the next request of the stack's rotation takes a tag; a read keeps it until its data
returns, a write is written, and a load engine goes on once its write is done; with all 2,048 tags held the request waits and is
counted once. The write is stated where no domain runs under Loupe.

STACK_READ_RETURN (R210): the oldest read that holds a tag frees it and its flits are offered to the mesh; a clean read delivers the
stored bytes with good parity where no word is poisoned; an uncorrectable read delivers every byte with bad parity and is
counted.

The model's own choices it rests on: how a stack access is split into requests (notes/assumptions/13.md); a write flit goes to the oldest write that lacks flits (notes/assumptions/43.md). -/
def Obligations.StackRequestsAndReads : Prop :=
  (∀ (s : State) (stack : BitVec 5) (r : StackReq) (rest : List StackReq),
    let k := stack.toNat
    let x := s.stack k
    let mesh := x.turn ≠ 4 ∧ x.queue = r :: rest
    let direct := x.turn = 4 ∧ x.direct = r :: rest
    let taken (y : Stack) : Prop :=
      (mesh → y = { x with queue := rest, turn := (x.turn + 1) % 5, busy := y.busy, waited := false }) ∧
      (direct → y = { x with direct := rest, turn := (x.turn + 1) % 5, busy := y.busy, waited := false })
    (mesh ∨ direct) →
    (x.busy.length < 2048 → r.data = none →
      ∃ t, exec (.stackRequestAccept stack) s = .next t ∧ taken (t.stack k) ∧ (t.stack k).busy = x.busy ++ [r] ∧
        (∀ j, j ≠ k → t.stack j = s.stack j) ∧
        t = { s with
              mem.stackUnits := t.mem.stackUnits, mem.stack := t.mem.stack, mem.stackBad := t.mem.stackBad
              mem.zeroFill := t.mem.zeroFill, reg.vals := t.reg.vals }) ∧
    (∀ fs, x.busy.length < 2048 → r.data = some fs → (∀ f ∈ fs, f.bytes.length = 128 ∧ f.bad = []) →
      (∀ e ∈ s.con.doms, e.2.loupe = false) →
      ∃ t, exec (.stackRequestAccept stack) s = .next (if r.who = .engine then t.jobsPump 300 else t) ∧ taken (t.stack k) ∧ (t.stack k).busy = x.busy ∧
        (∀ i f, fs[i]? = some f → t.stk (r.addr + 128 * i) 128 = f.bytes) ∧
        (∀ p, p ∉ s.mem.zeroFill → ∀ b, b / 65536 = p → (b < r.addr ∨ r.addr + 128 * fs.length ≤ b) →
          memGet 0 b t.mem.stack = memGet 0 b s.mem.stack) ∧
        (∀ j, j ≠ k → t.stack j = s.stack j) ∧ t.wafer = s.wafer ∧ t.con = s.con ∧ t.load = s.load) ∧
    (2048 ≤ x.busy.length → x.waited = false →
      ∃ t, exec (.stackRequestAccept stack) s = .next t ∧ t.stack k = { x with waited := true } ∧
        (∀ j, j ≠ k → t.stack j = s.stack j) ∧ OnlyCounter s t aMemTagWaitCnt 1 ∧
        t = { s with mem.stackUnits := t.mem.stackUnits, reg.vals := t.reg.vals }) ∧
    (2048 ≤ x.busy.length → x.waited = true → exec (.stackRequestAccept stack) s = .next s)) ∧
  (∀ (s : State) (stack : BitVec 5) (r : StackReq) (rest : List StackReq) (t0 : Nat),
    let k := stack.toNat
    let x := s.stack k
    let at' := returnPos k t0
    x.busy = r :: rest → r.who = .tile t0 → s.rfld (aMemStackState k) 1 0 ≠ 2 →
    (∃ t fs, exec (.stackReadReturn stack .clean) s = .next t ∧ t.stack k = { x with busy := rest } ∧
      (t.tile at').outbox = (s.tile at').outbox ++ fs ∧ fs.length = r.flits ∧
      (∀ i, i < r.flits → ∃ f, fs[i]? = some f ∧ f.bytes = s.stk (r.addr + 128 * i) 128 ∧
        ∀ b, b ∈ f.bad ↔ b < 128 ∧ ((r.addr + 128 * i + b) / 32) ∈ s.mem.stackBad ∧
          ((r.addr + 128 * i + b) / 65536) ∉ s.mem.zeroFill) ∧
      (∀ j, j ≠ at' → t.tile j = s.tile j) ∧ (∀ j, j ≠ k → t.stack j = s.stack j) ∧
      t = { s with mem.stackUnits := t.mem.stackUnits, wafer.tiles := t.wafer.tiles }) ∧
    (∃ t fs, exec (.stackReadReturn stack .uncorrectable) s = .next t ∧ (t.stack k).busy = rest ∧
      (t.tile at').outbox = (s.tile at').outbox ++ fs ∧ fs.length = r.flits ∧
      (∀ f ∈ fs, ∀ b, b ∈ f.bad ↔ b < 128) ∧ Counts s t aMemEccUncorrCnt 1 ∧ t.mem.stack = s.mem.stack))

/-! ### Loading (R216 to R241, R263) -/

/-- A job with the descriptor `d` stands at the head of the load ring, the engines can take it, and no orderly stop runs (R217, R218). -/
def Sys2Proof.Machine.AtLoadRing (s : State) (d : List Word) : Prop :=
  (s.ring 513).outbox = [] ∧ s.ringHolds 512 ≠ 0 ∧ d = (wordsOf (s.ringHead 512)).take 16 ∧ s.stopping = false

/-- The descriptor has been released from the load ring. -/
def Sys2Proof.Machine.LoadRingTaken (s t : State) : Prop :=
  (t.ring 512).head = ((s.ring 512).head + 1) % (2 * s.ringCount 512) ∧ (t.ring 512).tail = (s.ring 512).tail

/-- The job as it enters the list. -/
def Sys2Proof.Machine.jobFor (d : List Word) (env : JobEnv) : Job := { src := .ring, desc := d, env := env, phase := .waiting }

/-- One load response of a kind and status has entered the response ring, where that ring has room (R240). -/
def Sys2Proof.Machine.Answered (s t : State) (kind status : Nat) : Prop :=
  s.ringSpace 513 = true → (s.ring 513).outbox = [] →
    (t.ring 513).tail = ((s.ring 513).tail + 1) % (2 * s.ringCount 513) ∧
    (t.slotRead 513 ((s.ring 513).tail % s.ringCount 513)).getD 0 0 = BitVec.ofNat 8 kind ∧
    (t.slotRead 513 ((s.ring 513).tail % s.ringCount 513)).getD 1 0 = BitVec.ofNat 8 status

/-- Load engine `e` has asked the stacks to write bytes from an address: its requests carry the bytes in order, of 1 to 4 flits each
from one address on without a gap, none across a page, each at its stack's direct port if the engine is of that memory field, at
its mesh port else (R208, R209, R225). -/
def Sys2Proof.Machine.EngineWrites (s t : State) (e a : Nat) (bs : List Byte) : Prop :=
  ∃ rs : List StackReq,
    (∀ i q, rs[i]? = some q → q.who = .engine ∧ 1 ≤ q.flits ∧ q.flits ≤ 4 ∧
      q.addr = a + 128 * ((rs.take i).map (fun p => p.flits)).sum ∧
      (a % 128 = 0 → q.addr % 65536 + 128 * q.flits ≤ 65536)) ∧
    rs.flatMap (fun q => (q.data.getD []).flatMap (fun f => f.bytes)) = bs ∧
    ∀ k, t.stack k =
      let mine := rs.filter (fun q => q.addr / 2 ^ 37 == k)
      if k / 4 = e then { s.stack k with direct := (s.stack k).direct ++ mine }
      else { s.stack k with queue := (s.stack k).queue ++ mine }

/-- LOAD_MODEL, REPLACE, REPAIR, ABORT_PROM, UNLOAD, PURGE, ADAPTER and GRAMMAR with a malformed descriptor or list (R220, R241): the
descriptor leaves the ring, the job is refused with FORMAT and counted, and changes no instance, choreography, array or sequence.
Lists in HDM staging are those in the stacks (R219).

The operations of the load ring start (R220, R227 to R229, R236, R237, R263): LOAD_MODEL binds the preloaded choreography and is
LOADING; a staged REPLACE is FETCHING, a streamed one in PROMENADE; UNLOAD is UNLOADING; PURGE of an EMPTY instance without
orphaned arrays ends with OK; ADAPTER fetches; GRAMMAR fetches and waits for its number. Lists in HDM staging are those in the
stacks (R219).

The model's own choices it rests on: which descriptor fields an operation reads (notes/assumptions/31.md). -/
def Obligations.LoadJobsAreCheckedAndStart : Prop :=
  (∀ (s : State) (d : List Word) (env : JobEnv), AtLoadRing s d → s.load.jobs = [] →
    let refused (c : Instr) : Prop := ∃ t, exec c s = .next t ∧ LoadRingTaken s t ∧ t.load = s.load ∧
      Counts s t aLoadRefuseCnt 1 ∧ Counts s t aLoadJobCnt 0 ∧ Answered s t 0 1 ∧ t.con = s.con ∧ t.arr = s.arr ∧ t.srv = s.srv
    let bad (e : JobEnv) : Prop := descBad d = true ∨ listsBad d (s.spaceEnv d e).2 = true
    (descOp d = 1 → s.calHolds (jobFor d env) = false → bad env → refused (.loadModel .ring env)) ∧
    (descOp d = 2 → bad env → refused (.replace env)) ∧ (descOp d = 3 → bad env → refused (.repair env)) ∧
    (descOp d = 4 → bad noEnv → refused .abortProm) ∧ (descOp d = 5 → bad noEnv → refused .unload) ∧
    (descOp d = 6 → bad noEnv → refused .purge) ∧ (descOp d = 7 → bad env → refused (.adapter env)) ∧
    (descOp d = 8 → bad env → refused (.grammar env)) ∧ (descOp d = 0 ∨ 8 < descOp d → refused (.loadModel .ring env))) ∧
  (∀ (s : State) (d : List Word) (env : JobEnv), AtLoadRing s d → s.load.jobs = [] → descBad d = false →
    let i := descInst d
    let x := s.inst i
    let lists := (s.spaceEnv d env).2
    let j := jobFor d lists
    let placed := placedOf lists.shards lists.placements
    let size := placed.length * recordLen
    let started (t : State) (phase : JobPhase) : Prop := LoadRingTaken s t ∧ Counts s t aLoadJobCnt 1 ∧
      Counts s t aLoadRefuseCnt 0 ∧ ∃ k, t.load.jobs = [k] ∧ k.phase = phase ∧ k.desc = d ∧ k.fetched = [] ∧ k.failed = []
    (∀ c im, descOp d = 1 → listsBad d lists = false → lists.shards ≠ [] → x.state = 0 → descGen d ≠ 0 → recFld d 5 31 0 = 0 →
      s.jobCho j = some (c, im) → s.choOf c ≠ none → s.calHolds j = false → s.loadStatus j im placed = 0 →
      ∃ t, exec (.loadModel .ring env) s = .next t ∧ started t .fetching ∧
        t.inst i = {
          state := 1, tenant := BitVec.ofNat 8 (descTenant d), cho := some c, stages := stagesOf lists, placed
          shadow := descShadow d, shadowN := placed.length } ∧ (∀ k, k ≠ i → t.inst k = s.inst k)) ∧
    (descOp d = 2 → listsBad d lists = false → x.state = 2 → (x.cho = none ∨ x.cho ≠ s.beat.cho) →
      descGen d = (if x.gen.toNat = 65535 then 1 else x.gen.toNat + 1) → descTenant d = x.tenant.toNat →
      s.inTenant (descTenant d) (descShadow d) size = true →
      placesBad (match x.cho.bind s.choOf with | some c => choTiles c | none => []) placed = false →
      s.inKind 1 (descShadow d) size = true → overlaps (descShadow d) size x.shadow (x.shadowN * recordLen) = false →
      (descStream d = false → ∃ t, exec (.replace env) s = .next t ∧ started t .fetching ∧ t.inst i = { x with state := 3 } ∧
        (∀ k, k ≠ i → t.inst k = s.inst k)) ∧
      (descStream d = true → (∀ m ∈ s.instDoms i, (s.dom m).state.toNat < 4) →
        ∃ t, exec (.replace env) s = .next t ∧ started t .programming ∧ (t.inst i).state = 4 ∧ (t.inst i).gen = x.gen ∧
          (t.inst i).done = [] ∧ (t.inst i).passed = [])) ∧
    (descOp d = 5 → x.state = 2 → descTenant d = x.tenant.toNat → listsBad d noEnv = false →
      ∃ t, exec .unload s = .next t ∧ started t .draining ∧ (t.inst i).state = 7) ∧
    (descOp d = 6 → x.state = 0 → listsBad d noEnv = false →
      (∀ e ∈ s.arr.recs, e.2.state = 5 → e.2.inst.toNat = i → e.2.tenant.toNat ≠ descTenant d) →
      ∃ t, exec .purge s = .next t ∧ LoadRingTaken s t ∧ Counts s t aLoadJobCnt 1 ∧ t.load = s.load ∧ t.arr = s.arr ∧
        Answered s t 0 0) ∧
    (descOp d = 7 → listsBad d lists = false → lists.shards ≠ [] → (s.adapterRec (descObject d)).users = 0 →
      (s.adapterRec (descObject d)).tuning = false →
      (∀ r ∈ lists.shards, s.inTenant (descTenant d) (descShadow d + shOffset r) (adapterLen r) = true ∧
        s.inKind 3 (descShadow d + shOffset r) (adapterLen r) = true) →
      ∃ t, exec (.adapter env) s = .next t ∧ started t .fetching ∧ t.load.insts = s.load.insts) ∧
    (descOp d = 8 → listsBad d lists = false → lists.shards ≠ [] →
      (∀ r ∈ lists.shards, s.inTenant (descTenant d) (descShadow d + shOffset r) (shLength r) = true ∧
        s.inKind 4 (descShadow d + shOffset r) (shLength r) = true) →
      ∃ t, exec (.grammar env) s = .next t ∧ started t .grammarWait ∧
        t.srv = s.srv ∧ t.load.insts = s.load.insts))

/-- A job is the only one of the list, it runs, and the engines do not wait. -/
def Sys2Proof.Machine.Running (s : State) (i : Nat) (j : Job) (phase : JobPhase) : Prop :=
  s.load.jobs = [j] ∧ descInst j.desc = i ∧ j.phase = phase ∧ phase ≠ .waiting ∧ (s.ring 513).outbox = []

/-- REPAIR and ABORT_PROM act at once on the parked job of their instance (R218, R236): REPAIR hands it the new shards, and it goes on
with fresh retry counts in PROMENADE; ABORT_PROM turns it into a rollback; each ends with its own FINAL OK.

PROMENADE_ADMISSION_STOP, STAGE_PROGRAMMED, UNLOAD_DRAINED and GRAMMAR_JOB_WRITE (R220, R229, R237, R263, R264): with every new record
written and no stage stopped the instance goes to PROMENADE and its job programs; a LOAD_MODEL with nothing left to fetch or
program serves its GEN and ends with OK; a drained UNLOAD leaves the instance EMPTY; a sound grammar of one shard whose number has
no users is asked to be written, and once the last write of the engines is done its number names it and the job ends with OK.

The model's own choices it rests on: ABORT_PROM of a parked instance ends with ABORTED (notes/assumptions/56.md). -/
def Obligations.JobsParkRollBackAndEnd : Prop :=
  (∀ (s : State) (d : List Word) (env : JobEnv) (p : Job), AtLoadRing s d → s.load.jobs = [p] → p.phase = .parked →
    descInst p.desc = descInst d → descBad d = false → (s.inst (descInst d)).state = 6 →
    descTenant d = (s.inst (descInst d)).tenant.toNat →
    (descOp d = 3 → listsBad d (s.spaceEnv d env).2 = false → (s.spaceEnv d env).2.placements = p.failed.map (fun k => p.env.placements.getD k []) →
      ∃ t q, exec (.repair env) s = .next t ∧ LoadRingTaken s t ∧ t.load.jobs = [q] ∧ q.phase = .programming ∧ q.failed = [] ∧
        (∀ k ∈ p.failed, kvFind k q.tries = none) ∧ q.desc = p.desc ∧ q.fetched = p.fetched ∧
        t.inst (descInst d) = { s.inst (descInst d) with state := 4 } ∧ Counts s t aLoadJobCnt 1 ∧ Answered s t 0 0) ∧
    (descOp d = 4 → listsBad d noEnv = false →
      ∃ t q, exec .abortProm s = .next t ∧ LoadRingTaken s t ∧ t.load.jobs = [q] ∧ q.phase = .rollback ∧ q.aborted = true ∧
        q.desc = p.desc ∧ (t.inst (descInst d)).state = 5 ∧ (t.inst (descInst d)).gen = (s.inst (descInst d)).gen ∧
        Counts s t aLoadJobCnt 1 ∧ Counts s t aLoadRollbackCnt 1 ∧ Answered s t 0 0)) ∧
  (∀ (s : State) (inst : BitVec 10) (stage g : BitVec 6) (j : Job) (stack : BitVec 5) (rq : StackReq) (fs : List Flit),
    let i := inst.toNat
    let x := s.inst i
    (Running s i j .fetching → descOp j.desc = 2 → x.state = 3 → j.fetched.length = j.env.shards.length →
      (∀ e ∈ j.placed, s.writeWaits (shadowAt (descShadow j.desc) e.k) recordLen = false) →
      (∀ m ∈ s.instDoms i, (s.dom m).state.toNat < 4) →
      ∃ t q, exec (.promenadeAdmissionStop inst) s = .next t ∧ t.load.jobs = [q] ∧ q = { j with phase := .programming } ∧
        (t.inst i).state = 4 ∧ (t.inst i).gen = x.gen ∧ (t.inst i).done = [] ∧ (t.inst i).passed = [] ∧
        (∀ d, s.stageDom i 0 = some d → (s.dom d).holdAfter = none → x.stages[0]?.map (fun st => st.lag) = some 0 →
          (∀ k, k ≠ 0 → s.stageDom i k ≠ some d) → (t.dom d).holdAfter = some (s.stepsStarted d))) ∧
    (Running s i j .fetching → descOp j.desc = 1 → x.state = 1 → j.fetched.length = j.env.shards.length → j.todo = [] →
      j.busy = [] → j.ovf = [] →
      ∃ t, exec (.stageProgrammed inst stage) s = .next t ∧ t.load.jobs = [] ∧
        t.inst i = { x with state := 2, gen := BitVec.ofNat 16 (descGen j.desc) } ∧
        (∀ c y, x.cho = some c → s.choOf c = some y → t.choOf c = some { y with released := true }) ∧ Answered s t 0 0) ∧
    (Running s i j .draining → descOp j.desc = 5 → (∀ d ∈ s.instDoms i, s.stageStill d = true) →
      ∃ t, exec (.unloadDrained inst) s = .next t ∧ t.load.jobs = [] ∧ t.inst i = {} ∧ (∀ d ∈ s.instDoms i, t.dom d = {}) ∧
        Answered s t 0 0) ∧
    (∀ r bs, Running s i j .grammarWait → descOp j.desc = 8 → descObject j.desc = g.toNat → (s.gramRec g.toNat).users = 0 →
      j.env.shards = [r] → j.fetched = [0] → kvFind 0 j.held = some bs → shOffset r = 0 → grammarOk bs = true →
      s.frozenAt 4 (shEngine r) = false → s.inKind 4 (descShadow j.desc) bs.length = true →
      s.inTenant (descTenant j.desc) (descShadow j.desc) bs.length = true →
      ∃ t, exec (.grammarJobWrite g inst) s = .next t ∧ t.load.jobs = [{ j with phase := .writing }] ∧
        EngineWrites s t (shEngine r) (descShadow j.desc) bs ∧
        t = { s with load.jobs := t.load.jobs, mem.stackUnits := t.mem.stackUnits }) ∧
    (Running s i j .writing → descOp j.desc = 8 → descObject j.desc = g.toNat → j.fetched.length = j.env.shards.length →
      kvWf {} s.mem.stackUnits = true → rq.who = .engine → rq.data = some fs → (s.stack stack.toNat).busy.length < 2048 →
      (∀ m, (s.stack m).direct = [] ∧ (s.stack m).queue = if m = stack.toNat then [rq] else []) →
      (∀ e ∈ s.con.doms, e.2.loupe = false) →
      ∃ t, exec (.stackRequestAccept stack) s = .next t ∧ t.load.jobs = [] ∧
        t.gramRec g.toNat = {
          page := BitVec.ofNat 26 (descShadow j.desc / 65536), present := true, users := (s.gramRec g.toNat).users
          tenant := BitVec.ofNat 8 (descTenant j.desc), nstate := (t.gramRec g.toNat).nstate } ∧
        (s.rfld (aRing 513) 1 0 < 2 → (t.gramRec g.toNat).nstate = recFld (t.stkWords (descShadow j.desc) 2) 1 20 0)))

/-- SHARD_FETCH_COMPLETE and SHARD_DEADLINE_EXPIRE (R221 to R223, R225, R234): a sound one-block shard of a REPLACE has the writes of
its shadow record asked for by its engine and is fetched; data that failed parity or decoding, or has the wrong length, and a
deadline that has passed, fail the attempt, which is made again up to three times and counted; the fourth failure of a REPLACE in
FETCHING ends the job with SHARD_FAILED, and the old generation serves on. A shard in HDM staging comes out of the stacks, whose
bytes read as before.

ARRAY_PROGRAM_REQUEST (R75, R76, R209, R215, R224, R232): in a promenade, once every record of the entry's stage is written and
the stages of its tile and of its vector tile are held or not yet started, the engine writes the array's scales and weight list
and asks for its programming from its shadow record; with fewer than 4 arrays of the tile and 768 of the field programming it
starts at once, the record in its slot, and the array reads STATE 3.

The model's own choices it rests on: a load engine works at its command (notes/assumptions/53.md); when a deadline runs (notes/assumptions/54.md); SCALE_RANGE follows POLICY (notes/assumptions/55.md); RFC 8878 frames (notes/assumptions/165.md); no rounding before quantising (notes/assumptions/169.md). -/
def Obligations.ShardsAreWrittenAndProgrammed : Prop :=
  (∀ (s : State) (inst : BitVec 10) (shard : Nat) (data : ShardData) (j : Job),
    let i := inst.toNat
    let r := j.env.shards.getD shard []
    let ms := if recFld j.desc 3 47 32 = 0 then 250 else recFld j.desc 3 47 32
    let at' := (wordAt r 0).toNat
    let source : List Byte := if shHost r then data.bytes else (s.hdmBytes at' (shLength r)).getD []
    let content : Option (List Byte) := if shComp r = 1 then zFrame source data.frame else some source
    let came : Prop := data.parity = true ∧ (shHost r = true ∨ s.hdmGood at' (shLength r) = true) ∧ source.length = shLength r
    Running s i j .fetching → descOp j.desc = 2 → (s.inst i).state = 3 → shard < j.env.shards.length →
    shard ∉ j.fetched → shard ∉ j.failed → s.frozenAt 4 (shEngine r) = false → j.src = .ring →
    let retried (t : State) : Prop := ∃ q, t.load.jobs = [q] ∧ q.retries = j.retries + 1 ∧
      kvFind shard q.tries = some (kvGet 0 shard j.tries + 1) ∧ kvFind shard q.since = some s.clock ∧ shard ∉ q.fetched ∧
      q.phase = .fetching ∧ Counts s t aLoadShardRetryCnt 1 ∧ RegsBut s t [aLoadShardRetryCnt, aMemZeroFillCnt] ∧
      (∀ a n, t.stk a n = s.stk a n) ∧
      t = { s with
            load.jobs := t.load.jobs, reg.vals := t.reg.vals
            mem.stack := t.mem.stack, mem.stackBad := t.mem.stackBad, mem.zeroFill := t.mem.zeroFill }
    let lost (t : State) : Prop := t.load.jobs = [] ∧ t.inst i = { s.inst i with state := 2 } ∧ Counts s t aLoadShardFailCnt 1 ∧
      Answered s t 0 9 ∧ t.con = s.con ∧ t.arr = s.arr
    (¬ came ∨ content = none ∨ (∃ b, content = some b ∧ b.length ≠ shBytes r) →
      (kvGet 0 shard j.tries < 3 → ∃ t, exec (.shardFetchComplete inst shard data) s = .next t ∧ retried t) ∧
      (3 ≤ kvGet 0 shard j.tries → ∃ t, exec (.shardFetchComplete inst shard data) s = .next t ∧ lost t)) ∧
    (kvGet 0 shard j.since + 1000 * ms ≤ s.clock →
      (kvGet 0 shard j.tries < 3 → ∃ t, exec (.shardDeadlineExpire inst shard) s = .next t ∧ retried t) ∧
      (3 ≤ kvGet 0 shard j.tries → ∃ t, exec (.shardDeadlineExpire inst shard) s = .next t ∧ lost t)) ∧
    (s.clock < kvGet 0 shard j.since + 1000 * ms → exec (.shardDeadlineExpire inst shard) s = .next s) ∧
    (∀ e b w bytes, came → content = some bytes → bytes.length = shBytes r → quantShard r bytes = some [b] →
      j.placed.filter (fun p => p.shard == shard) = [e] → j.env.placements.getD shard [] = [w] →
      s.inKind 1 (shadowAt (descShadow j.desc) e.k) recordLen = true →
      s.inTenant (descTenant j.desc) (shadowAt (descShadow j.desc) e.k) recordLen = true →
      ∃ t q, exec (.shardFetchComplete inst shard data) s = .next t ∧
        EngineWrites s t (shEngine r) (shadowAt (descShadow j.desc) e.k)
          (recordBytes w (descInst j.desc) (descGen j.desc) (descTenant j.desc) r b) ∧
        t.load.jobs = [q] ∧ q.fetched = j.fetched ++ [shard] ∧ q.todo = j.todo ∧ kvGet 0 shard q.ovf = b.excess ∧
        Counts s t aLoadIngestByteCnt bytes.length ∧ t.inst i = s.inst i ∧ t.arr = s.arr ∧ t.con = s.con)) ∧
  (∀ (s : State) (inst : BitVec 10) (k p : Nat) (j : Job) (e : Placed),
    let i := inst.toNat
    let a := shadowAt (descShadow j.desc) k
    let v := groupVector e.tile
    let cw := recFld (s.stkWords a 3) 2 26 16
    Running s i j .programming → j.placed[k]? = some e → e.k = k → k ∈ j.todo →
    (∀ x ∈ j.placed, x = e ∨ (descOp j.desc = 2 ∧ ∃ m ∈ s.instDoms i, e.tile ∈ (s.dom m).members ∧ x.tile ∈ (s.dom m).members) →
      x.shard ∈ j.fetched ∧ s.writeWaits (shadowAt (descShadow j.desc) x.k) recordLen = false) →
    s.stageStill (s.domOf e.tile) = true → ((s.tile v).dom = none ∨ s.stageStill (s.domOf v) = true) →
    s.recordPoison a = false → s.physOf e.tile e.larr = some p →
    s.progAsked e.tile p = false → s.sparePending e.tile p = false →
    (s.arrayRec e.tile p).state ≠ 4 → (s.arrayRec e.tile p).cycles.toNat < 100000000 →
    s.arr.waiting = [] → (s.arr.running.filter (fun q => q.tile == e.tile)).length < 4 →
    (s.arr.running.filter (fun q => fieldOf q.tile == fieldOf e.tile)).length < 768 →
    ∃ t q, exec (.arrayProgramRequest inst k .clean) s = .next t ∧
      t.arr.running = s.arr.running ++
        [{ tile := e.tile, p := p, record := a, inst := inst, why := .load, slot := s.stk a recordLen }] ∧
      t.arr.waiting = [] ∧ t.arrayRec e.tile p = { s.arrayRec e.tile p with state := 3 } ∧
      t.load.jobs = [q] ∧ q.todo = j.todo.filter (fun n => n != k) ∧ q.busy = j.busy ++ [k] ∧
      t.scr v e.sideOff 1024 = s.stk (a + 0x800) 1024 ∧
      t.scr v (e.sideOff + 1024 + 4 * cw * e.pos) (4 * cw) = s.stk (a + 0x1000) (4 * cw) ∧
      (∀ b n, t.stk b n = s.stk b n) ∧ (∀ m, m ≠ v → t.tile m = s.tile m) ∧
      RegsBut s t [aMemTagWaitCnt, aMemZeroFillCnt, aTilewSegClearCnt v] ∧
      t = { s with
            arr := t.arr, load.jobs := t.load.jobs, wafer.tiles := t.wafer.tiles, wafer.scratch := t.wafer.scratch
            wafer.scratchBad := t.wafer.scratchBad, dbg.loupe := t.dbg.loupe, reg.vals := t.reg.vals
            mem.stack := t.mem.stack, mem.stackBad := t.mem.stackBad, mem.zeroFill := t.mem.zeroFill })

/-! ### Serving (R246 to R273) -/

/-- The entry `bs` of a request stands at the head of request ring `q`, whose home cluster runs. -/
def Sys2Proof.Machine.Asked (s : State) (q : Nat) (bs : List Byte) : Prop :=
  s.ringHolds q ≠ 0 ∧ s.homeOn (s.ringHome q) = true ∧ bs = s.ringHead q

/-- The entry has been released from its request ring. -/
def Sys2Proof.Machine.Released (s t : State) (q : Nat) : Prop :=
  (t.ring q).head = ((s.ring q).head + 1) % (2 * s.ringCount q) ∧ (t.ring q).tail = (s.ring q).tail

/-- Pages marked for zero-fill may have been filled, and counted (R139): every byte of the stacks and its parity reads as before,
and so does every other register. -/
def Sys2Proof.Machine.Filled (s t : State) : Prop :=
  (∀ a n, t.stk a n = s.stk a n) ∧ (∀ a, t.stkBad a = s.stkBad a) ∧ RegsBut s t [aMemZeroFillCnt]

/-- The entry has been read and released, and no other ring has changed. -/
def Sys2Proof.Machine.TakenFrom (s t : State) (q : Nat) : Prop :=
  Released s t q ∧ (∀ p, p ≠ q → t.ring p = s.ring p) ∧ Filled s t

/-- CONT, CANCEL and RELEASE (R247, R258): the tokens of a CONT are appended to the prompt of the request that waits for them; a CANCEL
ends a waiting request with CANCELLED and notes the wish of any other; a RELEASE takes the client's hold from a live handle,
which is freed, with its check count advanced, when nothing else holds it.

The model's own choices it rests on: when CANCEL ends a sequence (notes/assumptions/75.md); RELEASE of another tenant answers PREFIX_INVALID (notes/assumptions/79.md). -/
def Obligations.ContinueCancelAndRelease : Prop :=
  ∀ (s : State) (q : BitVec 8) (bs : List Byte) (n : Nat) (x : SeqRec),
    let r := q.toNat
    let w := wordsOf bs
    let k := recFld w 0 63 48
    let toks := (List.range k).map (fun m => leNat ((bs.drop (16 + 4 * m)).take 4))
    let last := bit (wordAt w 0).toNat 4
    let h := recFld w 2 31 0 % 2 ^ 20
    let y := s.handle h
    Asked s r bs →
    (recFld w 0 3 0 = 1 → s.findSeq r (wordAt w 1) (fun z => !z.complete && !z.tune) = some n → s.seqRec n = x →
      recFld w 0 47 5 = 0 → k ≤ (s.ringEsz r - 16) / 4 → (∀ t ∈ toks, t < 2 ^ 18) →
      (last = true → x.prompt.length + k = x.promptLen) →
      ∃ t, exec (.cont q) s = .next t ∧ TakenFrom s t r ∧
        t.seqRec n = { x with prompt := x.prompt ++ toks.map (BitVec.ofNat 18), complete := last } ∧
        (∀ m, m ≠ n → t.seqRec m = s.seqRec m) ∧
        t = { s with mem := t.mem, reg.vals := t.reg.vals, srv.seqs := t.srv.seqs }) ∧
    (recFld w 0 3 0 = 2 → s.findSeq r (wordAt w 1) (fun z => z.tenant.toNat == recFld w 0 15 8) = some n → s.seqRec n = x →
      (x.state = 1 → x.ending = none →
        ∃ t, exec (.cancel q) s = .next t ∧ Released s t r ∧ (t.seqRec n).state = 5 ∧ (t.seqRec n).ending = some 7 ∧
          (t.seqRec n).reqId = x.reqId ∧ Counts s t aSrvSeqEndCnt 1 ∧ (∀ c, n ∉ kvGet [] c t.srv.waits) ∧
          (∀ m, m ≠ n → t.seqRec m = s.seqRec m)) ∧
      (x.state ≠ 1 →
        ∃ t, exec (.cancel q) s = .next t ∧ TakenFrom s t r ∧ t.seqRec n = { x with cancel := true } ∧
          (∀ m, m ≠ n → t.seqRec m = s.seqRec m) ∧
          t = { s with mem := t.mem, reg.vals := t.reg.vals, srv.seqs := t.srv.seqs })) ∧
    (recFld w 0 3 0 = 3 → y.state ≠ 0 → y.client = true → y.check.toNat = recFld w 2 31 0 / 2 ^ 20 →
      y.tenant.toNat = recFld w 0 15 8 → recFld w 0 15 8 = s.reqTenant r w →
      (1 < y.refs → ∃ t, exec (.release q) s = .next t ∧ TakenFrom s t r ∧
        t.handle h = { y with client := false, refs := y.refs - 1 } ∧ (∀ m, m ≠ h → t.handle m = s.handle m) ∧
        t = { s with mem := t.mem, reg.vals := t.reg.vals, srv.handles := t.srv.handles }) ∧
      (y.refs ≤ 1 → ∃ t, exec (.release q) s = .next t ∧ Released s t r ∧ t.handle h = { check := y.check + 1 } ∧
        (∀ m, m ≠ h → t.handle m = s.handle m) ∧ RegsBut s t [aMemZeroFillCnt] ∧
        t = { s with
              mem := t.mem, reg.vals := t.reg.vals, srv.handles := t.srv.handles, srv.kvUsed := t.srv.kvUsed }))

/-- NEW and TUNE (R246 to R248, R258, R267): the request is taken from its ring and counted; with `u` the state then, a request that
fails a check is refused and counted, and no sequence record is made; one that passes takes the lowest free sequence record
and the last place on the waiting list of its instance's home cluster, and the handle and the adapter that it names count it
as a user; a tuning job holds its adapter.

ADMISSION, ADMIT_TIMEOUT and HANDLE_LAPSE (R249 to R251, R258): the next request of a home cluster that may be admitted gets all its
KV pages, which nobody used, with its tenant's tag, and runs; a request that has waited for ADMIT_MS is refused with FORMAT while
CONT entries are missing, and else ends with KV_FULL where pages lack, or NO_INSTANCE; a handle unused for HANDLE_TTL_S
seconds loses its client's hold.

The model's own choices it rests on: the lowest free numbers (notes/assumptions/26.md); what makes an entry malformed (notes/assumptions/32.md); KV_FULL if pages lack at that moment (notes/assumptions/78.md). -/
def Obligations.RequestsAreAdmittedWaitOrEnd : Prop :=
  (∀ (s : State) (q : BitVec 8) (bs : List Byte),
    let r := q.toNat
    let w := wordsOf bs
    let u := ((s.headTouch r).ringPop r).bump aSrvReqCnt
    let i := recFld w 0 25 16
    let n := firstGap 0 (s.srv.seqs.map Prod.fst)
    Asked s r bs →
    let refused (c : Instr) : Prop := ∃ t, exec c s = .next t ∧ Released s t r ∧ Counts s t aSrvReqCnt 1 ∧
      Counts s t aSrvRefuseCnt 1 ∧ t.srv = s.srv ∧ t.con = s.con ∧ t.load = s.load
    let waits (c : Instr) (x : SeqRec) : Prop := ∃ t, exec c s = .next t ∧ Released s t r ∧ (∀ p, p ≠ r → t.ring p = s.ring p) ∧
      (∀ a n, t.stk a n = s.stk a n) ∧ Counts s t aSrvReqCnt 1 ∧
      Counts s t aSrvRefuseCnt 0 ∧ t.seqRec n = x ∧ (∀ m, m ≠ n → t.seqRec m = s.seqRec m) ∧
      kvGet [] (s.ifaceHome x.inst.toNat) t.srv.waits = kvGet [] (s.ifaceHome x.inst.toNat) s.srv.waits ++ [n] ∧
      (∀ c, c ≠ s.ifaceHome x.inst.toNat → kvGet [] c t.srv.waits = kvGet [] c s.srv.waits) ∧
      (∀ h, t.handle h = if x.handle.map (·.toNat) = some h then
          { s.handle h with refs := (s.handle h).refs + 1, used := s.clock } else s.handle h) ∧
      Counts s t aSrvPrefixHitCnt (if x.handle = none then 0 else 1) ∧
      (∀ a, t.adapterRec a = if (x.adapterEn = true ∨ x.tune = true) ∧ x.adapter.toNat = a then
          { s.adapterRec a with users := (s.adapterRec a).users + 1, tuning := (s.adapterRec a).tuning || x.tune }
        else s.adapterRec a) ∧
      t.load = s.load ∧ t.con = s.con
    (recFld w 0 3 0 = 0 → u.newFail r bs ≠ none → refused (.new q)) ∧
    (5 ≤ recFld w 0 3 0 → refused (.new q)) ∧
    (recFld w 0 3 0 = 0 → u.newFail r bs = none → waits (.new q) (u.newSeq r bs)) ∧
    (recFld w 0 3 0 = 4 → u.tuneFail r w ≠ none → refused (.tune q)) ∧
    (recFld w 0 3 0 = 4 → u.tuneFail r w = none →
      waits (.tune q) {
        state := 1, tune := true, inst := BitVec.ofNat 10 i, tenant := BitVec.ofNat 8 (u.reqTenant r w)
        respRing := BitVec.ofNat 8 (recFld w 0 33 26), reqRing := q, reqId := wordAt w 1
        adapter := BitVec.ofNat 12 (recFld w 0 45 34)
        promptLen := (u.trainLongest (u.ifaceCtx i) (recFld w 2 47 0) (recFld w 3 31 0)).getD 0
        complete := true, since := s.clock, data := recFld w 2 47 0, cur := recFld w 2 47 0, nseq := recFld w 3 31 0
        epochs := recFld w 3 47 32, every := recFld w 3 63 48, expOff := recFld w 4 47 0, expLen := recFld w 5 31 0 })) ∧
  (∀ (s : State) (cluster : BitVec 3) (seq : BitVec 16) (index : BitVec 20) (n : Nat) (u : State),
    let c := cluster.toNat
    let q := s.seqRec n
    let m := seq.toNat
    let z := s.seqRec m
    let h := index.toNat
    let y := s.handle h
    (s.homeOn c = true → s.nextAdmit [] (kvGet [] c s.srv.waits) = some n → s.kvGive n = some u → s.srv.kvUsed.Pairwise (· < ·) →
      ∃ t, exec (.admission cluster) s = .next t ∧ (t.seqRec n).state = 2 ∧ (t.seqRec n).order = s.srv.admitN + 1 ∧
        (t.seqRec n).reqId = q.reqId ∧ (t.seqRec n).pages = (u.seqRec n).pages ∧ (t.seqRec n).pages.length = s.kvNeed q ∧
        (∀ p ∈ (t.seqRec n).pages, ∀ k, k < s.ifaceKvp q.inst.toNat →
          p + k ∉ s.srv.kvUsed ∧ p + k ∈ t.srv.kvUsed ∧ t.pageTag (p + k) = some q.tenant.toNat) ∧
        n ∉ kvGet [] c t.srv.waits ∧ (∀ k, k ≠ n → t.seqRec k = s.seqRec k)) ∧
    (z.state = 1 → z.ending = none → z.since + 1000 * s.rfld aSrvCtrl 15 0 ≤ s.clock →
      ∃ t, exec (.admitTimeout seq) s = .next t ∧ (t.seqRec m).state = 5 ∧ (t.seqRec m).reqId = z.reqId ∧
        (z.complete = false → (t.seqRec m).ending = some 0x0C ∧ Counts s t aSrvRefuseCnt 1) ∧
        (z.complete = true → s.kvGive m = none →
          (t.seqRec m).ending = some 0x15 ∧ Counts s t aSrvKvFullCnt 1 ∧ Counts s t aSrvSeqEndCnt 1) ∧
        (z.complete = true → s.kvGive m ≠ none →
          (t.seqRec m).ending = some 0x0A ∧ Counts s t aSrvKvFullCnt 0 ∧ Counts s t aSrvSeqEndCnt 1)) ∧
    (s.clock < z.since + 1000 * s.rfld aSrvCtrl 15 0 → exec (.admitTimeout seq) s = .next s) ∧
    (y.state ≠ 0 → y.client = true → y.used + 1000000 * s.rfld aSrvCtrl 47 16 ≤ s.clock →
      (1 < y.refs → ∃ t, exec (.handleLapse index) s = .next t ∧ t.handle h = { y with client := false, refs := y.refs - 1 } ∧
        (∀ k, k ≠ h → t.handle k = s.handle k) ∧ t = { s with srv.handles := t.srv.handles }) ∧
      (y.refs ≤ 1 → ∃ t, exec (.handleLapse index) s = .next t ∧ t.handle h = { check := y.check + 1 } ∧
        (∀ k, k ≠ h → t.handle k = s.handle k))) ∧
    (s.clock < y.used + 1000000 * s.rfld aSrvCtrl 47 16 → exec (.handleLapse index) s = .next s))

/-- The fields of a slot record that feeds tokens to a sequence (R254): its kind, the number of tokens, the tenant, the
sequence's number, the generation, the position and the tokens. -/
def Sys2Proof.Machine.SlotSays (f : List Byte) (x : IssueSlot) (ntok tenant gen pos : Nat) (toks : List Nat) : Prop :=
  let w := wordsOf f
  recFld w 0 1 0 = x.kind.toNat ∧ recFld w 0 5 2 = ntok - 1 ∧ bit (wordAt w 0).toNat 6 = x.update ∧ recFld w 0 15 8 = tenant ∧
  recFld w 0 31 16 = x.seq ∧ recFld w 0 47 32 = gen ∧ recFld w 0 63 48 = 0 ∧ recFld w 1 31 0 = pos % 2 ^ 32 ∧
  ∀ k v, toks[k]? = some v → leNat ((f.drop (64 + 4 * k)).take 4) = v % 2 ^ 32

/-- The order in which sequences get slots (R254): the live sequences of the instance that a condition names, by their admission. -/
def Sys2Proof.Machine.InAdmissionOrder (s : State) (i : Nat) (p : SeqRec → Bool) : Prop :=
  (∀ n, n ∈ s.seqsInOrder i p ↔ n ∈ s.instSeqs i ∧ p (s.seqRec n) = true) ∧
  (s.seqsInOrder i p).Pairwise (fun m n => (s.seqRec m).order ≤ (s.seqRec n).order)

/-- SLOT_RECORDS_ISSUE (R159, R229, R247, R254, R267): cancelled sequences end first. With room in IN_Q for B entries and something that
runs or waits, the B slot records of the next token step, of 128 bytes each, are held for IN_Q in slot order while stage 0 is
in a step, and the token step is noted with the generation it expects; without, no record is added. Slots 0 to B − TS − 1
take the sequences that await their next token, then prompt chunks, in admission order; the last TS slots take tuning jobs;
the rest are IDLE.

The model's own choices it rests on: fields without a meaning are free values (notes/assumptions/74.md); when CANCEL ends a sequence (notes/assumptions/75.md). -/
def Obligations.SlotRecordsAreIssuedForEverySlot : Prop :=
  ∀ (s : State) (inst : BitVec 10),
    let i := inst.toNat
    let x := s.inst i
    let b := s.ifaceB i
    let ts := s.ifaceTs i
    let q := s.queue (s.ifaceInQ i)
    let u := s.endCancelled i
    let gen := s.expectGen i
    let feed := u.seqsInOrder i seqFeeds
    let next := feed.filter (fun n => decide ((u.seqRec n).promptLen ≤ (u.seqRec n).fed) && !(u.seqRec n).inFlight)
    let l := next ++ feed.filter (fun n => decide ((u.seqRec n).fed < (u.seqRec n).promptLen))
    let tune := u.seqsInOrder i (fun y => y.tune && y.state == 2 && decide (y.epoch < y.epochs))
    let some1 := feed ≠ [] ∨ tune ≠ [] ∨ ∃ n, n ∈ u.instSeqs i ∧ (u.seqRec n).state = 1
    let held := (q.pub + 2 * q.depth - q.head) % (2 * q.depth) + s.con.held.length
    s.stopping = false → s.homeOn (s.ifaceHome i) = true → s.feeds i = true →
    (∀ p, InAdmissionOrder u i p) ∧
    (¬ (held + b ≤ q.depth) ∨ ¬ some1 → exec (.slotRecordsIssue inst) s = .next u) ∧
    (held + b ≤ q.depth → some1 → q.cho ≠ none → (s.dom q.consDom.toNat).between = false →
    ∃ t, exec (.slotRecordsIssue inst) s = .next t ∧
      (∀ m ∈ s.instSeqs i, (s.seqRec m).cancel = true → (s.seqRec m).inFlight = false → (s.seqRec m).state ≠ 1 →
        (s.seqRec m).state ≠ 0 → (s.seqRec m).ending = none → (t.seqRec m).state = 5 ∧ (t.seqRec m).ending = some 7) ∧
      (∃ (flits : List (List Byte)) (slots : List IssueSlot), flits.length = b ∧ slots.length = b ∧ (∀ f ∈ flits, f.length = 128) ∧
        t.con.held = s.con.held ++ flits.map (fun f => AsyncItem.entry (BitVec.ofNat 16 (s.ifaceInQ i)) f) ∧
        kvFind (x.issuedN + 1) (t.inst i).issued = some { gen := gen, slots := slots } ∧
        (∀ j f y, flits[j]? = some f → slots[j]? = some y →
          (l[j]? = none → j < b - ts → y = { kind := 0, seq := 0, order := 0, n := 0, update := false } ∧
            recFld (wordsOf f) 0 1 0 = 0) ∧
          (tune[j - (b - ts)]? = none → b - ts ≤ j → y = { kind := 0, seq := 0, order := 0, n := 0, update := false } ∧
            recFld (wordsOf f) 0 1 0 = 0) ∧
          (∀ n, l[j]? = some n → j < b - ts → l.count n = 1 → n < 65536 →
            let z := u.seqRec n
            let c := min (s.ifacePmax z.inst.toNat) (z.promptLen - z.fed)
            (z.promptLen ≤ z.fed →
              y = { kind := 2, seq := n, order := z.order, n := 0, update := false } ∧
              SlotSays f y 1 z.tenant.toNat gen.toNat (z.tokIdx - 1) ((z.prompt.take 1).map (·.toNat)) ∧
              t.seqRec n = { z with state := 2, inFlight := true }) ∧
            (z.fed < z.promptLen →
              y = { kind := if z.fed + c = z.promptLen then 2 else 1, seq := n, order := z.order, n := c, update := false } ∧
              SlotSays f y c z.tenant.toNat gen.toNat (z.prefixTok + z.fed) (((z.prompt.drop z.fed).take c).map (·.toNat)) ∧
              t.seqRec n = { z with state := 2, fed := z.fed + c, inFlight := decide (z.fed + c = z.promptLen) })) ∧
          (∀ n, tune[j - (b - ts)]? = some n → b - ts ≤ j → tune.count n = 1 → n < 65536 →
            let z := u.seqRec n
            let len := (u.hdmHalf z.cur).getD 0
            let c := min (min 15 (s.ifacePmax z.inst.toNat)) (len - 1 - z.fed)
            let ends := z.fed + c + 1 = len
            0 < c →
            y.kind = 3 ∧ y.seq = n ∧ y.order = z.order ∧ y.n = c ∧
            (y.update = true ↔ ends ∧ ((z.seqIdx + 1) % z.every = 0 ∨ z.seqIdx + 1 = z.nseq)) ∧
            SlotSays f y c z.tenant.toNat gen.toNat z.fed
              ((List.range (c + 1)).map (fun k => (u.hdmHalf (z.cur + 4 + 4 * (z.fed + k))).getD 0)) ∧
            (¬ ends → t.seqRec n = { z with fed := z.fed + c }) ∧
            (ends → z.seqIdx + 1 ≠ z.nseq →
              t.seqRec n = { z with fed := 0, seqIdx := z.seqIdx + 1, cur := z.cur + (4 + 4 * len + 7) / 8 * 8 }) ∧
            (ends → z.seqIdx + 1 = z.nseq →
              t.seqRec n = { z with fed := 0, seqIdx := 0, epoch := z.epoch + 1, cur := z.data })))) ∧
      (t.inst i).issuedN = x.issuedN + 1 ∧ (t.inst i).gen = x.gen ∧ (∀ k, k ≠ i → t.inst k = s.inst k) ∧
      (∀ m, m ∉ l → m ∉ tune → t.seqRec m = u.seqRec m) ∧ Filled u t ∧
      t = { u with
            freeCtr := t.freeCtr, con.held := t.con.held, load.insts := t.load.insts, srv.seqs := t.srv.seqs
            dbg.loupe := t.dbg.loupe, mem := t.mem, reg.vals := t.reg.vals })

/-- RESULT_RECORDS_READ (R231, R256, R262, R270): in the last stage's first LAG steps the entry is released and nothing else happens;
the result OK of a FEED_SAMPLE slot, in an instance of one slot, adds its token to the sequence's undelivered tokens: the
sequence goes on while no end applies, is backpressured at 64 undelivered tokens, and ends at a stop token, its token limit or
the end of the context; STATUS MASK_EMPTY and POISON end it with their codes. The first token of a new generation is marked.

RESPONSE_WRITE and NOTICE_WRITE (R131, R132, R269 to R271): with a free slot in its response ring, the handle of a sequence, else
its token, and once nothing else is undelivered its FINAL with the status, enter the ring; a ring that is disabled discards
the entry and counts it; after the FINAL the sequence record is free; while the ring has no free slot nothing is taken; the
flags kept for a layer slot go to the notice ring and are counted.

The model's own choices it rests on: fields without a meaning are free values (notes/assumptions/74.md). -/
def Obligations.ResultsReachTheResponseRing : Prop :=
  (∀ (s : State) (inst : BitVec 10) (lag : Nat) (y : Issue) (x : IssueSlot),
    let i := inst.toNat
    let z := s.inst i
    let n := z.readN + 1
    let a := s.ifaceBase i + n % s.ifaceDepth i * s.ifaceB i * 128
    let w := s.stkWords a 16
    let m := recFld w 0 15 0
    let q := s.seqRec m
    let tok := recFld w 2 17 0
    let stops := tok = q.stop0.toNat ∨ tok = q.stop1.toNat
    let limit := q.maxTokens.toNat ≠ 0xFFFFFFFF ∧ q.generated + 1 = q.maxTokens.toNat
    let full := s.ifaceCtx q.inst.toNat ≤ recFld w 0 63 32 + 1
    let mark := q.genMark.any (fun old => BitVec.ofNat 16 (recFld w 0 31 16) != old)
    let q' : SeqRec := { q with
      out := q.out ++ [(BitVec.ofNat 18 tok, BitVec.ofNat 16 (recFld w 0 31 16), recFld w 0 63 32, mark)]
      genMark := if mark then none else q.genMark, gen := BitVec.ofNat 16 (recFld w 0 31 16), tokIdx := recFld w 0 63 32 + 1
      prompt := [BitVec.ofNat 18 tok], inFlight := false, generated := q.generated + 1
      gstate := if q.grammarEn then BitVec.ofNat 20 (recFld w 2 39 20) else q.gstate
      state := if q.out.length = 63 ∧ q.state = 2 then 3 else q.state }
    s.homeOn (s.ifaceHome i) = true → z.state ≠ 0 → z.state ≠ 1 →
    n ≤ s.stageSteps i (z.stages.length - 1) → z.stages[z.stages.length - 1]?.map (fun e => e.lag) = some lag →
    (n ≤ lag → ∃ t, exec (.resultRecordsRead inst) s = .next t ∧ t.inst i = { z with readN := n } ∧
      (∀ k, k ≠ i → t.inst k = s.inst k) ∧ t = { s with load.insts := t.load.insts }) ∧
    (lag < n → kvFind (n - lag) z.issued = some y → s.ifaceB i = 1 → y.slots = [x] →
      recFld w 0 31 16 = y.gen.toNat → x.kind = 2 → q.order = x.order → (q.state = 2 ∨ q.state = 3 ∨ q.state = 4) →
      q.keep = false → q.ending = none →
      (recFld w 2 19 18 = 0 → ¬ stops → ¬ limit → ¬ full →
        ∃ t, exec (.resultRecordsRead inst) s = .next t ∧
          t.inst i = { z with readN := n, issued := kvDel (n - lag) z.issued } ∧ (∀ k, k ≠ i → t.inst k = s.inst k) ∧
          t.seqRec m = q' ∧ (∀ k, k ≠ m → t.seqRec k = s.seqRec k) ∧
          Counts s t aSrvBackpressureCnt (if q.out.length = 63 then 1 else 0) ∧
          RegsBut s t [aSrvBackpressureCnt, aMemZeroFillCnt] ∧ (∀ p k, t.stk p k = s.stk p k) ∧
          t = { s with load.insts := t.load.insts, srv.seqs := t.srv.seqs, mem := t.mem, reg.vals := t.reg.vals }) ∧
      (recFld w 2 19 18 = 0 → stops ∨ limit ∨ full →
        ∃ t, exec (.resultRecordsRead inst) s = .next t ∧ (t.inst i).readN = n ∧ (t.seqRec m).state = 5 ∧
          (t.seqRec m).out = q'.out ∧ (t.seqRec m).generated = q.generated + 1 ∧
          ((stops ∧ (t.seqRec m).ending = some 0) ∨ (¬ stops ∧ limit ∧ (t.seqRec m).ending = some 1) ∨
            (¬ stops ∧ ¬ limit ∧ (t.seqRec m).ending = some 2)) ∧
          Counts s t aSrvSeqEndCnt 1 ∧ (∀ k, k ≠ m → t.seqRec k = s.seqRec k)) ∧
      (∀ st, st = 1 ∨ st = 2 → recFld w 2 19 18 = st →
        ∃ t, exec (.resultRecordsRead inst) s = .next t ∧ (t.inst i).readN = n ∧ (t.seqRec m).state = 5 ∧
          (t.seqRec m).ending = some (if st = 1 then 4 else 5) ∧ (t.seqRec m).out = q.out ∧ Counts s t aSrvSeqEndCnt 1 ∧
          Counts s t aSrvMaskEmptyCnt (if st = 1 then 1 else 0) ∧ (∀ k, k ≠ m → t.seqRec k = s.seqRec k)))) ∧
  (∀ (s : State) (seq : BitVec 16) (slot : BitVec 12) (st : BitVec 8) (flags : BitVec 6) (c : Nat) (y : Cho) (inst : BitVec 10)
    (tok : BitVec 18) (gen : BitVec 16) (idx : Nat) (mark : Bool) (hv : BitVec 32),
    let n := seq.toNat
    let q := s.seqRec n
    let at_ (t : State) (r o k : Nat) : Nat := leNat (((t.slotRead r ((s.ring r).tail % s.ringCount r)).drop o).take k)
    let entered (t : State) (r kind status : Nat) : Prop :=
      (t.ring r).tail = ((s.ring r).tail + 1) % (2 * s.ringCount r) ∧ (t.ring r).head = (s.ring r).head ∧
      at_ t r 0 1 % 16 = kind ∧ (kind ≠ 3 → at_ t r 1 1 = status) ∧ (∀ p, p ≠ r → t.ring p = s.ring p)
    (let r := 256 + q.respRing.toNat
     let off := s.ringCount r = 0 ∨ s.ringEnabled r = false
     let written (t : State) (kind status : Nat) (said : Prop) : Prop := (∀ m, m ≠ n → t.seqRec m = s.seqRec m) ∧
       (¬ off → entered t r kind status ∧ said ∧ Counts s t (aRingDrop r) 0) ∧
       (off → t.ring r = s.ring r ∧ Counts s t (aRingDrop r) 1)
     q.state ≠ 0 → s.homeOn (s.ifaceHome q.inst.toNat) = true →
     (off ∨ (s.ringFull r = false ∧ (s.ring r).outbox = []) →
      (q.handleOut = some hv → ∃ t, exec (.responseWrite seq) s = .next t ∧
        written t 2 0 (at_ t r 20 4 = hv.toNat ∧ at_ t r 8 8 = q.reqId.toNat) ∧ Counts s t aSrvTokenCnt 0 ∧
        t.seqRec n = { q with handleOut := none, state := if q.state = 3 ∧ q.out.length < 64 then 2 else q.state }) ∧
      (q.handleOut = none → q.out = [(tok, gen, idx, mark)] →
        ∃ t, exec (.responseWrite seq) s = .next t ∧
          written t 0 0 (at_ t r 0 1 / 16 % 2 = b2n mark ∧ at_ t r 2 1 % 16 = 1 ∧ at_ t r 4 2 = gen.toNat ∧
            at_ t r 8 8 = q.reqId.toNat ∧ at_ t r 16 4 = idx % 2 ^ 32 ∧ at_ t r 32 4 = tok.toNat) ∧
          t.seqRec n = { q with out := [], state := if q.state = 3 then 2 else q.state } ∧ Counts s t aSrvTokenCnt 1) ∧
      (q.handleOut = none → q.out = [] → q.progress = [] → q.ending = some st →
        ∃ t, exec (.responseWrite seq) s = .next t ∧
          written t 1 st.toNat (at_ t r 8 8 = q.reqId.toNat ∧ at_ t r 20 4 = q.generated % 2 ^ 32) ∧
          t.seqRec n = {} ∧ Counts s t aSrvTokenCnt 0)) ∧
     (¬ off → s.ringFull r = true ∨ (s.ring r).outbox ≠ [] → exec (.responseWrite seq) s = .next s)) ∧
    (let r := 256 + s.ifaceNotice inst.toNat
     kvFind slot.toNat s.con.notices = some flags →
      s.con.chos.find? (fun e => e.2.image.slots.any (fun k => k.slot == slot)) = some (c, y) → y.inst = some inst →
      s.ifaceOn inst.toNat = true → s.homeOn (kvGet 0 slot.toNat s.con.numSlot - 1) = true → s.ringSpace r = true →
      (s.ring r).outbox = [] →
      ∃ t, exec (.noticeWrite slot) s = .next t ∧ entered t r 3 0 ∧ kvFind slot.toNat t.con.notices = none ∧
        (∀ k, k ≠ slot.toNat → kvFind k t.con.notices = kvFind k s.con.notices) ∧ Counts s t aSrvNoticeCnt 1 ∧
        at_ t r 16 4 = slot.toNat ∧ at_ t r 20 4 = flags.toNat))

/-! ### Tensor ports, windows and the rack (R275 to R305) -/

/-- Only one tensor port, and values of registers, differ. -/
def Sys2Proof.Machine.OnlyPort (s t : State) (k : Nat) : Prop :=
  t = { s with fab.ports := t.fab.ports, reg.vals := t.reg.vals } ∧ ∀ j, j ≠ k → t.port j = s.port j

/-- The first port in T-number order wired toward a message's module that is in STATE 2 or 3 is port `q`, and its queue for
the message's class has room (R283, R299). -/
def Sys2Proof.Machine.Routes (s : State) (q : Nat) (m : CtrlMsg) : Prop :=
  (portsTo s.modNumber (msgDest m)).find? (fun i => portUp (s.port i)) = some q ∧
  (portQueue (s.port q) (msgClass m)).length < 64

/-- A message has joined the queue of its class at port `q` (R283). -/
def Sys2Proof.Machine.Sends (s t : State) (q : Nat) (m : CtrlMsg) : Prop :=
  t.port q = portPut (s.port q) m ∧ ∀ j, j ≠ q → t.port j = s.port j

/-- FRAME_RECEIVE and FRAME_SEND (R276 to R281, R283, R284, R304): a frame whose CRC-32 fails or that breaks the sequence is
discarded and NAK is set; one in sequence gives the flits of its valid slots to the receive buffer, with their parity, and its
ACK frees the frames it covers; a NAK starts go-back-N, and the sixteenth retry in succession takes the port DOWN unless a
lane fault is pending. A port first resends, with the ACK and NAK of now; with 64 frames unacknowledged none leaves; else it
sends up to seven control messages, class 0 first, and data flits against credit, seals the frame with its CRC and keeps it.

Training, retraining and the wavelengths (R275, R280, R282, R298, R306): a port with 7 wavelengths or more left to each fibre comes
up on them, in STATE 2 on 8, and knows its peer, and a peer against R297 is counted and logged; retraining resends what no
ACK covers, and its third failure retires the port. A faulty wavelength is counted, taken out, journaled and told to the peer;
the port restripes to the 7 others and later to 8 with the spare; on 7 already, or with a fault pending, it goes DOWN.

The model's own choices it rests on: how many flits a port takes ahead (notes/assumptions/28.md); the first sequence number and what retraining keeps (notes/assumptions/82.md); a restripe is journalled (notes/assumptions/84.md); the CRC-32 of IEEE 802.3 (notes/assumptions/172.md); what a full window and a resent frame carry (notes/assumptions/173.md); which fibre a failed wavelength leaves (notes/assumptions/174.md). -/
def Obligations.PortsCarryFramesAndTrain : Prop :=
  (∀ (s : State) (port : BitVec 7) (f : Frame),
    let k := port.toNat
    let p := s.port k
    let keeps (g : Frame) : Bool := decide (2048 ≤ (f.ack - g.seq).toNat)
    let left := p.sent.filter keeps
    let moved := if left.length < p.sent.length then 0 else p.retried
    portCarries p = true →
    (f.crc ≠ frameCrc f →
      ∃ t, exec (.frameReceive port f) s = .next t ∧ t.port k = { p with nak := true } ∧ OnlyPort s t k ∧
        Counts s t (aTnpFecCorrCnt k) f.fecCorr ∧ Counts s t (aTnpCrcErrCnt k) 1 ∧
        RegsBut s t [aTnpFecCorrCnt k, aTnpCrcErrCnt k]) ∧
    (f.crc = frameCrc f → f.seq ≠ p.rxSeq + 1 →
      ∃ t, exec (.frameReceive port f) s = .next t ∧ t.port k = { p with nak := true } ∧ OnlyPort s t k ∧
        Counts s t (aTnpFecCorrCnt k) f.fecCorr ∧ RegsBut s t [aTnpFecCorrCnt k]) ∧
    (f.crc = frameCrc f → f.seq = p.rxSeq + 1 → (∀ m, some m ∈ f.msgs.toList → msgDest m = s.modNumber) →
      let q : Port := { p with
        rxSeq := f.seq, nak := false, credit := f.credit, rx := p.rx ++ validFlits f, sent := left, resend := p.resend.filter keeps }
      (f.nak = false ∨ left = [] →
        ∃ t, exec (.frameReceive port f) s = .next t ∧ t.port k = { q with retried := moved } ∧ OnlyPort s t k ∧
          Counts s t (aTnpFecCorrCnt k) f.fecCorr ∧ RegsBut s t [aTnpFecCorrCnt k]) ∧
      (f.nak = true → left ≠ [] → moved + 1 < 16 ∨ p.state = 4 →
        ∃ t, exec (.frameReceive port f) s = .next t ∧ t.port k = { q with resend := left, retried := moved + 1 } ∧
          OnlyPort s t k ∧ Counts s t (aTnpFecCorrCnt k) f.fecCorr ∧ Counts s t (aTnpRetryCnt k) 1 ∧
          RegsBut s t [aTnpFecCorrCnt k, aTnpRetryCnt k]) ∧
      (f.nak = true → left ≠ [] → 16 ≤ moved + 1 → p.state ≠ 4 →
        ∃ t, exec (.frameReceive port f) s = .next t ∧
          t.port k = { q with resend := left, state := 5, lanes := 0, retried := 0, retrains := 0, faultLane := none } ∧
          (∀ j, j ≠ k → t.port j = s.port j) ∧
          Counts s t (aTnpFecCorrCnt k) f.fecCorr ∧ Counts s t (aTnpRetryCnt k) 1 ∧ Counts s t (aTnpLinkDownCnt k) 1 ∧
          t = { s with fab.ports := t.fab.ports, fab.joined := t.fab.joined, reg.vals := t.reg.vals })) ∧
    (∀ i : Fin 63, f.valid.getLsbD i = true → slotFlit f.slots[i] ∈ validFlits f) ∧
    (∀ m, f.crc = frameCrc f → f.seq = p.rxSeq + 1 → f.nak = false → s.isManager = false →
      f.msgs.toList.filterMap id = [m] → msgDest m ≠ s.modNumber →
      ∃ t, exec (.frameReceive port f) s = .next t ∧ Counts s t aFabMisrouteCnt 1) ∧
    (∀ g rest, p.resend = g :: rest →
      let again := sealFrame { g with ack := p.rxSeq, nak := p.nak }
      exec (.frameSend port) s = .next (s.setPort k { p with
        resend := rest, nak := false, sent := p.sent.map (fun x => if x.seq = g.seq then again else x) })) ∧
    (p.resend = [] → 64 ≤ p.sent.length → exec (.frameSend port) s = .next s) ∧
    (p.resend = [] → p.sent.length < 64 → s.fab.stalled = [] →
      let k0 := min 7 p.class0.length
      let k1 := min (7 - k0) p.class1.length
      let k2 := syncWhole p.class2 (min (7 - k0 - k1) p.class2.length)
      let n := min 63 (min (2016 - (p.used - p.credit).toNat) p.tx.length)
      let msgs := stampMsgs s.fcount (p.class0.take k0 ++ p.class1.take k1 ++ p.class2.take k2)
      ∃ (t : State) (g : Frame), exec (.frameSend port) s = .next t ∧
        t.port k = { p with
          txSeq := p.txSeq + 1, nak := false, used := p.used + BitVec.ofNat 16 n, tx := p.tx.drop n
          class0 := p.class0.drop k0, class1 := p.class1.drop k1, class2 := p.class2.drop k2
          waited := p.class0.length - k0, sent := p.sent ++ [g] } ∧
        g.crc = frameCrc g ∧ g.seq = p.txSeq ∧ g.ack = p.rxSeq ∧ g.nak = p.nak ∧ g.credit = p.freed ∧ g.lanes = p.lanes ∧
        g.valid = BitVec.ofNat 63 (2 ^ n - 1) ∧ (∀ i : Fin 7, g.msgs[i] = msgs[i.val]?) ∧ (validFlits g).length = n ∧
        (∀ i x, i < n → p.tx[i]? = some x → ∃ y, (validFlits g)[i]? = some y ∧ y.kind = .remote ∧ y.bytes.length = 128 ∧
          (∀ j, j < 128 → y.bytes.getD j 0 = x.bytes.getD j 0) ∧ (∀ j, j ∈ y.bad ↔ j < 128 ∧ j ∈ x.bad)) ∧
        Counts s t (aTnpCtrlWaitCnt k) (p.class0.length - k0 - (p.waited - k0)) ∧
        t.fab.syncT1 = (if s.fab.syncPort = some k ∧ msgs.any isSyncRequest then s.fcount else s.fab.syncT1) ∧
        (∀ j, j ≠ k → t.port j = s.port j) ∧ RegsBut s t [aTnpCtrlWaitCnt k] ∧
        t = { s with
              fab.ports := t.fab.ports, fab.syncT1 := t.fab.syncT1, reg.vals := t.reg.vals, freeCtr := s.freeCtr + 1 })) ∧
  (∀ (s : State) (port : BitVec 7) (peer : BitVec 10) (peerPort : BitVec 7) (wave : BitVec 4) (seq : BitVec 12),
    let k := port.toNat
    let p := s.port k
    let own := BitVec.ofNat 10 s.modNumber
    let striped (q : Port) : Port := { q with
      state := if portLanes q < 8 then 3 else 2, lanes := laneSet q.badTx q.spare, faultLane := none, spareReady := false }
    let trained : Port := { striped p with
      peer := peer, peerPort := peerPort, txSeq := 0, rxSeq := 0xFFF, credit := 0, used := 0
      freed := 0, retried := 0, retrains := 0 }
    let wired := 15 ≤ k % 24 ∨
      (peer.toNat = s.modNumber / 16 * 16 + (s.modNumber % 16 + 1 + k % 24) % 16 ∧ peerPort.toNat = k / 24 * 24 + (14 - k % 24))
    let wbit := BitVec.ofNat 9 (2 ^ wave.toNat)
    let down (q : Port) : Port := { q with state := 5, lanes := 0, retried := 0, retrains := 0, faultLane := none }
    let told (t : State) (q : Port) : Prop := t.port k = q ∧ (∀ j, j ≠ k → t.port j = s.port j) ∧
      Noted s t 0x19 (k + wave.toNat * 2 ^ 7) ∧ t.wafer = s.wafer ∧ t.con = s.con ∧ t.mem = s.mem
    (laneSet 0 p.spare = 0xFF ∧ ∀ n : Fin 8, laneSet (BitVec.ofNat 9 (2 ^ n.val)) false = 0xFF - BitVec.ofNat 9 (2 ^ n.val) ∧
      laneSet (BitVec.ofNat 9 (2 ^ n.val)) true = 0x1FF - BitVec.ofNat 9 (2 ^ n.val)) ∧
    (p.state = 1 → 7 ≤ portLanes p → s.fab.stalled = [] →
      ∃ t, exec (.portTrainingDone port peer peerPort) s = .next t ∧ t.port k = trained ∧
        (∀ j, j ≠ k → t.port j = s.port j) ∧
        (wired → t = { s with fab.ports := t.fab.ports }) ∧
        (¬ wired → Counts s t aFabMiswireCnt 1 ∧ (∃ e, t.keep.ledger.journal = s.keep.ledger.journal ++ [e] ∧ e.kind = 0x20 ∧ fld e.payload 7 0 = 6 ∧
            fld e.payload 63 32 = k) ∧
          RegsBut s t (aFabMiswireCnt :: noteRegs) ∧ t.wafer = s.wafer ∧ t.con = s.con)) ∧
    (p.state = 5 → 7 ≤ portLanes p → s.fab.stalled = [] →
      ∃ t, exec (.portRetrainDone port true) s = .next t ∧ OnlyPort s t k ∧
        t.port k = { striped p with resend := p.sent, retried := 0, retrains := 0 } ∧
        Counts s t (aTnpRetryCnt k) (if p.sent = [] then 0 else 1) ∧ RegsBut s t [aTnpRetryCnt k]) ∧
    (∀ ok : Bool, p.state = 5 → ok = false ∨ portLanes p < 7 → p.retrains < 2 →
      exec (.portRetrainDone port ok) s = .next (s.setPort k { p with retrains := p.retrains + 1 })) ∧
    (∀ ok : Bool, p.state = 5 → ok = false ∨ portLanes p < 7 → 2 ≤ p.retrains →
      ∃ t, exec (.portRetrainDone port ok) s = .next t ∧ t.port k = { p with state := 6, retrains := 3 } ∧
        (∀ j, j ≠ k → t.port j = s.port j) ∧ Counts s t (aTnpLinkDownCnt k) 1 ∧ Noted s t 0x1A k ∧
        RegsBut s t (aTnpLinkDownCnt k :: noteRegs) ∧ t.wafer = s.wafer ∧ t.con = s.con) ∧
    (portCarries p = true → p.class1.length < 64 →
      (∃ t q, exec (.wavelengthFault port wave) s = .next t ∧ Counts s t (aTnpLaneFaultCnt k) 1 ∧
        (let x : Port := { p with badRx := p.badRx ||| wbit, class1 := p.class1 ++ [.lane own p.peer wave 0 q] }
         told t (if p.state = 2 then { x with state := 4, faultLane := some wave, switchSeq := q } else down x)) ∧
        RegsBut s t (aTnpLaneFaultCnt k :: aTnpLinkDownCnt k :: noteRegs) ∧
        Counts s t (aTnpLinkDownCnt k) (if p.state = 2 then 0 else 1))) ∧
    (portCarries p = true →
      ∃ t, exec (.lane port wave 0 seq) s = .next t ∧
        (let x : Port := { p with badTx := p.badTx ||| wbit }
         told t (if p.state = 2 then { x with state := 4, faultLane := some wave, switchSeq := seq } else down x)) ∧
        RegsBut s t (aTnpLinkDownCnt k :: noteRegs) ∧ Counts s t (aTnpLinkDownCnt k) (if p.state = 2 then 0 else 1)) ∧
    (p.state = 4 → exec (.laneRestripe port) s = .next (s.setPort k (striped p))) ∧
    (p.state = 3 → p.spare = false → p.class1.length < 64 →
      (∃ t q, exec (.spareWavelengthReady port) s = .next t ∧
        t.port k = { p with spareReady := true, switchSeq := q, class1 := p.class1 ++ [.lane own p.peer 8 2 q] } ∧
        (∀ j, j ≠ k → t.port j = s.port j) ∧ t = { s with fab.ports := t.fab.ports, freeCtr := s.freeCtr + 1 }) ∧
      exec (.lane port wave 2 seq) s = .next (s.setPort k { p with spareReady := true, switchSeq := seq })) ∧
    (p.state = 3 → p.spareReady = true → exec (.laneRestripe port) s = .next (s.setPort k (striped { p with spare := true }))))

/-- The flits have landed at offset `a` of tile `k`, with their parity; every other byte of the scratches keeps its own (R114). -/
def Sys2Proof.Machine.Landed (s t : State) (k a : Nat) (fs : List Flit) : Prop :=
  (∀ i f j, fs[i]? = some f → j < 128 → memGet 0 (scrKey k a + 128 * i + j) t.wafer.scratch = f.bytes.getD j 0) ∧
  (∀ x, (x < scrKey k a ∨ scrKey k a + 128 * fs.length ≤ x) → memGet 0 x t.wafer.scratch = memGet 0 x s.wafer.scratch) ∧
  (∀ x, x ∈ t.wafer.scratchBad ↔ (x ∈ s.wafer.scratchBad ∧ (x < scrKey k a ∨ scrKey k a + 128 * fs.length ≤ x)) ∨
    ∃ i f j, fs[i]? = some f ∧ j ∈ f.bad ∧ x = scrKey k a + 128 * i + j)

/-- An operation stands first in a port's receive buffer: its header, with its OP, and the flits `fs` after it, of 128 bytes each (R288). -/
def Sys2Proof.Machine.FirstOp (p : Port) (op : Nat) (h : Header) (data : List (List Byte)) (fs : List Flit) : Prop :=
  h.op.toNat = op ∧ (∃ x r, p.rx = x :: fs ++ r ∧ x.bytes = headerBytes h) ∧ fs.map (fun f => f.bytes) = data ∧
  fs.length = (if op = 1 ∨ op = 4 ∨ op = 6 then h.len.toNat + 1 else 0) ∧
  ∀ f ∈ fs, f.bytes.length = 128 ∧ ∀ j ∈ f.bad, j < 128

/-- RWR, RRD, RFLAG and MSG at the owner (R114, R287 to R289, R293, R300): the operation that stands first in the receive buffer,
to a window that admits it, lands in scratch, in the stacks or in a flag, or reads scratch or stacks, with the parity of its
flits, and is answered through the port of arrival; one outside its window is dropped without completion, counted and recorded
with the first REASON that holds, and FREEZE goes to its source. A rack message of tenant 0 enters its ring, or is dropped with
STATUS 1. An operation that does not stand first waits.

COMPL, RDATA, RCOMP_TIMEOUT and FREEZE at the issuer, and the opening, draining and closing of a window (R287, R290 to R296,
R351): a completion releases its entry and lowers the count that the entry stands in; the data of a remote read waits for its
turns; an entry held too long stops the issuing tile's domain; a FREEZE freezes the channel and is recorded.

The model's own choices it rests on: REASON 1 for another edge group (notes/assumptions/33.md); MSG to a disabled ring returns STATUS 1 (notes/assumptions/93.md); remote data moves within its command (notes/assumptions/175.md); an entry whose tile is owned no more (notes/assumptions/176.md). -/
def Obligations.RemoteOperationsAndWindows : Prop :=
  (∀ (s : State) (port : BitVec 7) (h : Header) (data : List (List Byte)) (fs : List Flit),
    let k := port.toNat
    let p := s.port k
    let g := h.edge.toNat
    let w := h.window.toNat
    let n := h.len.toNat + 1
    let base := s.winBase g w
    let T := bits base 37 24
    let a := bits base 21 0 + h.offset.toNat
    let fl := BitVec.ofNat 18 (bits base 17 0 + h.flag.toNat)
    let fh := fl.toNat
    let seen := s.winState g w ≠ 0 ∧ g = k / 24
    let peer := h.src.toNat = s.winPeer g w ∧ h.tenant.toNat = s.winPeerTenant g w
    let fits := h.offset.toNat + 128 * n ≤ s.winLen g w
    let reply (op : BitVec 4) (st : BitVec 8) (len : BitVec 12) : Flit :=
      { bytes := headerBytes { h with
          op := op, dest := h.src, src := BitVec.ofNat 10 s.modNumber, len := len, status := st, value := 0, flag := 0 }
        kind := .remote }
    let answered (t : State) (m : Nat) (fs : List Flit) : Prop :=
      t.port k = { p with rx := p.rx.drop m, freed := p.freed + BitVec.ofNat 16 m, tx := p.tx ++ fs } ∧
      ∀ j, j ≠ k → t.port j = s.port j
    let broke (c : Instr) (reason : Nat) : Prop :=
      ∃ t, exec c s = .next t ∧ Counts s t aFabWinViolCnt 1 ∧ t.rfld aFabWinViolInfo 2 0 = reason ∧
        t.rfld aFabWinViolInfo 13 4 = h.src.toNat ∧ t.rfld aFabWinViolInfo 27 14 = h.srcTile.toNat ∧
        t.rfld aFabWinViolInfo 35 28 = h.tenant.toNat ∧ t.rfld aFabWinViolInfo 47 36 = w ∧
        t.rfld aFabWinViolInfo 49 48 = g ∧ t.rfld aFabWinViolInfo 53 50 = h.op.toNat ∧
        t.rfld aFabWinViolAddr 39 0 = h.offset.toNat ∧ t.wafer = s.wafer ∧ t.mem = s.mem ∧ t.con = s.con ∧
        (t.port k).tx = p.tx ∧
        (let m := CtrlMsg.freeze {
          src := BitVec.ofNat 10 s.modNumber, dest := h.src, tile := h.srcTile, tenant := h.tenant, window := h.window
          edge := h.edge, reason := BitVec.ofNat 3 reason, closeId := 0 }
         ∀ q, Routes s q m → (t.port q).class1 = (s.port q).class1 ++ [m])
    h.dest.toNat = s.modNumber →
    (FirstOp p 1 h data fs →
      (seen → peer → fits → s.winWrite g w = true →
        (s.winKind g w = 0 → (s.dom (s.domOf T)).loupe = false →
          ∃ t, exec (.rwr port h data) s = .next t ∧ answered t (n + 1) [reply 5 0 0] ∧ Landed s t T a fs ∧
            t = { s with fab.ports := t.fab.ports, wafer.scratch := t.wafer.scratch, wafer.scratchBad := t.wafer.scratchBad }) ∧
        (s.winKind g w = 1 → (∀ e ∈ s.con.doms, e.2.loupe = false) → (∀ f ∈ fs, f.bad = []) →
          ∃ t, exec (.rwr port h data) s = .next t ∧ answered t (n + 1) [reply 5 0 0] ∧
            t.stk (base + h.offset.toNat) (128 * n) = data.flatten ∧
            (∀ x, (x < base + h.offset.toNat ∨ base + h.offset.toNat + 128 * n ≤ x) → t.stk x 1 = s.stk x 1) ∧
            RegsBut s t [aMemZeroFillCnt] ∧
            t = { s with
                  fab.ports := t.fab.ports, mem.stack := t.mem.stack, mem.stackBad := t.mem.stackBad
                  mem.zeroFill := t.mem.zeroFill, reg.vals := t.reg.vals })) ∧
      (¬ seen → broke (.rwr port h data) 1) ∧ (seen → ¬ peer → broke (.rwr port h data) 2) ∧
      (seen → peer → ¬ fits → broke (.rwr port h data) 3) ∧
      (seen → peer → fits → (s.winWrite g w = false ∨ 2 ≤ s.winKind g w) → broke (.rwr port h data) 4)) ∧
    (FirstOp p 2 h [] fs →
      (seen → peer → fits → s.winRead g w = true → s.winKind g w = 0 →
        ∃ t gs, exec (.rrd port h) s = .next t ∧ answered t 1 (reply 4 0 h.len :: gs) ∧ gs.length = n ∧
          (∀ i, i < n → ∃ f, gs[i]? = some f ∧ f.bytes = s.scr T (a + 128 * i) 128 ∧ f.kind = .remote ∧
            ∀ x, x ∈ f.bad ↔ x < 128 ∧ (scrKey T (a + 128 * i) + x) ∈ s.wafer.scratchBad) ∧
          t = { s with fab.ports := t.fab.ports }) ∧
      (seen → peer → fits → s.winRead g w = true → s.winKind g w = 1 →
        ∃ t gs, exec (.rrd port h) s = .next t ∧ answered t 1 (reply 4 0 h.len :: gs) ∧ gs.length = n ∧
          (∀ i, i < n → ∃ f, gs[i]? = some f ∧ f.bytes = s.stk (base + h.offset.toNat + 128 * i) 128 ∧ f.kind = .remote ∧
            ∀ x, x ∈ f.bad ↔ x < 128 ∧
              (s.rfld (aMemStackState (base / 2 ^ 37)) 1 0 = 2 ∨ s.stkBad (base + h.offset.toNat + 128 * i + x) = true)) ∧
          Filled s t ∧ t = { s with fab.ports := t.fab.ports, mem := t.mem, reg.vals := t.reg.vals }) ∧
      (¬ seen → broke (.rrd port h) 1) ∧ (seen → ¬ peer → broke (.rrd port h) 2) ∧
      (seen → peer → ¬ fits → broke (.rrd port h) 3) ∧
      (seen → peer → fits → (s.winRead g w = false ∨ 2 ≤ s.winKind g w) → broke (.rrd port h) 4)) ∧
    (FirstOp p 3 h [] fs →
      (seen → peer → h.flag.toNat < s.winLen g w → s.winKind g w = 2 → (s.flag fh).cho ≠ none →
        (s.inStep (s.flag fh).dom.toNat = true →
          ∃ t, exec (.rflag port h) s = .next t ∧ answered t 1 [reply 5 0 0] ∧
            t = { s with
                  fab.ports := t.fab.ports, con.held := s.con.held ++ [.signal fl h.value], dbg.loupe := t.dbg.loupe }) ∧
        (s.inStep (s.flag fh).dom.toNat = false → s.con.held = [] → (s.flag fh).count.toNat + h.value.toNat ≤ 65535 →
          kvWf {} s.con.flags = true → ∃ t, exec (.rflag port h) s = .next t ∧ answered t 1 [reply 5 0 0] ∧
            (t.flag fh).count.toNat = (s.flag fh).count.toNat + h.value.toNat ∧
            t = { s with
                  fab.ports := t.fab.ports, con.flags := t.con.flags, con.queues := t.con.queues, dbg.loupe := t.dbg.loupe })) ∧
      (¬ seen → broke (.rflag port h) 1) ∧ (seen → ¬ peer → broke (.rflag port h) 2) ∧
      (seen → peer → s.winLen g w ≤ h.flag.toNat → broke (.rflag port h) 3) ∧
      (seen → peer → h.flag.toNat < s.winLen g w → s.winKind g w ≠ 2 → broke (.rflag port h) 4)) ∧
    (FirstOp p 6 h data fs →
      let r := 514 + w % 16
      let bs := data.flatten.take (s.ringEsz r) ++ List.replicate (s.ringEsz r - (data.flatten.take (s.ringEsz r)).length) 0
      (h.tenant = 0 → s.ringSpace r = true →
        ∃ t, exec (.msg port h data) s = .next t ∧ answered t (n + 1) [reply 5 0 0] ∧
          t.slotRead r ((s.ring r).tail % s.ringCount r) = bs ∧
          t.ring r = { s.ring r with tail := ((s.ring r).tail + 1) % (2 * s.ringCount r) } ∧
          (∀ j, j ≠ r → t.ring j = s.ring j) ∧ t.con = s.con) ∧
      (h.tenant = 0 → s.ringSpace r = false →
        ∃ t, exec (.msg port h data) s = .next t ∧ answered t (n + 1) [reply 5 1 0] ∧
          Counts s t (aRingDrop r) 1 ∧ RegsBut s t [aRingDrop r] ∧ t.mem = s.mem ∧ t.con = s.con) ∧
      (h.tenant ≠ 0 → broke (.msg port h data) 2)) ∧
    (p.rx = [] ∨ (∃ x r, p.rx = x :: r ∧ x.bytes ≠ headerBytes h) →
      exec (.rwr port h data) s = .next s ∧ exec (.rrd port h) s = .next s ∧ exec (.rflag port h) s = .next s ∧
      exec (.msg port h data) s = .next s)) ∧
  (∀ (s : State) (port : BitVec 7) (h : Header) (data : List (List Byte)) (fs : List Flit) (path : Path) (edge : BitVec 2)
    (window : BitVec 12) (entry : BitVec 15) (m : WinMsg) (owner : BitVec 10),
    let k := port.toNat
    let p := s.port k
    let g := edge.toNat
    let w := window.toNat
    let key := g * 32768 + entry.toNat
    let released (t : State) (e : Ctab) : Prop :=
      kvFind h.tag.toNat t.fab.ctab = none ∧ (∀ i, i ≠ h.tag.toNat → kvFind i t.fab.ctab = kvFind i s.fab.ctab) ∧
      (∀ j, t.tile j = if e.live = true ∧ j = e.tile then { s.tile j with
        seq := { (s.tile j).seq with remoteOut := (s.tile j).seq.remoteOut - 1 } } else s.tile j) ∧
      (∀ j, j ≠ k → t.port j = s.port j) ∧
      t = { s with fab.ports := t.fab.ports, fab.ctab := t.fab.ctab, wafer.tiles := t.wafer.tiles }
    let closed (t : State) (cnt : Nat) : Prop :=
      t.rfld (aFabWin g w) 1 0 = 0 ∧ t.rfld (aFabWin g w) 63 2 = s.rfld (aFabWin g w) 63 2 ∧ Counts s t cnt 1 ∧
      RegsBut s t [aFabWin g w, cnt] ∧ kvFind (winKey g w) t.fab.closing = none ∧
      t = { s with fab.closing := t.fab.closing, reg.vals := t.reg.vals }
    let msgOf (dest : BitVec 10) (id : Half) : WinMsg := {
      src := BitVec.ofNat 10 s.modNumber, dest := dest, tile := 0, tenant := 0, window := window, edge := edge, reason := 0
      closeId := id }
    (∀ e, kvFind h.tag.toNat s.fab.ctab = some e → e.owner = h.src → e.kept = false → h.dest.toNat = s.modNumber →
      ((e.op = 1 ∨ e.op = 3 ∨ e.op = 6) → FirstOp p 5 h [] fs →
        ∃ t, exec (.compl port h) s = .next t ∧ released t e ∧
          t.port k = { p with rx := p.rx.drop 1, freed := p.freed + 1 }) ∧
      (e.op = 2 → FirstOp p 4 h data fs →
        ∃ t, exec (.rdata port h data) s = .next t ∧ released t e ∧
          t.port k = if e.live then { p with
              rx := p.rx.drop (fs.length + 1), freed := p.freed + 1
              mesh := p.mesh ++ fs.map (fun f => { f with src := e.tile }) }
            else { p with rx := p.rx.drop (fs.length + 1), freed := p.freed + BitVec.ofNat 16 (fs.length + 1) })) ∧
    (∀ e, kvFind key s.fab.ctab = some e → e.kept = false → e.since + 1000 * e.limit ≤ s.clock →
      ((s.tile e.tile).dom ≠ none → (s.dom (s.domOf e.tile)).state = 2 ∨ (s.dom (s.domOf e.tile)).state = 3 →
        s.domInst (s.domOf e.tile) = none → key ∉ s.meshTags (s.domOf e.tile) →
        ∃ t, exec (.rcompTimeout edge entry) s = .next t ∧ Counts s t aFabRcompTmoCnt 1 ∧ Counts s t aChoAbortCnt 1 ∧
          (∃ l, kvFind key t.fab.ctab = some { e with kept := true, live := l }) ∧
          (t.dom (s.domOf e.tile)).state = 4 ∧ ∀ d, d ≠ s.domOf e.tile → t.dom d = s.dom d) ∧
      ((s.tile e.tile).dom = none →
        ∃ t, exec (.rcompTimeout edge entry) s = .next t ∧ Counts s t aFabRcompTmoCnt 1 ∧ kvFind key t.fab.ctab = none ∧
          (∀ i, i ≠ key → kvFind i t.fab.ctab = kvFind i s.fab.ctab) ∧ t.con = s.con ∧ t.wafer = s.wafer)) ∧
    (∀ e, kvFind key s.fab.ctab = some e → s.clock < e.since + 1000 * e.limit → exec (.rcompTimeout edge entry) s = .next s) ∧
    (m.dest.toNat = s.modNumber →
      ∃ t, exec (.freeze m) s = .next t ∧ Counts s t aFabFrzNoticeCnt 1 ∧
        t.rfld aFabFrzInfo 13 0 = m.tile.toNat ∧ t.rfld aFabFrzInfo 21 14 = m.tenant.toNat ∧
        t.rfld aFabFrzInfo 31 22 = m.src.toNat ∧ t.rfld aFabFrzInfo 43 32 = m.window.toNat ∧
        t.rfld aFabFrzInfo 45 44 = m.edge.toNat ∧ t.rfld aFabFrzInfo 48 46 = m.reason.toNat ∧
        t.fab = { s.fab with ctab := s.fab.ctab.map (fun e =>
          (e.1, if e.2.tile = m.tile.toNat then { e.2 with kept := true } else e.2)) } ∧
        (m.tile ≠ 0x3FFF → t.frozenAt 1 m.tile.toNat = true ∧ t.rfld aChoViolInfo 7 0 = 9 ∧ Counts s t aChoViolCnt 1) ∧
        (m.tile ≠ 0x3FFF → (s.tile m.tile.toNat).dom ≠ none → s.domInst (s.domOf m.tile.toNat) = none →
          (s.dom (s.domOf m.tile.toNat)).state ≠ 0 →
          (t.dom (s.domOf m.tile.toNat)).state = 6 ∧ ∀ d, d ≠ s.domOf m.tile.toNat → t.dom d = s.dom d) ∧
        (m.tile = 0x3FFF ∨ (s.tile m.tile.toNat).dom = none → t.con = s.con) ∧
        (m.tile = 0x3FFF → (∃ j, j < 28 ∧ t.frozenAt 1 (0xC000 + j) = true) ∧ Counts s t aChoViolCnt 0)) ∧
    (Reaches s path aFabWinCmd true →
      (s.winState g w = 0 → s.openOk g w = true →
        ∃ t, exec (.winCmdOpen path edge window) s = .next t ∧ t.rfld (aFabWin g w) 1 0 = 1 ∧
          t.rfld (aFabWin g w) 63 2 = s.rfld (aFabWin g w) 63 2 ∧ RegsBut s t [aFabWin g w] ∧
          t = { s with reg.vals := t.reg.vals, resp := { status := 0, data := [] } }) ∧
      (s.winState g w ≠ 0 ∨ s.openOk g w = false →
        ∃ t, exec (.winCmdOpen path edge window) s = .next t ∧ Refused s t path 2 true aFabWinCmd) ∧
      (s.winState g w ≠ 1 → ∃ t, exec (.winCmdClose path edge window) s = .next t ∧ Refused s t path 2 true aFabWinCmd) ∧
      (∀ q, s.winState g w = 1 →
        let id := s.fab.closeSeq + 1
        let c := CtrlMsg.winClose (msgOf (BitVec.ofNat 10 (s.winPeer g w)) id)
        Routes s q c → ∃ t, exec (.winCmdClose path edge window) s = .next t ∧ t.rfld (aFabWin g w) 1 0 = 2 ∧
          RegsBut s t [aFabWin g w, aFabWinCloseTmo] ∧ t.reg64 aFabWinCloseTmo = s.committedOf aFabWinCloseTmo ∧ Sends s t q c ∧
          kvFind (winKey g w) t.fab.closing =
            some { closeId := id, since := s.clock, limit := fld (s.committedOf aFabWinCloseTmo) 13 0 } ∧
          t = { s with
                fab.ports := t.fab.ports, fab.closing := t.fab.closing, fab.closeSeq := id, reg.vals := t.reg.vals
                reg.committed := t.reg.committed, resp := { status := 0, data := [] } })) ∧
    (s.winKind g w = 0 →
      (s.openOk g w = true ↔
        let T := bits (s.winBase g w) 37 24
        let a := bits (s.winBase g w) 21 0
        let len := s.winLen g w
        T < positions ∧ 0x10000 ≤ a ∧ a + len ≤ kindScratch (tileKind T) ∧ len % 128 = 0 ∧ 0 < len ∧
          ∀ seg, a / 16384 ≤ seg → seg ≤ (a + len - 1) / 16384 → s.segTag T seg = s.winTenant g w)) ∧
    (m.dest.toNat = s.modNumber →
      ∃ t, exec (.winClose m) s = .next t ∧
        { owner := m.src, edge := m.edge, window := m.window, closeId := m.closeId } ∈ t.fab.watches ∧
        (∀ x, ¬ (x.owner = m.src ∧ x.edge = m.edge ∧ x.window = m.window) → (x ∈ t.fab.watches ↔ x ∈ s.fab.watches)) ∧
        t = { s with fab.watches := t.fab.watches }) ∧
    (∀ x q, s.fab.watches = [x] → x.owner = owner → x.edge = edge → x.window = window →
      (∀ e ∈ s.fab.ctab, ¬ (e.2.owner = owner ∧ e.2.edge = edge ∧ e.2.window = window)) →
      Routes s q (.winCloseAck (msgOf owner x.closeId)) →
      ∃ t, exec (.winCloseAckSend owner edge window) s = .next t ∧ t.fab.watches = [] ∧
        Sends s t q (.winCloseAck (msgOf owner x.closeId)) ∧
        t = { s with fab.watches := t.fab.watches, fab.ports := t.fab.ports }) ∧
    (∀ e ∈ s.fab.ctab, e.2.owner = owner → e.2.edge = edge → e.2.window = window →
      exec (.winCloseAckSend owner edge window) s = .next s) ∧
    (∀ c, kvFind (winKey g w) s.fab.closing = some c → m.dest.toNat = s.modNumber → m.edge = edge → m.window = window →
      (c.closeId = m.closeId → s.winState g w = 2 → s.winPeer g w = m.src.toNat →
        ∃ t, exec (.winCloseAck m) s = .next t ∧ closed t aFabWinCloseCnt) ∧
      (c.closeId ≠ m.closeId →
        ∃ t, exec (.winCloseAck m) s = .next t ∧ Counts s t aFabMisrouteCnt 1 ∧ RegsBut s t [aFabMisrouteCnt] ∧
          t = { s with reg.vals := t.reg.vals })) ∧
    (∀ c, kvFind (winKey g w) s.fab.closing = some c → c.since + 1000 * c.limit ≤ s.clock →
      ∃ t, exec (.winCloseTimeout edge window) s = .next t ∧ closed t aFabWinCloseTmoCnt) ∧
    (∀ c, kvFind (winKey g w) s.fab.closing = some c → s.clock < c.since + 1000 * c.limit →
      exec (.winCloseTimeout edge window) s = .next s))

/-- The rack (R285, R301, R302): arrivals are held until every slot of the entry has sent one, then the decision goes to every part; a part
takes a release or a hold; heartbeats name the manager, and the standby takes over; a number already present in the rack
does not join.

The model's own choices it rests on: a part that has stopped counts as an abort (notes/assumptions/24.md). -/
def Obligations.TheManagerCombinesBarriers : Prop :=
  ∀ (s : State) (m : BarMsg) (begins : Bool) (src : BitVec 10) (term : Half) (role : BitVec 8),
    let own := s.modNumber
    let idle := ∀ e ∈ s.con.doms, ¬ (e.2.spans = true ∧ e.2.awaitRelease = true)
    let beat (n : Nat) (tm : Nat) : CtrlMsg :=
      .heartbeat (BitVec.ofNat 10 own) (BitVec.ofNat 10 n) (BitVec.ofNat 32 tm) (if s.isRoot then 3 else 1)
    (∀ e, m.dest.toNat = own → s.isManager = true → m.src.toNat / 16 = own / 16 → s.rdirFind m.choId.toNat m.locDom.toNat 0 = some e →
      let l := (kvGet [] e s.fab.arrivals).filter (fun b => b.slot != m.src.toNat % 16) ++
        [{ slot := m.src.toNat % 16, src := m.src.toNat, mark := m.mark, attempt := m.attempt, step := m.step }]
      ((∃ i ∈ s.rdirMask e, ∀ b ∈ l, b.slot ≠ i) →
        ∃ t, exec (.barArrive m) s = .next t ∧ kvGet [] e t.fab.arrivals = l ∧ t = { s with fab.arrivals := t.fab.arrivals }) ∧
      ((∀ i ∈ s.rdirMask e, (∃ b ∈ l, b.slot = i) ∧ i < 16 ∧ i ≠ own % 16) → s.rdirUpper e = false →
        kvFind (aFabRdir e) s.reg.committed = none → kvFind (aFabRdir e + 8) s.reg.committed = none →
        ∃ t, exec (.barArrive m) s = .next t ∧ kvGet [] e t.fab.arrivals = [] ∧
          (e ∈ t.fab.entryRuns ↔ arrivalsDecide l < 2) ∧ (∀ j, j ≠ e → (j ∈ t.fab.entryRuns ↔ j ∈ s.fab.entryRuns)) ∧
          (∀ i ∈ s.rdirMask e, ∀ q,
            let r := CtrlMsg.barRelease { m with
              src := BitVec.ofNat 10 own, dest := BitVec.ofNat 10 (own / 16 * 16 + i), mark := BitVec.ofNat 2 (arrivalsDecide l) }
            Routes s q r → t.port q = portPut (s.port q) r) ∧
          t = { s with
                fab.arrivals := t.fab.arrivals, fab.ports := t.fab.ports, fab.stalled := t.fab.stalled
                fab.entryRuns := t.fab.entryRuns })) ∧
    (∀ l : List Arrival, l ≠ [] →
      ((∃ b ∈ l, ∃ c ∈ l, b.step ≠ c.step) → arrivalsDecide l = 2) ∧
      ((∀ b ∈ l, ∀ c ∈ l, b.step = c.step) →
        ((∃ b ∈ l, b.mark = 3) → arrivalsDecide l = 3) ∧
        ((∀ b ∈ l, b.mark ≠ 3) → (∃ b ∈ l, b.mark = 2 ∨ (b.mark = 1 ∧ b.attempt = 2)) → arrivalsDecide l = 2) ∧
        ((∀ b ∈ l, b.mark = 0 ∨ (b.mark = 1 ∧ b.attempt ≠ 2)) →
          arrivalsDecide l = if ∃ b ∈ l, b.mark = 1 then 1 else 0))) ∧
    (∀ d, m.dest.toNat = own → s.isManager = false → s.msgDom m.choId m.locDom = some d →
      let x := s.dom d
      (x.awaitRelease = true → x.state = 1 → m.mark.toNat < 2 → x.holdAfter = none → s.domInst d = none →
        ∃ t, exec (.barRelease m) s = .next t ∧
          Starts t d { x with awaitRelease := false, state := 2, remoteHold := false } false ∧ Rewatched s t d ∧
          (∀ e, e ≠ d → t.dom e = s.dom e) ∧
          t = { s with con.doms := t.con.doms, dbg.loupe := t.dbg.loupe, watch := t.watch }) ∧
      (x.awaitRelease = true → x.state = 1 ∨ x.state = 2 → s.domInst d = none →
        (m.mark = 2 → ∃ t, exec (.barRelease m) s = .next t ∧ (t.dom d).state = 4 ∧ Counts s t aChoAbortCnt 1) ∧
        (m.mark = 3 → ∃ t, exec (.barRelease m) s = .next t ∧ (t.dom d).state = 7 ∧ (t.dom d).attempt = 0 ∧
          Counts s t aChoAbortCnt 0)) ∧
      (x.awaitRelease = true → x.state = 2 → m.mark = 1 → SyncWf s →
        ∃ t, exec (.barRelease m) s = .next t ∧
          Starts t d { x with
            awaitRelease := false, remoteHold := false, attempt := x.attempt + 1, events := []
            limit := LimitNow s } true ∧ Rewatched s t d ∧ SyncRestored s t d ∧ Counts s t aChoReplayCnt 1) ∧
      exec (.hold m begins) s = .next (s.setDom d { x with remoteHold := begins })) ∧
    ((role = 1 ∨ role = 3) → src.toNat / 16 = own / 16 → s.term ≤ term.toNat → (s.isManager = true → s.term < term.toNat) →
      (idle ∨ s.managerNo = src.toNat) →
      ∃ t, exec (.heartbeat src term role) s = .next t ∧ t.rfld aFabMgrState 1 0 = 0 ∧ t.managerNo = src.toNat ∧
        t.term = term.toNat ∧ t.fab = { s.fab with lastBeat := s.clock } ∧
        t.rfld aFabModId 11 10 = (if s.isManager then 2 else s.rfld aFabModId 11 10) ∧
        RegsBut s t [aFabMgrState, aFabModId] ∧ t = { s with fab := t.fab, reg.vals := t.reg.vals }) ∧
    (src.toNat / 16 = own / 16 → term.toNat < s.term → exec (.heartbeat src term role) s = .next s) ∧
    (s.isManager = false → exec .heartbeatSend s = .next s) ∧
    (∀ c, kvFind 5 s.keep.lastAt = some c → s.clock < c + 1000 → exec .heartbeatSend s = .next s) ∧
    (s.isManager = true → (∀ c, kvFind 5 s.keep.lastAt = some c → c + 1000 ≤ s.clock) →
      ∃ t, exec .heartbeatSend s = .next t ∧ t.rfld aFabMgrState 1 0 = 0 ∧ kvFind 5 t.keep.lastAt = some s.clock ∧
        (∀ n q, n / 16 = own / 16 → n < 1024 → n ≠ own → Routes s q (beat n s.term) → t.port q = portPut (s.port q) (beat n s.term)) ∧
        RegsBut s t [aFabMgrState] ∧
        t = { s with
              fab.ports := t.fab.ports, fab.stalled := t.fab.stalled, reg.vals := t.reg.vals, keep.lastAt := t.keep.lastAt }) ∧
    (s.isManager = false → s.rfld aFabMgrState 1 0 ≠ 2 → s.fab.lastBeat + 100000 ≤ s.clock →
      ∃ t, exec .managerLoss s = .next t ∧ t.rfld aFabMgrState 1 0 = 2 ∧
        ((∀ e ∈ s.con.doms, e.2.spans = false) → RegsBut s t [aFabMgrState] ∧ t = { s with reg.vals := t.reg.vals }) ∧
        (∀ d x, s.con.doms = [(d, x)] → x.spans = true → x.state = 1 ∨ x.state = 2 ∨ x.state = 3 → s.domInst d = none →
          (t.dom d).state = 5 ∧ Counts s t aChoStallCnt 1)) ∧
    (s.clock < s.fab.lastBeat + 100000 → exec .managerLoss s = .next s) ∧
    (s.clock < s.fab.lastBeat + 20000 → exec .standbyTakeover s = .next s) ∧
    (s.rfld aFabModId 11 10 = 2 → s.fab.lastBeat + 20000 ≤ s.clock → idle →
      ∃ t, exec .standbyTakeover s = .next t ∧ t.rfld aFabModId 11 10 = 1 ∧ t.rfld aFabMgrState 1 0 = 1 ∧ t.managerNo = own ∧
        t.term = (s.term + 1) % 2 ^ 32 ∧ Counts s t aFabMgrTakeoverCnt 1 ∧ kvFind 5 t.keep.lastAt = some s.clock ∧
        RegsBut s t [aFabModId, aFabMgrState, aFabMgrTakeoverCnt] ∧
        (∀ n q, n / 16 = own / 16 → n < 1024 → n ≠ own → Routes s q (beat n ((s.term + 1) % 2 ^ 32)) →
          t.port q = portPut (s.port q) (beat n ((s.term + 1) % 2 ^ 32))) ∧
        t = { s with
              fab.ports := t.fab.ports, fab.stalled := t.fab.stalled, reg.vals := t.reg.vals, keep.lastAt := t.keep.lastAt }) ∧
    (∀ (count : Half) (slot : BitVec 8),
      ((src.toNat = own ∨ src.toNat ∈ s.fab.joined) →
        ∃ t, exec (.join src count slot) s = .next t ∧ Counts s t aFabJoinRejectCnt 1 ∧ RegsBut s t [aFabJoinRejectCnt] ∧
          t = { s with reg.vals := t.reg.vals }) ∧
      (src.toNat ≠ own → src.toNat ∉ s.fab.joined →
        ∃ t, exec (.join src count slot) s = .next t ∧ (∀ n, n ∈ t.fab.joined ↔ n = src.toNat ∨ n ∈ s.fab.joined) ∧
          t = { s with fab.joined := t.fab.joined }))

/-! ### The host port and the service ports (R308 to R324) -/

/-- HOST.LINK_STATE has its link fields replaced and every other bit kept; the registers outside a list are kept. -/
def Sys2Proof.Machine.LinkIs (s t : State) (mask v : Nat) (l : List Nat) : Prop :=
  t.reg64 aHostLinkState = (s.reg64 aHostLinkState &&& ~~~(BitVec.ofNat 64 mask)) ||| BitVec.ofNat 64 v ∧
  RegsBut s t (aHostLinkState :: l)

/-- The host is gone (R318): the loss is counted while READY, and every partial entry of the host is emptied and counted. -/
def Sys2Proof.Machine.HostGone (s t : State) : Prop :=
  Counts s t aHostLinkDownCnt (if s.isReady then 1 else 0) ∧
  Counts s t aHostPartialDropCnt ((s.mem.rings.map (fun e => e.2.host.length)).sum) ∧
  (∀ r, t.ring r = { s.ring r with
    part := (s.ring r).part.filter (fun e => !(s.ring r).host.contains e.1), host := []
    waiting := (s.ring r).waiting.filter (fun w => !(s.ring r).host.contains w) })

/-- An access of a host agent has been turned away as a violation (R313, R314): error status, the agent frozen, the access
recorded, counted and entered in the journal, and nothing else changed. -/
def Sys2Proof.Machine.HostViolated (s t : State) (kind agent : Nat) (write : Bool) (a : Nat) : Prop :=
  t.resp = { status := 1, data := [] } ∧ t.frozenAt 2 agent = true ∧ Counts s t aHostViolCnt 1 ∧
  t.reg64 aHostErrInfo = BitVec.ofNat 64 (kind + agent * 16 + (if write then 32 else 0) + s.agentTag agent * 64) ∧
  t.reg64 aHostErrAddr = BitVec.ofNat 64 (a % 2 ^ 48) ∧
  Noted s t 0x21 (2 + agent * 8 + s.agentTag agent * 2 ^ 19 + 4 * 2 ^ 27 + a % 2 ^ 32 * 2 ^ 32) ∧
  RegsBut s t ([aHostViolCnt, aHostErrInfo, aHostErrAddr] ++ noteRegs) ∧
  t = { s with keep.ledger := t.keep.ledger, trust.frozen := t.trust.frozen, trust.resets := t.trust.resets, reg.vals := t.reg.vals
               resp := t.resp }

/-- A shard attempt of the only job has failed and is made again (R234). -/
def Sys2Proof.Machine.AttemptFails (s t : State) (j : Job) (shard : Nat) : Prop :=
  ∃ q, t.load.jobs = [q] ∧ q.retries = j.retries + 1 ∧ kvFind shard q.tries = some (kvGet 0 shard j.tries + 1) ∧
    shard ∉ q.fetched ∧ q.phase = j.phase ∧ Counts s t aLoadShardRetryCnt 1 ∧
    t = { s with load.jobs := t.load.jobs, ideLost := t.ideLost, reg.vals := t.reg.vals }

/-- A queue pair is in a state, and the count of connected queue pairs of its port is adjusted; SENDS_OUT is 0. -/
def Sys2Proof.Machine.QpIn (t : State) (p n st count : Nat) : Prop :=
  t.qpState p n = st ∧ t.sendsOut p n = 0 ∧ t.rfld (aSvcPortState p) 28 16 = count

/-- PERST_N_ASSERT, HOST_LINK_DOWN, PERST_N_RELEASE, HOST_LINK_TRAINED, CXL_MEM_ACCESS, HOST_READ_COMPLETION, HOST_CPL_TIMEOUT and
IDE_FAILURE (R210, R308, R313 to R318): the link goes to reset, to training, to L0, from L0 to L1, or DOWN; streams that are keyed
are secure, and those of a failed stream are lost until then; without the host, partial entries are dropped. An HDM access of a
memory agent whose tag owns the page reads or writes 64 bytes, with poison; one outside the window, of another tag, or a write
of weights freezes the agent. A failed read of host memory, or one without completion for 50 ms, fails its shard attempt.

CM_CONNECT_REQUEST, RDMA_WRITE, RDMA_READ, SEND, RESPONSE_SEND, RESPONSE_SEND_ACK, QP_ERROR, SVC_LINK_DOWN and QP_CMD_RESET (R320 to
R324, R331, R351): a connection takes its profile as committed, the lowest free queue pair and an R_Key, or is rejected; an RDMA
WRITE enters the bound request ring as whole entries; an RDMA READ returns the ring's status block; a SEND enters the message
ring; responses go out with at most 16 unacknowledged; an operation outside the address table or under another R_Key, an error
and a lost link put queue pairs in error; a tenant violation freezes one, which then answers nothing; RESET frees one.

The model's own choices it rests on: the lowest free numbers (notes/assumptions/26.md); 64-byte lines of the HDM window (notes/assumptions/92.md); how L1 and keyed streams arrive (notes/assumptions/179.md). -/
def Obligations.TheHostAndServicePorts : Prop :=
  (∀ (s : State) (width rate ide : BitVec 2) (l1 write poison : Bool) (off : Nat) (data : List Byte) (ecc : Ecc) (inst : BitVec 10)
    (shard : Nat) (c : HostCpl),
    let trains := s.domainOn 62 = true ∧ (13 ≤ s.rfld aKeepState 4 0 ∨ s.inRecovery = true)
    let flag (st : Nat) : Nat := if st = 2 ∧ s.inRecovery = true then 512 else 0
    let gone := [aHostLinkDownCnt, aHostPartialDropCnt]
    let open64 := (List.range 64).map (fun i => Config.poisonByte i)
    let p (a : Nat) := a / 65536
    (s.hostFetches = [] → kvWf {} s.mem.rings = true →
      (∃ t, exec .perstNAssert s = .next t ∧ LinkIs s t 0x3FF 0 gone ∧ HostGone s t ∧
        t = { s with keep.pins.perstN := false, mem.rings := t.mem.rings, reg.vals := t.reg.vals, ideLost := 0 }) ∧
      (s.hostUp = true → ∃ t, exec .hostLinkDown s = .next t ∧ LinkIs s t 0x3FF 1 gone ∧ HostGone s t ∧
        t = { s with mem.rings := t.mem.rings, reg.vals := t.reg.vals, ideLost := 0 }) ∧
      (s.hostUp = true → s.keep.pins.perstN = true → width = 0 ∨ rate = 0 →
        ∃ t, exec (.hostLinkTrained width rate l1 ide) s = .next t ∧ LinkIs s t 0x3FF 4 gone ∧ HostGone s t ∧
          t = { s with mem.rings := t.mem.rings, reg.vals := t.reg.vals, ideLost := 0 })) ∧
    (s.hostUp = false → exec .hostLinkDown s = .next s) ∧
    (trains → s.rfld aHostLinkState 2 0 = 0 →
      ∃ t, exec .perstNRelease s = .next t ∧ LinkIs s t 0x3FF 1 [] ∧
        t = { s with keep.pins.perstN := true, reg.vals := t.reg.vals, ideLost := 0 }) ∧
    (¬ trains ∨ s.rfld aHostLinkState 2 0 ≠ 0 → exec .perstNRelease s = .next { s with keep.pins.perstN := true }) ∧
    (s.keep.pins.perstN = true →
      (s.rfld aHostLinkState 2 0 = 1 ∨ s.hostUp = true → width ≠ 0 → rate ≠ 0 →
        let up := if l1 = true ∧ s.rfld aHostLinkState 2 0 = 2 then 3 else 2
        ∃ t, exec (.hostLinkTrained width rate l1 ide) s = .next t ∧
          LinkIs s t 0x27F (up + width.toNat * 8 + rate.toNat * 32 + ide.toNat * 128 + flag 2) [] ∧
          t = { s with reg.vals := t.reg.vals, ideLost := s.ideLost &&& ~~~ide }) ∧
      (s.rfld aHostLinkState 2 0 = 1 → width = 0 ∨ rate = 0 →
        ∃ t, exec (.hostLinkTrained width rate l1 ide) s = .next t ∧ LinkIs s t 0x3FF 4 [] ∧
          t = { s with reg.vals := t.reg.vals, ideLost := 0 })) ∧
    (s.keep.pins.perstN = false ∨ (s.rfld aHostLinkState 2 0 ≠ 1 ∧ s.hostUp = false) →
      exec (.hostLinkTrained width rate l1 ide) s = .next s) ∧
    ((s.hostUp = false ∨ s.inRecovery = true ∨ s.outputsReleased = true ∨ s.ideLost.getLsbD 1 = true) →
      exec (.cxlMemAccess write off data poison ecc) s = .next { s with resp := { status := 1, data := [] } }) ∧
    (s.hostUp = true → s.outputsReleased = false → s.inRecovery = false → s.ideLost.getLsbD 1 = false →
      (s.frozenAt 2 1 = true → exec (.cxlMemAccess write off data poison ecc) s =
        .next { s with resp := { status := 2, data := if write then [] else open64 } }) ∧
      (s.frozenAt 2 1 = false →
        (s.hdmAt (off / 64 * 64) = none →
          ∃ t, exec (.cxlMemAccess write off data poison ecc) s = .next t ∧ HostViolated s t 6 1 write off) ∧
        (∀ kind a, s.hdmAt (off / 64 * 64) = some (kind, a) →
          (s.agentTag 1 ≠ 0 → s.pageTag (p a) ≠ some (s.agentTag 1) →
            ∃ t, exec (.cxlMemAccess write off data poison ecc) s = .next t ∧ HostViolated s t 4 1 write off) ∧
          (s.agentTag 1 = 0 ∨ s.pageTag (p a) = some (s.agentTag 1) →
            (kind = 6 → ∃ t, exec (.cxlMemAccess true off data poison ecc) s = .next t ∧ HostViolated s t 5 1 true off) ∧
            (kind ≠ 6 → data.length = 64 → (∀ e ∈ s.con.doms, e.2.loupe = false) →
              (∃ t, exec (.cxlMemAccess true off data false ecc) s = .next t ∧ t.stk a 64 = data ∧
                t.resp = { status := 0, data := [] } ∧ (∀ x, (x < a ∨ a + 64 ≤ x) → t.stk x 1 = s.stk x 1) ∧
                p a ∉ t.mem.zeroFill ∧ Counts s t aMemZeroFillCnt (if p a ∈ s.mem.zeroFill then 1 else 0) ∧
                RegsBut s t [aMemZeroFillCnt] ∧
                t = { s with
                      mem.stack := t.mem.stack, mem.stackBad := t.mem.stackBad, mem.zeroFill := t.mem.zeroFill
                      reg.vals := t.reg.vals, resp := t.resp }) ∧
              (∃ t, exec (.cxlMemAccess true off data true ecc) s = .next t ∧ t.stkBad a = true ∧ t.stkBad (a + 32) = true ∧
                t.resp = { status := 0, data := [] } ∧ (∀ x, (x < a ∨ a + 64 ≤ x) → t.stk x 1 = s.stk x 1) ∧
                Counts s t aMemParInErrCnt 2)) ∧
            (ecc ≠ .uncorrectable → s.stackOffline (stackOf a) = false → s.stkBad a = false → s.stkBad (a + 32) = false →
              ∃ t, exec (.cxlMemAccess false off data poison ecc) s = .next t ∧ t.resp = { status := 0, data := s.stk a 64 } ∧
                Counts s t aMemEccCorrCnt (if ecc = .corrected then 1 else 0) ∧
                (ecc = .clean → Filled s t ∧ t = { s with mem := t.mem, reg.vals := t.reg.vals, resp := t.resp })) ∧
            (ecc = .uncorrectable ∨ s.stackOffline (stackOf a) = true ∨ s.stkBad a = true ∨ s.stkBad (a + 32) = true →
              ∃ t, exec (.cxlMemAccess false off data poison ecc) s = .next t ∧ t.resp.status = 2 ∧
                (ecc = .uncorrectable ∨ s.stackOffline (stackOf a) = true → Counts s t aMemEccUncorrCnt 1)))))) ∧
    (∀ j, Running s inst.toNat j .fetching → shard < j.env.shards.length → shard ∉ j.fetched → shard ∉ j.failed →
      shHost (j.env.shards.getD shard []) = true → kvGet 0 shard j.tries < 3 →
      exec (.hostReadCompletion inst shard .data) s = .next s ∧
      (c ≠ .data → ∃ t, exec (.hostReadCompletion inst shard c) s = .next t ∧ AttemptFails s t j shard ∧
        Counts s t aHostPoisonRxCnt (if c = .poison then 1 else 0) ∧ RegsBut s t [aHostPoisonRxCnt, aLoadShardRetryCnt] ∧
        t.ideLost = s.ideLost) ∧
      (kvGet 0 shard j.since + 50000 ≤ s.clock →
        ∃ t, exec (.hostCplTimeout inst shard) s = .next t ∧ AttemptFails s t j shard ∧ Counts s t aHostCplTmoCnt 1 ∧
          RegsBut s t [aHostCplTmoCnt, aLoadShardRetryCnt] ∧ t.ideLost = s.ideLost) ∧
      (s.clock < kvGet 0 shard j.since + 50000 → exec (.hostCplTimeout inst shard) s = .next s) ∧
      (s.hostFetches = [(inst.toNat, shard)] → ∃ t, exec (.ideFailure false) s = .next t ∧ AttemptFails s t j shard ∧
        Counts s t aHostIdeErrCnt 1 ∧ t.rbit aHostLinkState 7 = false ∧ t.ideLost = s.ideLost ||| 1)) ∧
    ((inst.toNat, shard) ∉ s.hostFetches →
      exec (.hostReadCompletion inst shard c) s = .next s ∧ exec (.hostCplTimeout inst shard) s = .next s) ∧
    (∃ t, exec (.ideFailure true) s = .next t ∧ Counts s t aHostIdeErrCnt 1 ∧ LinkIs s t 0x100 0 [aHostIdeErrCnt] ∧
      t = { s with reg.vals := t.reg.vals, ideLost := s.ideLost ||| 2 }) ∧
    (s.hostFetches = [] → ∃ t, exec (.ideFailure false) s = .next t ∧ Counts s t aHostIdeErrCnt 1 ∧
      LinkIs s t 0x80 0 [aHostIdeErrCnt] ∧ t = { s with reg.vals := t.reg.vals, ideLost := s.ideLost ||| 1 })) ∧
  (∀ (s : State) (port : BitVec 1) (prof : BitVec 8) (source : BitVec 128) (rqpn : BitVec 24) (qp : BitVec 12) (va len : Nat)
    (data : List Byte) (path : Path) (rkey : Half),
    let p := port.toNat
    let n := qp.toNat
    let conns := s.rfld (aSvcPortState p) 28 16
    let w := s.connWord p n
    let qpRegs := [aSvcQp p n, aSvcQp p n + 8, aSvcPortState p]
    let a := aSvcProfile prof.toNat
    let u := (((s.applyReg a).applyReg (a + 8)).applyReg (a + 16)).applyReg (a + 24)
    let word := u.reg64 a
    let takes := bit word.toNat 37 = true ∧ bit word.toNat (34 + p) = true ∧ u.inPrefix prof.toNat source = true ∧
      (connRespEn word = true → u.respBound (connResp word) = false)
    let naked (t : State) : Prop := QpIn t p n 2 (conns - 1) ∧ Counts s t aSvcQpErrCnt 1 ∧ Counts s t aSvcNakCnt 1 ∧
      RegsBut s t ([aSvcQpErrCnt, aSvcNakCnt] ++ qpRegs) ∧
      t = { s with reg.vals := t.reg.vals, resp := { status := 1, data := [] } }
    let frozen (t : State) : Prop := t.qpState p n = 3 ∧ t.frozenAt 3 (4096 * p + n) = true ∧ Counts s t aSvcViolCnt 1 ∧
      t.resp = s.resp ∧ t.mem = s.mem ∧
      RegsBut s t ([aSvcQp p n, aSvcPortState p, aSvcViolInfo, aSvcViolCnt] ++ noteRegs)
    let entered (t : State) (r : Nat) (bs : List Byte) : Prop :=
      (t.ring r).tail = ((s.ring r).tail + 1) % (2 * s.ringCount r) ∧ (t.ring r).head = (s.ring r).head ∧
      t.slotRead r ((s.ring r).tail % s.ringCount r) = bs ∧ (∀ q, q ≠ r → t.ring q = s.ring q) ∧ OnlyRings s t ∧
      t.resp = { status := 0, data := [] }
    (s.rfld (aSvcPortState p) 1 0 = 2 →
      (takes → (∀ i, i < n → s.qpState p i ≠ 0) → s.qpState p n = 0 →
        ∃ t, exec (.cmConnectRequest port prof source rqpn) s = .next t ∧ QpIn t p n 1 ((conns + 1) % 2 ^ 13) ∧
          t.connWord p n = word ∧ t.rfld (aSvcQp p n) 9 2 = prof.toNat ∧ t.rfld (aSvcQp p n) 57 34 = rqpn.toNat ∧
          RegsBut u t qpRegs ∧
          (∃ key, kvFind (4096 * p + n) t.srv.rkeys = some key ∧ t.resp = { status := 0, data := natLe 4 key.toNat }) ∧
          (∀ i, i ≠ 4096 * p + n → kvFind i t.srv.rkeys = kvFind i s.srv.rkeys) ∧
          t = { u with
                srv.conns := t.srv.conns, srv.rkeys := t.srv.rkeys, reg.vals := t.reg.vals, freeCtr := s.freeCtr + 1
                resp := t.resp }) ∧
      (¬ takes ∨ (∀ i, i < 4096 → s.qpState p i ≠ 0) →
        ∃ t, exec (.cmConnectRequest port prof source rqpn) s = .next t ∧ OnlyCounter u t aSvcConnRejectCnt 1 ∧
          t = { u with reg.vals := t.reg.vals, resp := { status := 1, data := [] } }) ∧
      (∀ x, u.reg64 x = if x ∈ [a, a + 8, a + 16, a + 24] then s.committedOf x else s.reg64 x)) ∧
    (s.rfld (aSvcPortState p) 1 0 ≠ 2 → exec (.cmConnectRequest port prof source rqpn) s =
      .next { s with resp := { status := 1, data := [] } }) ∧
    (s.qpState p n = 1 →
      (let r := connReq w
       let esz := s.ringEsz r
       let key := kvFind (4096 * p + n) s.srv.rkeys = some rkey
       let shape := connReqEn w = true ∧ key ∧ va = 0 ∧ data.length % esz = 0 ∧ 0 < data.length / esz ∧ data.length / esz ≤ 64
       (¬ shape → ∃ t, exec (.rdmaWrite port qp { va, rkey } data) s = .next t ∧ naked t) ∧
       (shape → s.connMay p n r = false → ∃ t, exec (.rdmaWrite port qp { va, rkey } data) s = .next t ∧ frozen t) ∧
       (shape → s.connMay p n r = true →
         (s.ringEnabled r = true → 0 < s.ringCount r → (s.ring r).head < 2 * s.ringCount r → (s.ring r).tail < 2 * s.ringCount r →
           s.ringHolds r + data.length / esz ≤ s.ringCount r →
           ∃ t, exec (.rdmaWrite port qp { va, rkey } data) s = .next t ∧
             (t.ring r).tail = ((s.ring r).tail + data.length / esz) % (2 * s.ringCount r) ∧
             (data.length = esz → t.slotRead r ((s.ring r).tail % s.ringCount r) = data) ∧
             (∀ q, q ≠ r → t.ring q = s.ring q) ∧ OnlyRings s t ∧ t.resp = { status := 0, data := [] }) ∧
         (data.length = esz → (s.ringCount r = 0 ∨ s.ringEnabled r = false ∨ (s.ringFull r = true ∧ s.ringPolicy r ≠ 0)) →
           ∃ t, exec (.rdmaWrite port qp { va, rkey } data) s = .next t ∧ OnlyCounter s t (aRingDrop r) 1 ∧
             t.resp = { status := 0, data := [] } ∧ t.mem.stack = s.mem.stack ∧ (t.ring r).tail = (s.ring r).tail)) ∧
       (connReqEn w = true → key → va = 0x1000 → 8 ≤ len → len ≤ 64 → s.connMay p n r = false →
         ∃ t, exec (.rdmaRead port qp { va, rkey } len) s = .next t ∧ frozen t) ∧
       (connReqEn w = true → key → va = 0x1000 → 8 ≤ len → len ≤ 64 → s.connMay p n r = true →
         exec (.rdmaRead port qp { va, rkey } len) s = .next { s with resp := {
           status := 0
           data := (natLe 8 (s.ringPtr r) ++ natLe 8 (s.reg64 (aRingDrop r)).toNat ++ List.replicate 48 0).take len } }) ∧
       (connReqEn w = false ∨ ¬ key ∨ va ≠ 0x1000 ∨ len < 8 ∨ 64 < len →
         ∃ t, exec (.rdmaRead port qp { va, rkey } len) s = .next t ∧ naked t)) ∧
      (let r := connMsg w
       let bs := data ++ List.replicate (s.ringEsz r - data.length) 0
       let entry := bs.take 8 ++ natLe 4 (1 + 2 * p + 4 * n) ++ bs.drop 12
       (connMsgEn w = false ∨ s.ringEsz r < data.length → ∃ t, exec (.send port qp data) s = .next t ∧ naked t) ∧
       (connMsgEn w = true → data.length ≤ s.ringEsz r →
         (s.connMay p n r = true → s.ringSpace r = true →
           ∃ t, exec (.send port qp data) s = .next t ∧ entered t r entry ∧ t.reg.staged = s.reg.staged) ∧
         (s.connMay p n r = true → s.ringSpace r = false →
           ∃ t, exec (.send port qp data) s = .next t ∧ OnlyCounter s t (aRingDrop r) 1 ∧
             t = { s with reg.vals := t.reg.vals, resp := { status := 0, data := [] } }) ∧
         (s.connMay p n r = false → ∃ t, exec (.send port qp data) s = .next t ∧ frozen t))) ∧
      (let r := connResp w
       let k := s.sendsOut p n
       (connRespEn w = true → k < 16 → k < s.ringHolds r → s.connMay p n r = true →
         ∃ t, exec (.responseSend port qp) s = .next t ∧ t.sendsOut p n = k + 1 ∧
           t.resp = { status := 0, data := s.slotRead r (((s.ring r).head + k) % s.ringCount r) } ∧
           (∀ x m, t.stk x m = s.stk x m) ∧ RegsBut s t [aSvcQp p n + 8, aMemZeroFillCnt] ∧
           t = { s with mem := t.mem, reg.vals := t.reg.vals, resp := t.resp } ∧ t.mem.rings = s.mem.rings) ∧
       (connRespEn w = true → k < 16 → k < s.ringHolds r → s.connMay p n r = false →
         ∃ t, exec (.responseSend port qp) s = .next t ∧ frozen t) ∧
       (connRespEn w = false ∨ 16 ≤ k ∨ s.ringHolds r ≤ k → exec (.responseSend port qp) s = .next s) ∧
       (0 < k → s.ringHolds r ≠ 0 →
         ∃ t, exec (.responseSendAck port qp) s = .next t ∧ t.sendsOut p n = k - 1 ∧ RegsBut s t [aSvcQp p n + 8] ∧
           t.ring r = { s.ring r with head := ((s.ring r).head + 1) % (2 * s.ringCount r) } ∧ (∀ q, q ≠ r → t.ring q = s.ring q) ∧
           t = { s with mem.rings := t.mem.rings, reg.vals := t.reg.vals })) ∧
      (∃ t, exec (.qpError port qp) s = .next t ∧ QpIn t p n 2 (conns - 1) ∧ Counts s t aSvcQpErrCnt 1 ∧
        RegsBut s t (aSvcQpErrCnt :: qpRegs) ∧ t = { s with reg.vals := t.reg.vals })) ∧
    (s.qpState p n ≠ 1 → exec (.qpError port qp) s = .next s ∧ exec (.rdmaWrite port qp { va, rkey } data) s = .next s) ∧
    (s.rfld (aSvcPortState p) 1 0 = 2 →
      ∃ t, exec (.svcLinkDown port) s = .next t ∧ t.rfld (aSvcPortState p) 1 0 = 3 ∧ Counts s t aSvcLinkDownCnt 1 ∧
        (kvFind (4096 * p + n) s.srv.conns ≠ none → s.qpState p n = 1 → t.qpState p n = 2) ∧
        (s.qpState p n ≠ 1 → t.qpState p n = s.qpState p n) ∧ (∀ q, q < 2 → q ≠ p → t.qpState q n = s.qpState q n) ∧
        t = { s with reg.vals := t.reg.vals }) ∧
    (Reaches s path aSvcQpCmd true →
      (s.qpState p n = 2 → ∃ t, exec (.qpCmdReset path port qp) s = .next t ∧ QpIn t p n 0 conns ∧
        kvFind (4096 * p + n) t.srv.conns = none ∧ kvFind (4096 * p + n) t.srv.rkeys = none ∧
        RegsBut s t [aSvcQp p n, aSvcQp p n + 8] ∧
        t = { s with
              srv.conns := t.srv.conns, srv.rkeys := t.srv.rkeys, reg.vals := t.reg.vals, resp := { status := 0, data := [] } }) ∧
      (s.qpState p n ≠ 2 → ∃ t, exec (.qpCmdReset path port qp) s = .next t ∧ Refused s t path 2 true aSvcQpCmd)))

/-! ### The sideband, images and trust (R325 to R358) -/

/-- The state with a message of the sideband answered: the status and data, the command byte of a vendor command, and the response
in transmission units that wait for the bus (R326, R327). -/
def Sys2Proof.Machine.Responds (s : State) (code : Byte) (status : Nat) (data : List Byte) : State :=
  { s with
    resp := { status := status, data := data, cmd := code }
    keep.sideband.packets := mctpUnits (data.length + 1) (BitVec.ofNat 8 status :: data) }

/-- The state with an SPDM request answered, its connection at a stage (R326). -/
def Sys2Proof.Machine.SpdmSays (s : State) (stage : Nat) (data : List Byte) : State :=
  { s with
    keep.sideband.spdm := stage, keep.sideband.packets := mctpUnits data.length data, resp := { status := 0, data := data } }

/-- ENTDAA, SETDASA, SET_ENDPOINT_ID, STATE, RECOVERY_HOST, GET_VERSION, GET_CAPABILITIES, NEGOTIATE_ALGORITHMS, GET_DIGESTS, GET_CERTIFICATE,
CHALLENGE and GET_MEASUREMENTS (R325 to R327, R344): without KEEP_12V no message is answered; with it each answers as its rule
says, in transmission units of at most 64 bytes that the target signals, a vendor command with its command byte, and
RECOVERY_HOST is accepted only in the recovery state, where PD_F(6,0) ramps before PD_HOST.

The model's own choices it rests on: the sideband answers while the keeper is held in reset (notes/assumptions/125.md); the contents of the SPDM answers (notes/assumptions/131.md); a response waits in its units (notes/assumptions/180.md); 1,079 bytes a certificate message (notes/assumptions/181.md). -/
def Obligations.TheSidebandAnswersWithKeeperPower : Prop :=
  ∀ (s : State) (address : BitVec 7) (eid : Byte) (nonce : BitVec 256) (index : BitVec 8) (off len : BitVec 16) (addr n : Nat)
    (v : Word) (bytes : List Byte) (x : Verify),
    let sign (m : List Byte) := digestBytes (Config.signedEd (Config.kmac256 s.trust.fuses.uds "IVP DEVID ED" []) m)
    let signed (m : List Byte) := m ++ sign m
    let flags := [BitVec.ofNat 8 (s.rfld aKeepState 7 7)]
    let now := s.keep.sideband.spdm
    ((mctpUnits bytes.length bytes).flatten = bytes ∧ (∀ u ∈ mctpUnits bytes.length bytes, 0 < u.length ∧ u.length ≤ 64) ∧
      ∀ u ∈ (mctpUnits bytes.length bytes).dropLast, u.length = 64) ∧
    (s.keep.pins.keep12v = false →
      ∀ c ∈ [Instr.entdaa address, .setdasa, .setEndpointId eid, .state, .recoveryHost, .getVersion, .getDigests,
        .getCertificate off len, .challenge nonce, .getMeasurements index, .regRead addr, .regWrite addr v, .imageBegin n,
        .imageData n bytes, .imageEnd x], exec c s = .next s) ∧
    (s.keep.pins.keep12v = true →
      exec (.entdaa address) s = .next { s with keep.sideband.address := some address } ∧
      exec .setdasa s = .next { s with keep.sideband.address := some (BitVec.ofNat 7 (0x40 + s.rfld aKeepStraps 4 1)) } ∧
      exec (.setEndpointId eid) s = .next (Responds { s with keep.sideband.eid := eid } 0 0 []) ∧
      exec .state s = .next (Responds s 3 0 [BitVec.ofNat 8 (s.rfld aKeepState 7 0), BitVec.ofNat 8 (s.rfld aKeepState 5 5),
        BitVec.ofNat 8 (s.rfld aKeepState 11 8)]) ∧
      (s.inRecovery = false → exec .recoveryHost s = .next (Responds s 0x20 1 [])) ∧
      (s.inRecovery = true → s.domainOn 0 = true → s.domainOn 7 = false → s.domainOn 62 = false →
        s.keep.thermal.ramping = [] → s.keep.thermal.rampQueue = [] →
        ∃ t, exec .recoveryHost s = .next t ∧ t.keep.thermal.ramping = [7] ∧ t.keep.thermal.rampQueue = [62] ∧
          t.rbit (aPwrDomain 7) 23 = true ∧ RegsBut s t [aPwrDomain 7] ∧ t.resp = { status := 0, data := [], cmd := 0x20 } ∧
          t.keep.sideband.packets = [[0]] ∧ t.inBandInterrupt = true ∧
          t = { s with
                keep.thermal.ramping := t.keep.thermal.ramping, keep.thermal.rampQueue := t.keep.thermal.rampQueue
                keep.sideband.packets := t.keep.sideband.packets, reg.vals := t.reg.vals, resp := t.resp }) ∧
      exec .getVersion s = .next (SpdmSays s 1 [0x13]) ∧
      (∃ bs, exec .getCapabilities s = .next { SpdmSays s 2 bs with freeCtr := s.freeCtr + 1 }) ∧
      (∃ bs, exec .negotiateAlgorithms s = .next { SpdmSays s 3 bs with freeCtr := s.freeCtr + 1 }) ∧
      exec .getDigests s = .next (SpdmSays s now (digestBytes (Config.digest Config.edChain))) ∧
      exec (.getCertificate off len) s =
        .next (SpdmSays s now ((Config.edChain.drop off.toNat).take (min len.toNat 1079))) ∧
      exec (.challenge nonce) s = .next (SpdmSays s now (sign (natLe 32 nonce.toNat))) ∧
      exec (.getMeasurements 1) s = .next (SpdmSays s now (signed (digestBytes Config.keeperDigest))) ∧
      exec (.getMeasurements 2) s =
        .next (SpdmSays s now (signed (digestBytes (Config.digest (s.reportHead ++ s.reportSvn ++ s.ownerBytes))))) ∧
      exec (.getMeasurements 3) s = .next (SpdmSays s now (signed s.imageDigest)) ∧
      exec (.getMeasurements 4) s = .next (SpdmSays s now (signed (digestBytes s.trust.fwDigest))) ∧
      exec (.getMeasurements 5) s = .next (SpdmSays s now (signed (digestBytes (Config.digest flags)))) ∧
      (index = 0 ∨ 5 < index.toNat → exec (.getMeasurements index) s = .next { s with resp := { status := 1, data := [] } }))

/-- An image session has been opened for a length: the image region reads erased up to it, and only the session differs. -/
def Sys2Proof.Machine.SessionOpened (s t : State) (sideband : Bool) (len : Nat) : Prop :=
  t.reg64 aNvmStatus = BitVec.ofNat 64 (if sideband then 5 else 1) ∧ t.trust.length = len ∧ t.trust.written = [] ∧
  (∀ x, x < len → memGet 0xFF x t.trust.flash = 0xFF) ∧
  (∀ x, 0x10000000 ≤ x → memGet 0xFF x t.trust.flash = memGet 0xFF x s.trust.flash) ∧ RegsBut s t [aNvmStatus] ∧
  t = { s with
        trust.flash := t.trust.flash, trust.length := t.trust.length, trust.written := t.trust.written
        reg.vals := t.reg.vals, resp := t.resp, keep.sideband.packets := t.keep.sideband.packets }

/-- Bytes of an open session have been programmed at an offset. -/
def Sys2Proof.Machine.SessionWritten (s t : State) (a : Nat) (data : List Byte) : Prop :=
  memRead 0xFF a data.length t.trust.flash = data ∧
  (∀ x, (x < a ∨ a + data.length ≤ x) → memGet 0xFF x t.trust.flash = memGet 0xFF x s.trust.flash) ∧
  t.trust.written = s.trust.written ++ [(a, data.length)] ∧
  t.rfld aNvmStatus 63 32 = (s.rfld aNvmStatus 63 32 + data.length) % 2 ^ 32 ∧ RegsBut s t [aNvmStatus] ∧
  t = { s with
        trust.flash := t.trust.flash, trust.written := t.trust.written, reg.vals := t.reg.vals
        freeCtr := t.freeCtr, resp := t.resp, keep.sideband.packets := t.keep.sideband.packets }

/-- A path answers success without data; the sideband's messages wait as before. -/
def Sys2Proof.Machine.Accepted (s t : State) : Prop :=
  t.resp = { status := 0, data := [] } ∧ t.keep.sideband.packets = s.keep.sideband.packets

/-- A vendor command answers (R327): its response carries its command byte and waits in transmission units. -/
def Sys2Proof.Machine.Vendor (t : State) (code : Byte) (data : List Byte) : Prop :=
  t.resp = { status := 0, data := data, cmd := code } ∧ t.keep.sideband.packets = [0 :: data]

/-- An image session has ended with a cause, 0 for a sound image: the result is shown, an image that passes while provisioning is
armed and no owner is fused binds its owner, and provisioning is armed no longer. KEEP and SEC report the ID, the SVN and the digest
of an image that has passed the signatures. -/
def Sys2Proof.Machine.SessionEnded (s t : State) (cause : Nat) : Prop :=
  let binds := cause = 0 ∧ s.trust.fuses.owned = false ∧ s.rbit aSecProvision 1 = true
  t.inSession = false ∧ t.rbit aSecProvision 1 = false ∧ t.rfld aNvmStatus 11 8 = cause ∧
  (cause ≠ 0 → t.rfld aNvmStatus 7 4 = 3) ∧ (binds → t.rfld aNvmStatus 7 4 = 2) ∧
  (cause = 0 → ¬ binds → t.rfld aNvmStatus 7 4 = 1) ∧
  (binds → t.trust.fuses = { s.trust.fuses with
    ownerEd := Config.digest s.imgKeyEd, ownerMl := Config.digest s.imgKeyMl, owned := true }) ∧
  (¬ binds → t.trust.fuses = s.trust.fuses) ∧
  (cause ≠ 1 → cause ≠ 2 → t.trust.fwDigest = Config.digest s.imgFirmware) ∧
  (cause = 0 ∨ 5 < cause → t.rfld aKeepState 63 32 = s.imgNat 0x1C 4 ∧ t.rfld aSecSvn 15 0 = s.imgNat 0x18 2 ∧
    t.imageDigest = digestBytes (Config.digest s.imgSigned)) ∧
  (1 ≤ cause ∧ cause ≤ 5 → t.reg64 aKeepState = s.reg64 aKeepState ∧ t.reg64 aSecSvn = s.reg64 aSecSvn ∧
    t.imageDigest = s.imageDigest) ∧
  t.rfld aKeepState 31 0 = s.rfld aKeepState 31 0 ∧ t.rfld aSecSvn 63 16 = s.rfld aSecSvn 63 16 ∧
  t.trust.flash = s.trust.flash ∧ t.trust.length = 0 ∧ t.trust.written = [] ∧
  RegsBut s t ([aNvmStatus, aSecProvision, aKeepState, aSecSvn] ++ (List.range 8).map aSecImageDig) ∧
  t = { s with
        trust := t.trust, reg.vals := t.reg.vals, resp := t.resp, keep.sideband.packets := t.keep.sideband.packets }

/-- NVM_BEGIN, NVM_WINDOW_WRITE, NVM_END, NVM_ABORT, IMAGE_BEGIN, IMAGE_DATA, IMAGE_END, ARM, GO and ENTER_RECOVERY (R338, R342, R344,
R332, R347, R348, R358): a session opens in the recovery state only and erases the image region, takes data within its length, and
ends with the cause of the first verification step that fails, an absent device first; a report is formed and signed; ENTER_RECOVERY starts an
orderly stop with cause 6. What is not accepted is refused.

The model's own choices it rests on: END closes the session (notes/assumptions/129.md); cryptographic outcomes are operands (notes/assumptions/130.md). -/
def Obligations.ImageSessionsProgramVerifyAndBind : Prop :=
  ∀ (s : State) (path : Path) (len : BitVec 32) (off : Nat) (data : List Byte) (v : Verify),
    let present := v.flash.answers = true ∧ 512 ≤ v.flash.mib ∧ v.flash.read8d = true ∧ v.flash.program8d = true ∧
      v.flash.erase8d = true
    let may := s.inRecovery = true ∧ s.inSession = false ∧ len.toNat ≤ 0x10000000
    let fits (a : Nat) := s.inSession = true ∧ a + data.length ≤ s.trust.length
    let fresh (a : Nat) := ∀ i, i < data.length → s.writtenAt (a + i) = false
    let w := 0x7001000 + off
    let at' := (s.reg64 aNvmWoff).toNat + off
    let shaped := data.length ∈ [8, 16, 32, 64, 128, 256] ∧ off % data.length = 0 ∧ off + data.length ≤ 0x1000
    let keys := Config.digest s.imgKeyEd = s.trust.fuses.ownerEd ∧ Config.digest s.imgKeyMl = s.trust.fuses.ownerMl
    let cause := if flashPresent v.flash = false then 1 else if s.headerOk = false then 2
      else if s.trust.fuses.owned = true ∧ ¬ keys then 3 else if v.edOk = false then 4 else if v.mlOk = false then 5
      else if s.imgNat 0x18 2 < s.trust.fuses.svnMin then 6 else if s.contentOk = false then 7 else if v.fwOk = false then 8 else 0
    (flashPresent v.flash = true ↔ present) ∧
    (Reaches s path aNvmCtrl true →
      (may → ∃ t, exec (.nvmBegin path len) s = .next t ∧ SessionOpened s t (path == .sideband) len.toNat ∧ Accepted s t) ∧
      (¬ may → ∃ t, exec (.nvmBegin path len) s = .next t ∧ Refused s t path 2 true aNvmCtrl) ∧
      (s.inSession = true →
        (∃ t, exec (.nvmEnd path v) s = .next t ∧ SessionEnded s t cause ∧ Accepted s t) ∧
        (∃ t, exec (.nvmAbort path) s = .next t ∧ t.inSession = false ∧ t.rbit aSecProvision 1 = false ∧
          RegsBut s t [aNvmStatus, aSecProvision] ∧ t = { s with
            trust.length := 0, trust.written := [], reg.vals := t.reg.vals, resp := { status := 0, data := [] } })) ∧
      (s.inSession = false →
        (∃ t, exec (.nvmEnd path v) s = .next t ∧ Refused s t path 2 true aNvmCtrl) ∧
        (∃ t, exec (.nvmAbort path) s = .next t ∧ Refused s t path 2 true aNvmCtrl))) ∧
    (Reaches s path w true →
      (shaped → fits at' → fresh at' →
        ∃ t, exec (.nvmWindowWrite path off data) s = .next t ∧ SessionWritten s t at' data ∧ Accepted s t) ∧
      (¬ shaped → ∃ t, exec (.nvmWindowWrite path off data) s = .next t ∧ Refused s t path 1 true w) ∧
      (shaped → ¬ fits at' → ∃ t, exec (.nvmWindowWrite path off data) s = .next t ∧ Refused s t path 2 true w)) ∧
    (s.keep.pins.keep12v = true →
      (may → ∃ t, exec (.imageBegin len.toNat) s = .next t ∧ SessionOpened s t true len.toNat ∧ Vendor t 0x10 []) ∧
      (¬ may → exec (.imageBegin len.toNat) s = .next (Responds s 0x10 1 [])) ∧
      (s.inRecovery = true → data.length ≤ 1024 → fits off → fresh off →
        ∃ t, exec (.imageData off data) s = .next t ∧ SessionWritten s t off data ∧ Vendor t 0x11 []) ∧
      (s.inRecovery = false ∨ 1024 < data.length ∨ ¬ fits off →
        exec (.imageData off data) s = .next (Responds s 0x11 1 [])) ∧
      (s.inRecovery = true → s.inSession = true →
        ∃ t, exec (.imageEnd v) s = .next t ∧ SessionEnded s t cause ∧
          Vendor t 0x12 [BitVec.ofNat 8 (t.rfld aNvmStatus 7 4), BitVec.ofNat 8 cause]) ∧
      (s.inRecovery = false ∨ s.inSession = false → exec (.imageEnd v) s = .next (Responds s 0x12 1 [])) ∧
      (s.inRecovery = true → ∃ t, exec .arm s = .next t ∧ t.rbit aSecProvision 1 = true ∧ RegsBut s t [aSecProvision] ∧
        t = { s with reg.vals := t.reg.vals, resp := { status := 0, data := [] } }) ∧
      (s.inRecovery = false → exec .arm s = .next { s with resp := { status := 1, data := [] } })) ∧
    (Reaches s path aSecAttestCtrl true →
      let d := digestBytes (Config.digest s.reportBody)
      let seed (name : String) := Config.kmac256 s.trust.fuses.uds name []
      ∃ t, exec (.go path) s = .next t ∧ s.reportBody.length = 0x120 ∧
        t.trust.report = s.reportBody ++ digestBytes (Config.signedEd (seed "IVP DEVID ED") d) ++
          (List.range 3309).map (Config.signedMl (seed "IVP DEVID ML") d) ∧
        t.rbit aSecAttestCtrl 1 = true ∧ RegsBut s t [aSecAttestCtrl] ∧
        t = { s with trust.report := t.trust.report, reg.vals := t.reg.vals, resp := { status := 0, data := [] } }) ∧
    (Reaches s path aKeepCmd true →
      (s.inRecovery = true → ∃ t, exec (.enterRecovery path) s = .next t ∧ Refused s t path 2 true aKeepCmd) ∧
      (s.inRecovery = false → s.keep.stop = none → s.keep.calOrder = 0 →
        ∃ t, exec (.enterRecovery path) s = .next t ∧
          t.keep.stop = some { cause := 6, deadline := 1000, since := s.clock, stage := 1, recovery := some 12, toReset := false } ∧
          t.reg64 aPwrStopInfo = BitVec.ofNat 64 (6 + s.calendar % 2 ^ 32 * 2 ^ 32) ∧ t.rbit aThmStatus 6 = true ∧
          Counts s t aPwrStopCnt 1 ∧ RegsBut s t [aPwrStopInfo, aThmStatus, aPwrStopCnt] ∧
          t = { s with keep.stop := t.keep.stop, reg.vals := t.reg.vals, resp := { status := 0, data := [] } }))

/-- Every register of a list holds its committed value, and none waits. -/
def Sys2Proof.Machine.Applied (s t : State) (l : List Nat) : Prop :=
  ∀ b ∈ l, t.reg64 b = s.committedOf b ∧ kvFind b t.reg.committed = none

/-- COMMIT, DISCARD and STAGED_APPLY (R108, R139, R171, R307, R349 to R352, R411): a COMMIT of the next generation whose changed
registers all pass makes every staged value a committed one; a wrong GEN or a failing register refuses it whole, and
CFG.STATUS names the block and the reason; DISCARD goes back to the last COMMIT; at its safe point an object takes its
committed values together, and not before: NUM.LTHR waits for a step commit, a fabric timeout for a timer, STALL_LIMIT for the
barriers, SRV.IFACE for an empty instance, a directory entry for a release; pages whose tag changes are marked for zero-fill.

TENANT_RESET and UNFREEZE (R353 to R355, R359): a reset of a tag is counted, discards what the tag's frozen tiles hold and stops
its running domains at their next barrier; once no domain of the tag waits to stop, the masters of the tag may be unfrozen;
UNFREEZE releases such a master and is refused and counted for every other.

The model's own choices it rests on: which failing register a COMMIT names (notes/assumptions/133.md); when a tenant reset is complete (notes/assumptions/137.md). -/
def Obligations.CommitsAndTenantResets : Prop :=
  (∀ (s : State) (path : Path) (gen : BitVec 16) (addr : Nat),
    let next := (s.rfld aCfgStatus 15 0 + 1) % 65536
    let hostRegs := [aHostAccErrCnt, aHostErrInfo, aHostErrAddr]
    let rejected (t : State) (block reason : Nat) : Prop :=
      t.resp = { status := 1, data := [] } ∧ t.rfld aCfgStatus 28 24 = block % 32 ∧ t.rfld aCfgStatus 31 29 = reason ∧
      Counts s t aCfgCommitRejectCnt 1 ∧ RegsBut s t ([aCfgStatus, aCfgCommitRejectCnt, aMemRegionRejectCnt] ++ hostRegs) ∧
      t = { s with reg.vals := t.reg.vals, resp := t.resp }
    (Reaches s path aCfgCommit true →
      (gen.toNat = next → s.commitFails = none → kvRising s.reg.staged = true →
        ∃ t, exec (.commit path gen) s = .next t ∧ t.reg.staged = [] ∧ t.rfld aCfgStatus 15 0 = gen.toNat ∧
          (∀ a, a ∉ [aCfgStatus, aCfgCommitCnt] → t.stagedOf a = s.stagedOf a ∧ t.reg64 a = s.reg64 a) ∧
          Counts s t aCfgCommitCnt 1 ∧
          t = { s with
                reg.staged := [], reg.committed := t.reg.committed, reg.vals := t.reg.vals
                resp := { status := 0, data := [] } }) ∧
      (gen.toNat ≠ next → ∃ t, exec (.commit path gen) s = .next t ∧ rejected t 8 1) ∧
      (∀ a reason, gen.toNat = next → s.commitFails = some (a, reason) →
        regCheck s.stagedOf a (some (s.reg64 a)) = reason ∧ reason ≠ 0 ∧
        ∃ t, exec (.commit path gen) s = .next t ∧ rejected t (blockIndex a) reason) ∧
      exec (.discard path) s = .next { s with reg.staged := [], resp := { status := 0, data := [] } }) ∧
    (ringAt addr = none → (∀ e ∈ s.reg.committed, objectOf e.1 ≠ objectOf addr) → exec (.stagedApply addr) s = .next s) ∧
    (let busy := aSrvIface 0 ≤ addr ∧ addr < aSrvIface 1024 ∧ (s.inst ((addr - aSrvIface 0) / 0x20)).state ≠ 0
     let runs := aFabRdir 0 ≤ addr ∧ addr < aFabRdir 1024 ∧ (addr - aFabRdir 0) / 0x10 ∈ s.fab.entryRuns
     let elsewhere := isLthr addr = true ∨ addr = aFabRcompTmo ∨ addr = aFabWinCloseTmo
     let takes (t : State) : Prop :=
      (∀ b, objectOf b = objectOf addr → t.reg64 b = s.committedOf b ∧ kvFind b t.reg.committed = none) ∧
      (∀ b, objectOf b ≠ objectOf addr → t.reg64 b = s.reg64 b ∧ kvFind b t.reg.committed = kvFind b s.reg.committed) ∧
      t = { s with reg.vals := t.reg.vals, reg.committed := t.reg.committed }
     ringAt addr = none → (∃ e ∈ s.reg.committed, objectOf e.1 = objectOf addr) →
      (busy ∨ runs ∨ elsewhere → exec (.stagedApply addr) s = .next s) ∧
      (addr = aChoStallLimit →
        ((∀ e ∈ s.con.doms, e.2.limit = LimitNow s) → ∃ t, exec (.stagedApply addr) s = .next t ∧ takes t) ∧
        ((∃ e ∈ s.con.doms, e.2.limit ≠ LimitNow s) → exec (.stagedApply addr) s = .next s)) ∧
      (addr = aRepCtrl →
        let ends := s.rbit aRepCtrl 0 = true ∧ (s.committedOf aRepCtrl).getLsbD 0 = false
        (¬ ends → ∃ t, exec (.stagedApply addr) s = .next t ∧ takes t) ∧
        (ends → ∃ t, exec (.stagedApply addr) s = .next t ∧ t.reg64 aRepCtrl = s.committedOf aRepCtrl ∧
          (∃ e, t.keep.ledger.journal = s.keep.ledger.journal ++ [e] ∧ e.kind = 0x20 ∧ fld e.payload 7 0 = 12) ∧
          RegsBut s t (aRepCtrl :: noteRegs) ∧ t.wafer = s.wafer ∧ t.con = s.con)) ∧
      (objectOf addr = aMemRegion 0 →
        ∃ t, exec (.stagedApply addr) s = .next t ∧
          (∀ r, r < 64 → t.reg64 (aMemRegion r) = s.committedOf (aMemRegion r) ∧ kvFind (aMemRegion r) t.reg.committed = none) ∧
          (∀ p, t.pageTag p ≠ s.pageTag p → t.pageTag p ≠ none → p ∈ t.mem.zeroFill) ∧ (∀ p ∈ s.mem.zeroFill, p ∈ t.mem.zeroFill) ∧
          t.wafer = s.wafer ∧ t.con = s.con ∧ t.load = s.load ∧ t.srv = s.srv ∧ t.mem.stack = s.mem.stack) ∧
      (¬ busy → ¬ runs → ¬ elsewhere → addr ≠ aChoStallLimit → addr ≠ aRepCtrl → objectOf addr ≠ aMemRegion 0 →
        (objectOf addr ≠ aPwrCap → ∃ t, exec (.stagedApply addr) s = .next t ∧ takes t) ∧
        (objectOf addr = aPwrCap →
          ∃ t, exec (.stagedApply addr) s = .next t ∧
            Applied s t [aThmJctLimits, aThmCoolLimits, aThmAuxLimits, aThmBrdLimits, aThmChanEn, aThmPumpAuto, aThmFlowCfg,
              aHkcCfg, aHkcBrdEta] ∧
            (fld (s.committedOf aHkcCfg) 9 1 ≠ s.rfld aHkcCfg 9 1 → t.rbit aHkcData 43 = false) ∧
            (fld (s.committedOf aHkcCfg) 9 1 = s.rfld aHkcCfg 9 1 → t.reg64 aHkcData = s.committedOf aHkcData) ∧
            t = { s with reg.vals := t.reg.vals, reg.committed := t.reg.committed })))) ∧
  (∀ (s : State) (path : Path) (tag : BitVec 8) (cls : BitVec 3) (id : BitVec 16),
    let quiet := tag ≠ 0 ∧ (∀ e ∈ s.srv.seqs, e.2.tenant ≠ tag) ∧ s.liveWindows = [] ∧ s.trust.resets = []
    let this (f : Frozen) := f.cls = cls ∧ f.id = id
    Reaches s path aCfgFrzCmd true →
    (quiet → (∀ e ∈ s.con.doms, e.2.state ≠ 2 ∧ e.2.state ≠ 3) →
      ((∀ f ∈ s.trust.frozen, f.tag = tag → 2 ≤ f.cls.toNat) →
        ∃ t, exec (.tenantReset path tag) s = .next t ∧ Counts s t aCfgTenantResetCnt 1 ∧ RegsBut s t [aCfgTenantResetCnt] ∧
          t.trust.frozen = s.trust.frozen.map (fun f => if f.tag = tag then { f with reset := true } else f) ∧
          t = { s with trust.frozen := t.trust.frozen, reg.vals := t.reg.vals, resp := { status := 0, data := [] } }) ∧
      (∀ f, s.trust.frozen = [f] → f.tag = tag → f.cls = 0 ∨ f.cls = 1 → f.id.toNat < positions →
        ∃ t, exec (.tenantReset path tag) s = .next t ∧
          t.tile f.id.toNat = { s.tile f.id.toNat with
            outbox := [], reads := [], seq := { (s.tile f.id.toNat).seq with remoteOut := 0 } } ∧
          (∀ k, k ≠ f.id.toNat → t.tile k = s.tile k) ∧
          t.fab.ctab = s.fab.ctab.filter (fun e => e.2.tile != f.id.toNat) ∧ t.trust.frozen = [{ f with reset := true }] ∧
          Counts s t aCfgTenantResetCnt 1)) ∧
    (∀ d x, quiet → s.con.doms = [(d, x)] → x.state = 2 → x.waiting = false → (∃ k ∈ x.members, (s.tile k).tenant = tag) →
      s.trust.frozen = [] →
      ∃ t, exec (.tenantReset path tag) s = .next t ∧ t.dom d = { x with stopReq := true } ∧ t.trust.resets = [tag] ∧
        Counts s t aCfgTenantResetCnt 1 ∧ RegsBut s t [aCfgTenantResetCnt]) ∧
    (∀ f, s.trust.resets = [] → f ∈ s.trust.frozen → this f → f.reset = true → (∀ g ∈ s.trust.frozen, this g → g = f) →
      cls ≠ 4 →
      ∃ t, exec (.unfreeze path cls id) s = .next t ∧
        (∀ g, g ∈ t.trust.frozen ↔ g ∈ s.trust.frozen ∧ ¬ this g) ∧ Counts s t aCfgUnfreezeCnt 1 ∧
        t.resp = { status := 0, data := [] } ∧
        (cls ≠ 3 → RegsBut s t [aCfgUnfreezeCnt] ∧
          t = { s with trust.frozen := t.trust.frozen, reg.vals := t.reg.vals, resp := t.resp }) ∧
        (cls = 3 → id.toNat < 8192 → t.qpState (id.toNat / 4096) (id.toNat % 4096) = 0 ∧
          kvFind id.toNat t.srv.conns = none)) ∧
    (s.trust.resets = [] → (∀ f ∈ s.trust.frozen, this f → f.reset = false) →
      ∃ t, exec (.unfreeze path cls id) s = .next t ∧ t.resp = { status := 1, data := [] } ∧ Counts s t aCfgUnfreezeRejectCnt 1 ∧
        RegsBut s t [aCfgUnfreezeRejectCnt, aHostAccErrCnt, aHostErrInfo, aHostErrAddr] ∧
        t = { s with reg.vals := t.reg.vals, resp := t.resp }))

/-! ### Registers and the ledger (R9 to R13, R105, R142, R311 to R313, R372 to R383, R405, R411, R415 to R418, R452) -/

/-- A register that only takes and shows values: an assigned, aligned address outside every window, without a command of its own. -/
def Sys2Proof.Machine.PlainReg (a : Nat) (row : RegRow) : Prop :=
  rowOf a = some row ∧ a < 0x10000000000 ∧ a % 8 = 0 ∧ row.w1c = 0 ∧ windowOf a = none ∧ consumeOf a = none ∧
  inWriteWindow a = false ∧ inReadWindow a = false ∧ winRegOf a = none ∧
  a ∉ [aKeepCmd, aSecProvision, aSecAttestCtrl, aPwrCap, aThmLoopCmd, aHkcData, aCalCmd, aLedgCalSet, aLedgFlogAck, aNvmCtrl,
    aCfgCommit, aCfgFrzCmd, aSvcQpCmd, aFabWinCmd, aDbgTraceCtrl, aRepCtrl, aHostAgent] ∧
  ¬ (aChoDomCtrl 0 ≤ a ∧ a ≤ aChoDomCtrl 1023) ∧ ¬ (aPwrDomain 1 ≤ a ∧ a ≤ aPwrDomain 49)

/-- REGISTER_WRITE, REG_WRITE, REG_READ, IO_AGENT_READ and HKC_DATA_READ (R11, R311 to R313, R327, R350, R411): a write of 8 bytes sets the RW
fields, and the LK fields until CFG.STATUS.LOCKED, at once and stages the ST fields; from then on a change of an LK field refuses it
whole and is counted; a read returns the staged value of ST fields; another size is refused on a powered block and on one without power, an unassigned address and a block without power read zero and take
nothing; the host's write of SEC.PROVISION is refused; a read of HKC.DATA clears NEW and OVERRUN.

NUM_LFLAG_CLEAR, SCRATCH_APERTURE_ACCESS, TRACE_CLEAR, PWR_CAP_WRITE and FLOG_ACK_WRITE (R105, R115, R137, R142,
R313, R383, R405, R452): flags written 1 clear and their growth restarts; the aperture reads and writes the scratch segment
that APER_BASE names, within its tag; CLEAR empties the trace; PWR.CAP takes values in range; READ moves within the last 1,024 entries. What a rule turns away is refused.

The model's own choices it rests on: the register map by address (notes/assumptions/12.md); the size rule of unassigned addresses (notes/assumptions/142.md); apertures outside the segments (notes/assumptions/143.md). -/
def Obligations.RegistersTakeTheirFields : Prop :=
  (∀ (s : State) (path : Path) (a : Nat) (row : RegRow) (v : Word) (len : Nat),
    let old := s.reg64 a
    let live := BitVec.ofNat 64 (row.rw ||| row.lk)
    let locked := s.rbit aCfgStatus 17 = true ∧ (v ^^^ old) &&& BitVec.ofNat 64 row.lk ≠ 0
    let hostRegs := [aHostAccErrCnt, aHostErrInfo, aHostErrAddr]
    let set (b t : State) : Prop :=
      t.reg64 a = (old &&& ~~~live) ||| (v &&& live) ∧
      t.stagedOf a = (t.reg64 a &&& ~~~(BitVec.ofNat 64 row.st)) ||| (v &&& BitVec.ofNat 64 row.st) ∧ RegsBut s t [a] ∧
      (∀ b, b ≠ a → kvFind b t.reg.staged = kvFind b s.reg.staged) ∧
      t = { b with reg.vals := t.reg.vals, reg.staged := t.reg.staged }
    let refused (b t : State) : Prop :=
      Counts s t aCfgLkRejectCnt 1 ∧ RegsBut s t (aCfgLkRejectCnt :: hostRegs) ∧ t = { b with reg.vals := t.reg.vals }
    let said (status : Nat) (data : List Byte) : State := { s with resp := { status := status, data := data } }
    let zeros := List.replicate 8 (0 : Byte)
    let free (path : Path) := path = .host → s.frozenAt 2 0 = false
    let bytes (w : Word) := natLe 8 w.toNat
    (PlainReg a row →
      (Reaches s path a true →
        (¬ locked → (∃ t, exec (.registerWrite path a (bytes v)) s = .next t ∧ set (said 0 []) t) ∧
          (path = .sideband → ∃ t, exec (.regWrite a v) s = .next t ∧ set (Responds s 2 0 []) t)) ∧
        (locked → (∃ t, exec (.registerWrite path a (bytes v)) s = .next t ∧ refused (said 1 []) t) ∧
          (path = .sideband → ∃ t, exec (.regWrite a v) s = .next t ∧ refused (Responds s 2 1 []) t)) ∧
        (∀ data, data.length ≠ 8 → ∃ t, exec (.registerWrite path a data) s = .next t ∧ Refused s t path 1 true a)) ∧
      (Reaches s .sideband a false →
        exec (.regRead a) s = .next (Responds s 1 0 (bytes (s.readWord a)))) ∧
      (Reaches s .host a false →
        exec (.ioAgentRead a 8) s = .next (said 0 (bytes (s.readWord a))) ∧
        (len ≠ 8 → ∃ t, exec (.ioAgentRead a len) s = .next t ∧ Refused s t .host 1 false a)) ∧
      (s.reach .host a false = .dark → free .host →
        exec (.ioAgentRead a 8) s = .next (said 0 zeros) ∧
        (len ≠ 8 → ∃ t, exec (.ioAgentRead a len) s = .next t ∧ Refused s t .host 1 false a)) ∧
      (s.reach path a true = .dark → free path →
        (isTraceAddr a = false → exec (.registerWrite path a (bytes v)) s = .next (said 0 [])) ∧
        (isTraceAddr a = true → ∃ t, exec (.registerWrite path a (bytes v)) s = .next t ∧ Refused s t path 2 true a) ∧
        (∀ data, data.length ≠ 8 → ∃ t, exec (.registerWrite path a data) s = .next t ∧ Refused s t path 1 true a)) ∧
      (row.st ≠ 0 → s.readWord a = s.stagedOf a)) ∧
    (rowOf a = none → a < 0x10000000000 → a % 8 = 0 → windowOf a = none → consumeOf a = none → inWriteWindow a = false →
      inReadWindow a = false →
      (Reaches s .sideband a false →
        exec (.regRead a) s = .next (Responds s 1 0 zeros) ∧
        (Reaches s .sideband a true → exec (.regWrite a v) s = .next (Responds s 2 0 []))) ∧
      (Reaches s .host a false → exec (.ioAgentRead a 8) s = .next (said 0 zeros)) ∧
      (Reaches s path a true → exec (.registerWrite path a (bytes v)) s = .next (said 0 []))) ∧
    (Reaches s .host aSecProvision true →
      ∃ t, exec (.registerWrite .host aSecProvision (bytes v)) s = .next t ∧ Refused s t .host 2 true aSecProvision) ∧
    (s.keep.pins.keep12v = false → exec (.regRead a) s = .next s ∧ exec (.regWrite a v) s = .next s) ∧
    (Reaches s path aHkcData false →
      ∃ t, exec (.hkcDataRead path) s = .next t ∧ t.resp = { status := 0, data := bytes (s.reg64 aHkcData) } ∧
        t.reg64 aHkcData = s.reg64 aHkcData &&& ~~~(BitVec.ofNat 64 (3 * 2 ^ 43)) ∧ RegsBut s t [aHkcData] ∧
        t = { s with reg.vals := t.reg.vals, resp := t.resp })) ∧
  (∀ (s : State) (path : Path) (slot : BitVec 12) (v : Word) (tile : TileIx) (write : Bool) (off : Nat) (data : List Byte) (ack : Half),
    let l := slot.toNat
    let k := tile.toNat
    let a := 0x10000000000 + k * 0x10000 + 0x4000 + off
    let at' := (s.tile k).aper.toNat * 16384 + off
    let n := data.length
    let shaped := n ∈ [8, 16, 32, 64] ∧ off % n = 0 ∧ off + n ≤ 0x4000
    let seg := (s.tile k).aper.toNat
    let tagged := path = .host ∧ s.agentTag 0 ≠ 0 ∧ s.agentTag 0 ≠ s.segTag k seg
    (Reaches s path (aNumLflag l) true →
      ∃ t, exec (.numLflagClear path slot v) s = .next t ∧ t.resp = { status := 0, data := [] } ∧
        (∀ i, i < 6 → t.rbit (aNumLflag l) i = (s.rbit (aNumLflag l) i && !v.toNat.testBit i)) ∧
        (∀ i, i < 6 → kvGet 0 (8 * l + i) t.con.numBase =
          if s.rbit (aNumLflag l) i = true ∧ v.toNat.testBit i = true then s.reg64 (aNumCnt l i) else kvGet 0 (8 * l + i) s.con.numBase) ∧
        (t.rbit (aNumFlagSummary (l / 64)) (l % 64) = true ↔ ∃ i, i < 6 ∧ t.rbit (aNumLflag l) i = true) ∧
        (t.rbit aNumStatus 0 = true ↔ ∃ j, j < 64 ∧ t.reg64 (aNumFlagSummary j) ≠ 0) ∧
        RegsBut s t [aNumLflag l, aNumFlagSummary (l / 64), aNumStatus] ∧
        t = { s with con.numBase := t.con.numBase, reg.vals := t.reg.vals, resp := t.resp }) ∧
    (k < positions → tileKind k ≠ 3 → off < 0x4000 → Reaches s path a write →
      (¬ shaped → ∃ t, exec (.scratchApertureAccess path tile write off data) s = .next t ∧ Refused s t path 1 write a) ∧
      (shaped → seg < kindSegments (tileKind k) → seg ∉ (s.tile k).clearing →
        (tagged → write = false ∨ 4 ≤ seg →
          ∃ t, exec (.scratchApertureAccess path tile write off data) s = .next t ∧ Counts s t (aTilewTenantViolCnt k) 1 ∧
            HostViolated (s.bump (aTilewTenantViolCnt k)) t 4 0 write a) ∧
        (¬ tagged → write = false →
          ∃ t, exec (.scratchApertureAccess path tile write off data) s = .next t ∧
            t.resp = { status := if s.scrBad k at' n = [] then 0 else 1, data := s.scr k at' n } ∧
            Counts s t (aTilewScrParityErrCnt k) (s.scrBad k at' n).length ∧ RegsBut s t [aTilewScrParityErrCnt k] ∧
            t = { s with reg.vals := t.reg.vals, resp := t.resp }) ∧
        (¬ tagged → write = true → 4 ≤ seg → (s.dom (s.domOf k)).loupe = false →
          ∃ t, exec (.scratchApertureAccess path tile write off data) s = .next t ∧ Stored s t k at' data ∧
            t = { s with
                  wafer.scratch := t.wafer.scratch, wafer.scratchBad := t.wafer.scratchBad
                  resp := { status := 0, data := [] } })) ∧
      (shaped → kindSegments (tileKind k) ≤ seg ∨ seg ∈ (s.tile k).clearing ∨ (write = true ∧ seg < 4) →
        exec (.scratchApertureAccess path tile write off data) s = .next { s with resp := { status := 1, data := [] } })) ∧
    (Reaches s path aDbgTraceCtrl true →
      ∃ t, exec (.traceClear path v) s = .next t ∧ t.reg64 aDbgTraceCtrl = v &&& 0xFF ∧ t.rfld aDbgTracePtr 28 0 = 0 ∧
        t.rfld aDbgTracePtr 63 29 = s.rfld aDbgTracePtr 63 29 ∧ RegsBut s t [aDbgTraceCtrl, aDbgTracePtr] ∧
        t = { s with reg.vals := t.reg.vals, resp := { status := 0, data := [] } }) ∧
    (Reaches s path aPwrCap true →
      let okay := 4000 ≤ fld v 15 0 ∧ fld v 15 0 ≤ 15500 ∧ 620 ≤ fld v 25 16 ∧ fld v 25 16 ≤ 750
      (okay → ∃ t, exec (.pwrCapWrite path v) s = .next t ∧ t.reg64 aPwrCap = v &&& 0x3FFFFFF ∧ RegsBut s t [aPwrCap] ∧
        t = { s with reg.vals := t.reg.vals, resp := { status := 0, data := [] } }) ∧
      (¬ okay → ∃ t, exec (.pwrCapWrite path v) s = .next t ∧ Refused s t path 2 true aPwrCap)) ∧
    (Reaches s path aLedgFlogAck true →
      let okay := (s.rfld aLedgFlogPtr 31 0 + 2 ^ 32 - ack.toNat) % 2 ^ 32 ≤ 1024
      (okay → ∃ t, exec (.flogAckWrite path ack) s = .next t ∧ t.rfld aLedgFlogAck 31 0 = ack.toNat ∧ RegsBut s t [aLedgFlogAck] ∧
        t = { s with reg.vals := t.reg.vals, resp := { status := 0, data := [] } }) ∧
      (¬ okay → ∃ t, exec (.flogAckWrite path ack) s = .next t ∧ Refused s t path 2 true aLedgFlogAck)))

/-- LOOP_CMD_WRITE (R399): a write that sets VALVE_CLOSE while any wafer domain is on is refused whole, with an error status, and
counted; any other write is taken, and the valve closes where it says so and the outputs run. A valve that is open stays
open through every write while a wafer domain is on. -/
def Obligations.TheValveCannotCloseOnAPoweredWafer : Prop :=
  ∀ (s : State) (path : Path) (v : Word),
    (s.waferOn = true → s.rbit aThmFlow 20 = true →
      ∃ t, exec (.loopCmdWrite path v) s = .next t ∧ t.rbit aThmFlow 20 = true) ∧
    (Reaches s path aThmLoopCmd true →
      (v.toNat.testBit 11 = true → s.waferOn = true →
        ∃ t, exec (.loopCmdWrite path v) s = .next t ∧ t.resp = { status := 1, data := [] } ∧ Counts s t aThmValveRejectCnt 1 ∧
          RegsBut s t [aThmValveRejectCnt, aHostAccErrCnt, aHostErrInfo, aHostErrAddr] ∧
          t = { s with reg.vals := t.reg.vals, resp := t.resp }) ∧
      (v.toNat.testBit 11 = false ∨ s.waferOn = false →
        ∃ t, exec (.loopCmdWrite path v) s = .next t ∧ t.reg64 aThmLoopCmd = v &&& 0xFFF ∧
          t.rbit aThmFlow 20 = !(v.toNat.testBit 11 && s.running) ∧ RegsBut s t [aThmLoopCmd, aThmFlow] ∧
          t = { s with reg.vals := t.reg.vals, resp := { status := 0, data := [] } }))

/-- The calendar has taken a value that is not more than 60 s back (R373): forward at once, backward by holding it still; a change
of more than 1 s is logged. -/
def Sys2Proof.Machine.CalendarTook (s t : State) (v : Nat) : Prop :=
  let old := s.calendar
  t.rbit aLedgStatus 0 = true ∧ t.calendar = max old v ∧ t.keep.ledger.calHold = old - v ∧
  t.keep.ledger.journal = s.keep.ledger.journal ++
    (if old + 1 < v ∨ v + 1 < old then
      [{ kind := 0x22, time := BitVec.ofNat 32 t.calendar
         payload := BitVec.ofNat 64 ((v + 2 ^ 32 - old % 2 ^ 32) % 2 ^ 32) }] else []) ∧
  RegsBut s t ([aLedgCalendar, aLedgStatus] ++ noteRegs) ∧
  t = { s with keep.ledger := t.keep.ledger, reg.vals := t.reg.vals, resp := t.resp }

/-- A record of the ledger has been written in the slot of a sequence number (R374). -/
def Sys2Proof.Machine.Recorded (t : State) (seq type : Nat) (body : List Word) : Prop :=
  ∃ r, kvFind (seq % 16384) t.keep.ledger.records = some r ∧ r.type = type ∧ r.seq = seq ∧ r.body = body

/-- CAL_SET, CALENDAR_BROADCAST, CAL_START, CAL_PART_DONE and CAL_ABORT (R373, R415 to R418, R421): a set of more than 60 s back, or by
a module that may not, is refused; a broadcast received is applied below a manager; every 60 s a manager sends one to each
joined module as an MSG. A calibration starts only on a READY module with references and free compute fields, with LAST_REFUSE saying
why not; its parts end one after another, field by field in order 5, where a spare takes the place of a converter out of range, and an
abort ends the run with STATE 5.

LEDGER_SUMMARY_FLUSH, LEDGER_JOURNAL_FLUSH, LEDGER_CHECKPOINT and TEMPERATURE_BAND_COUNT (R372, R374 to R381): when due, a flush writes a
SUMMARY and the pending journal, or the journal alone, and a checkpoint writes a SUMMARY, FIELDS, 672 ARRAYS, the logs and CKPT_END; a
failed flash write is counted and retried in the next slot; each second counts in the temperature band of every field, once.

The model's own choices it rests on: a time-limit event looks at the clock (notes/assumptions/70.md); how a checkpoint is written (notes/assumptions/108.md); which module may set its calendar (notes/assumptions/111.md); how calibration is refused (notes/assumptions/139.md); the calendar message (notes/assumptions/177.md). -/
def Obligations.CalendarCalibrationAndLedger : Prop :=
  (∀ (s : State) (path : Path) (v : Word) (mask : BitVec 49) (bad : List (TileIx × BitVec 5 × Conv))
    (tile : TileIx) (arr : BitVec 5) (n : Nat),
    let back := v.toNat + 60 < s.calendar
    let pend := s.rfld aCalStatus 63 15
    let open' (f : Nat) : Prop := fieldIsMem f = false ∧ s.rfld (aRepFieldState f) 2 0 = 0 ∧ s.calFree f = true
    let why := if s.isReady = false ∨ s.stopping = true then 1 else if s.keep.calOrder ≠ 0 then 2 else if s.rbit aCalStatus 3 = true then 3
      else if s.vrefOk = false then 4
      else if (calFields mask.toNat).all (fun f => s.calField f) = false then 5
      else if (calFields mask.toNat).all (fun f => s.calFree f) = false then 6 else 0
    let hostRegs := [aHostAccErrCnt, aHostErrInfo, aHostErrAddr]
    let idle := s.load.jobs = [] ∧ s.keep.calWait = []
    let nextField (t : State) (f : Nat) : Prop := t.keep.calOrder = 5 ∧ t.rfld aCalStatus 2 0 = 2 ∧ t.rfld aCalStatus 9 4 = f ∧
      t.keep.thermal.staleSince = [(2 * f, s.clock), (2 * f + 1, s.clock)]
    let ended (t : State) (left : Bool) : Prop := t.keep.calOrder = 0 ∧ t.rfld aCalStatus 2 0 = (if left then 4 else 3) ∧
      (left = false → Counts s t aCalCount 1 ∧ t.reg64 aCalLastTime = s.reg64 aLedgCalendar)
    (Reaches s path aLedgCalSet true →
      (s.maySetCal = false → ∃ t, exec (.calSet path v) s = .next t ∧ Refused s t path 2 true aLedgCalSet) ∧
      (s.maySetCal = true → ¬ back → ∃ t, exec (.calSet path v) s = .next t ∧ CalendarTook s t v.toNat ∧
        t.resp = { status := 0, data := [] }) ∧
      (s.maySetCal = true → back → ∃ t, exec (.calSet path v) s = .next t ∧ Counts s t aLedgCalRejectCnt 1 ∧
        t.resp = { status := 1, data := [] } ∧ RegsBut s t (aLedgCalRejectCnt :: hostRegs) ∧
        t = { s with reg.vals := t.reg.vals, resp := t.resp })) ∧
    (s.isReady = false ∨ s.isManager = false ∨ s.due 6 60000000 = false → exec (.calendarBroadcast none) s = .next s) ∧
    (s.isReady = true → s.isManager = true → s.due 6 60000000 = true →
      let b := { s with keep.lastAt := kvSet 6 s.clock s.keep.lastAt }
      (s.fab.joined = [] → exec (.calendarBroadcast none) s = .next b) ∧
      (s.fab.joined = [n] →
        (s.portFor n = none → exec (.calendarBroadcast none) s = .next { b with freeCtr := s.freeCtr + 1 }) ∧
        (∀ q, s.portFor n = some q →
          (32768 ≤ (s.ctabOf (q / 24)).length → ∃ t, exec (.calendarBroadcast none) s = .next t ∧ Counts s t aFabCtabWaitCnt 1 ∧
            RegsBut s t [aFabCtabWaitCnt] ∧ t = { b with freeCtr := t.freeCtr, reg.vals := t.reg.vals }) ∧
          ((s.ctabOf (q / 24)).length < 32768 → kvRising s.fab.ctab = true →
            ∃ t h data tag e, exec (.calendarBroadcast none) s = .next t ∧
              (t.port q).tx = (s.port q).tx ++ [{ bytes := headerBytes h, kind := .header }, { bytes := data, kind := .remote }] ∧
              h.op = 6 ∧ h.dest.toNat = n % 1024 ∧ h.src.toNat = s.modNumber % 1024 ∧ h.tenant = 0 ∧ h.len = 0 ∧ h.tag.toNat = tag % 2 ^ 17 ∧
              data.length = 128 ∧ leNat (data.take 2) % 1024 = s.modNumber % 1024 ∧
              kvFind tag s.fab.ctab = none ∧ t.fab.ctab = kvSet tag e s.fab.ctab ∧ e.op = 6 ∧ e.owner = h.dest ∧ e.since = s.clock ∧
              (∀ j, j ≠ q → t.port j = s.port j) ∧ TakesCommitted s t aFabRcompTmo ∧
              t = { b with fab.ports := t.fab.ports, fab.ctab := t.fab.ctab, reg := t.reg, freeCtr := t.freeCtr })))) ∧
    (s.isReady = true → s.fab.inRack = true → s.isRoot = false → ¬ back →
      ∃ t, exec (.calendarBroadcast (some v)) s = .next t ∧ CalendarTook s t v.toNat ∧ t.resp = s.resp) ∧
    (s.isReady = false ∨ s.fab.inRack = false ∨ s.isRoot = true → exec (.calendarBroadcast (some v)) s = .next s) ∧
    (Reaches s path aCalCmd true →
      (why = 0 → ∃ t, exec (.calStart path mask) s = .next t ∧ t.keep.calOrder = 2 ∧ t.rfld aCalStatus 2 0 = 1 ∧
        t.rfld aCalStatus 63 15 = mask.toNat ∧ t.rfld aCalStatus 13 11 = s.rfld aCalStatus 13 11 ∧ RegsBut s t [aCalStatus] ∧
        t = { s with keep.calOrder := 2, reg.vals := t.reg.vals, resp := { status := 0, data := [] } }) ∧
      (why ≠ 0 → ∃ t, exec (.calStart path mask) s = .next t ∧ t.rfld aCalStatus 13 11 = why ∧ t.resp = { status := 1, data := [] } ∧
        RegsBut s t (aCalStatus :: hostRegs) ∧ t = { s with reg.vals := t.reg.vals, resp := t.resp }) ∧
      (s.keep.calOrder ≠ 0 → idle → ∃ t, exec (.calAbort path) s = .next t ∧ t.keep.calOrder = 0 ∧
        t.keep.thermal.staleSince = [] ∧ t.rfld aCalStatus 2 0 = 5 ∧ RegsBut s t [aCalStatus] ∧
        t.resp = { status := 0, data := [] } ∧ t.wafer = s.wafer ∧ t.con = s.con) ∧
      (s.keep.calOrder = 0 → exec (.calAbort path) s = .next { s with resp := { status := 0, data := [] } })) ∧
    (s.keep.calOrder = 0 → exec (.calPartDone bad) s = .next s) ∧
    (s.keep.calOrder ∉ [0, 4, 5] → exec (.calPartDone bad) s = .next { s with keep.calOrder := s.keep.calOrder + 1 }) ∧
    (s.keep.calOrder = 4 →
      (∀ f, f < 49 → pend.testBit f = true → open' f → (∀ g, g < f → ¬ (pend.testBit g = true ∧ open' g)) →
        ∃ t, exec (.calPartDone bad) s = .next t ∧ nextField t f ∧ RegsBut s t [aCalStatus]) ∧
      ((∀ g, g < 49 → ¬ (pend.testBit g = true ∧ open' g)) →
        ∃ t, exec (.calPartDone bad) s = .next t ∧ ended t (pend != 0) ∧
          RegsBut s t (if pend = 0 then [aCalStatus, aCalCount, aCalLastTime] else [aCalStatus]))) ∧
    (s.keep.calOrder = 5 → ∃ t, exec (.calPartDone bad) s = .next t) ∧
    (s.keep.calOrder = 5 → idle →
      let f := s.rfld aCalStatus 9 4
      let left := pend - (if pend.testBit f = true then 2 ^ f else 0)
      (∃ t, exec (.calPartDone []) s = .next t ∧ t.rfld aCalStatus 63 15 = left ∧ t.wafer = s.wafer ∧ t.arr = s.arr ∧
        RegsBut s t [aCalStatus, aCalCount, aCalLastTime] ∧
        (∀ g, g < 49 → f < g → pend.testBit g = true → open' g → (∀ h, f < h → h < g → ¬ (pend.testBit h = true ∧ open' h)) →
          nextField t g) ∧
        ((∀ g, g < 49 → f < g → ¬ (pend.testBit g = true ∧ open' g)) → ended t (left != 0) ∧ t.keep.thermal.staleSince = [])) ∧
      (let k := tile.toNat
       let x := s.arrayRec k arr.toNat
       ∀ c, fieldOf k = f → tileKind k = 0 → arr.toNat < 17 → x.state ≠ 4 → x.colSwaps.length < 2 → convServes x.colSwaps n = some c →
        ∃ t, exec (.calPartDone [(tile, arr, { kind := .column, number := n })]) s = .next t ∧
          t.arrayRec k arr.toNat = { x with colSwaps := x.colSwaps ++ [c], suspect := none } ∧
          (∀ j q, (j ≠ k ∨ q ≠ arr.toNat) → j < positions → q < 17 → t.arrayRec j q = s.arrayRec j q) ∧
          Counts s t aRepConvSwapCnt 1 ∧ t.rfld aCalStatus 63 15 = left))) ∧
  (∀ (s : State),
    let l := s.keep.ledger
    let seq := l.nextSeq
    let j := if l.journal = [] then 0 else 1
    let runs := s.keep.pins.keep12v = true ∧ (6 ≤ s.rfld aKeepState 4 0 ∨ s.inRecovery = true)
    let due := 252 ≤ l.journal.length ∨ ∃ e ∈ l.journal, 0x10 ≤ e.kind ∧ e.kind ≤ 0x21
    (runs → l.flushAt + 600000000 ≤ s.clock → l.journal.length ≤ 252 →
      (∃ t, exec (.ledgerSummaryFlush true) s = .next t ∧ Recorded t seq 1 (s.summaryBody false) ∧
        (l.journal ≠ [] → Recorded t (seq + 1) 7 (l.journal.flatMap entryWords)) ∧ t.keep.ledger.journal = [] ∧
        t.keep.ledger.nextSeq = seq + 1 + j ∧ t.keep.ledger.flushAt = s.clock ∧ Counts s t aLedgFlushCnt 1 ∧
        RegsBut s t [aLedgFlushCnt, aLedgStatus] ∧ t = { s with keep.ledger := t.keep.ledger, reg.vals := t.reg.vals }) ∧
      (∃ t, exec (.ledgerSummaryFlush false) s = .next t ∧ Counts s t aLedgFlashErrCnt 1 ∧ Counts s t aLedgFlushCnt 1 ∧
        t.keep.ledger.nextSeq = seq + 2 + j)) ∧
    (¬ runs ∨ s.clock < l.flushAt + 600000000 → ∀ ok, exec (.ledgerSummaryFlush ok) s = .next s) ∧
    (runs → due → l.journal.length ≤ 252 →
      (∃ t, exec (.ledgerJournalFlush true) s = .next t ∧ Recorded t seq 7 (l.journal.flatMap entryWords) ∧
        t.keep.ledger.journal = [] ∧ t.keep.ledger.nextSeq = seq + 1 ∧ t.keep.ledger.flushAt = l.flushAt ∧ Counts s t aLedgFlushCnt 1 ∧
        RegsBut s t [aLedgFlushCnt, aLedgStatus] ∧ t = { s with keep.ledger := t.keep.ledger, reg.vals := t.reg.vals }) ∧
      (∃ t, exec (.ledgerJournalFlush false) s = .next t ∧ Counts s t aLedgFlashErrCnt 1 ∧ Recorded t (seq + 1) 7 (l.journal.flatMap entryWords) ∧
        t.keep.ledger.nextSeq = seq + 2)) ∧
    (¬ runs ∨ ¬ due → ∀ ok, exec (.ledgerJournalFlush ok) s = .next s) ∧
    (runs → l.ckptAt + 86400000000 ≤ s.clock ∨ (s.reg64 aLedgCkptSeq).toNat + 15360 ≤ seq → l.journal = [] → l.repairs = [] →
      seq < 2 ^ 64 →
      ∃ t, exec (.ledgerCheckpoint true) s = .next t ∧ (t.reg64 aLedgCkptSeq).toNat = seq ∧ t.keep.ledger.nextSeq = seq + 680 ∧
        (∃ b, Recorded t seq 1 b) ∧ Recorded t (seq + 679) 6 [BitVec.ofNat 64 679] ∧ t.keep.ledger.ckptAt = s.clock ∧
        Counts s t aLedgCkptCnt 1 ∧ RegsBut s t [aLedgCkptCnt, aLedgCkptSeq, aLedgStatus] ∧
        t = { s with keep.ledger := t.keep.ledger, reg.vals := t.reg.vals }) ∧
    (runs → s.clock < l.ckptAt + 86400000000 → seq < (s.reg64 aLedgCkptSeq).toNat + 15360 →
      ∀ ok, exec (.ledgerCheckpoint ok) s = .next s) ∧
    (s.keeperRuns = true → s.due 4 1000000 = true →
      let band (n : Nat) : Nat := if s.fieldOn n = false then 0 else
        let t := max (s.sensorTemp (2 * n)) (s.sensorTemp (2 * n + 1))
        if t < 5120 then 1 else if t < 7680 then 2 else if t < 9600 then 3 else if t < 10880 then 4 else if t < 11776 then 5
        else if t < 12416 then 6 else 7
      ∃ t, exec .temperatureBandCount s = .next t ∧
        t.reg64 aLedgPoweredS = s.reg64 aLedgPoweredS + (if s.waferOn then 1 else 0) ∧
        (∀ n b, n < 49 → b < 8 → t.rfld (aLedgFieldBand n b) 31 0 =
          (s.rfld (aLedgFieldBand n b) 31 0 + if b = band n then 1 else 0) % 2 ^ 32) ∧
        (∀ x, (∀ n b, n < 49 → b < 8 → x ≠ aLedgFieldBand n b) → x ≠ aLedgPoweredS → t.reg64 x = s.reg64 x) ∧
        t.due 4 1000000 = false ∧
        t = { s with reg.vals := t.reg.vals, keep.lastAt := kvSet 4 s.clock s.keep.lastAt }) ∧
    (s.keeperRuns = false ∨ s.due 4 1000000 = false → exec .temperatureBandCount s = .next s))

/-! ### Housekeeping, temperatures, regulators and failing parts (R366 to R371, R386 to R411) -/

/-- An orderly stop has started with a cause and its deadline in ms (R401). -/
def Sys2Proof.Machine.StopStarted (t : State) (cause : BitVec 4) (deadline : Nat) (toReset : Bool) : Prop :=
  t.keep.stop = some { cause := cause, deadline := deadline, since := t.clock, stage := 1, recovery := none, toReset := toReset } ∧
  t.rbit aThmStatus 6 = true ∧ t.rfld aPwrStopInfo 3 0 = cause.toNat

/-- The flags and queues whose sync blocks lie in field `f` are lost with its supply; no other part of the contract has changed
(R39). -/
def Sys2Proof.Machine.SyncLost (s t : State) (f : Nat) : Prop :=
  t.con = { s.con with flags := t.con.flags, queues := t.con.queues } ∧
  (∀ h, t.flag h = if flagField h = f then {} else s.flag h) ∧ ∀ h, t.queue h = if queueField h = f then {} else s.queue h

/-- No stop and no calibration run is in progress. -/
def Sys2Proof.Machine.Quiet (s : State) : Prop := s.keep.stop = none ∧ s.keep.calOrder = 0

/-- HKC_CONVERSION and COOLANT_WARNING_CLEAR (R387 to R391, R406 to R411): every conversion is counted; a sound result of a field diode
is its reading, sets the warning and throttle levels it reaches and trips at the shut-down level; a thermistor out of range is
broken and starts a stop; an auxiliary level warns or stops; a monitored channel shows its result in HKC.DATA; the committed values of THM, PWR, HKC and CAL apply at the conversion's end; a
coolant warning clears after 10 s.

The model's own choices it rests on: one conversion per command (notes/assumptions/101.md); rounding between neighbouring steps (notes/assumptions/103.md); a broken diode's reading (notes/assumptions/152.md). -/
def Obligations.ConversionsSetLevelsAndTrip : Prop :=
  ∀ (s : State) (chan : BitVec 9) (code : Int) (sat : Bool),
    let i := chan.toNat
    let stale := kvFind i s.keep.thermal.staleSince = none
    let lim (hi lo : Nat) : Int := s.rfld aThmJctLimits hi lo * 128
    (131 ≤ i ∨ s.keeperRuns = false ∨ s.chanOn i = false → exec (.hkcConversion chan code sat) s = .next s) ∧
    (s.keeperRuns = true → s.chanOn i = true → i ∈ [125, 126, 127, 130] → 0 ≤ code → code ≤ 65535 → s.keeperWaits = true →
      ∃ t, exec (.hkcConversion chan code sat) s = .next t ∧ kvFind i t.keep.thermal.codes = some code ∧ Counts s t aHkcConvCnt 1 ∧
        Applied s t [aThmJctLimits, aThmCoolLimits, aThmAuxLimits, aThmBrdLimits, aThmChanEn, aThmPumpAuto, aThmFlowCfg, aHkcCfg,
          aHkcBrdEta] ∧
        (fld (s.committedOf aHkcCfg) 9 1 ≠ s.rfld aHkcCfg 9 1 → t.rbit aHkcData 43 = false) ∧
        t.wafer = s.wafer ∧ t.con = s.con) ∧
    (s.keeperRuns = true → s.chanOn i = true → stale → s.keeperWaits = false →
      (i < 98 → s.chanBroken i = false → -32768 ≤ code → code ≤ 32767 →
        let T := s.diodeTemp i code
        let d := fieldDomain (i / 2)
        0 ≤ T + 7680 → T ≤ 25600 →
        (T < lim 39 32 →
          ∃ t, exec (.hkcConversion chan code false) s = .next t ∧ t.sensorTemp i = T ∧ Counts s t aHkcConvCnt 1 ∧
            (lim 7 0 ≤ T → t.rbit aThmStatus 0 = true ∧ i ∈ t.keep.thermal.warnSet ∧
              Counts s t aThmWarnCnt (if s.rbit aThmStatus 0 then 0 else 1)) ∧
            (lim 23 16 ≤ T → d ∈ t.keep.thermal.throttled ∧
              (d ∉ s.keep.thermal.throttled → t.rbit aThmStatus 1 = true ∧ Counts s t aThmThrottleCnt 1)) ∧
            (T < lim 23 16 → t.keep.thermal.throttled = s.keep.thermal.throttled) ∧
            t.keep.stop = s.keep.stop ∧ t.wafer = s.wafer ∧ t.con = s.con) ∧
        (lim 39 32 ≤ T → s.domainOn d = true → fieldIsMem (i / 2) = false → s.needers d = [] → d ∉ s.keep.thermal.ramping → Quiet s →
          ∃ t, exec (.hkcConversion chan code false) s = .next t ∧ t.sensorTemp i = T ∧ t.keep.pins.thermTrip = true ∧
            t.rbit aThmStatus 2 = true ∧ Counts s t aThmTripCnt 1 ∧ t.domainOn d = false ∧ StopStarted t 1 50 false ∧
            SyncLost s t (i / 2))) ∧
      (112 ≤ i → i < 120 → 0 ≤ code → code ≤ 65535 → s.chanBroken i = false → Quiet s →
        (65000 < code ∨ code < 500 →
          ∃ t, exec (.hkcConversion chan code sat) s = .next t ∧ t.rbit (aThmSensor i) 32 = true ∧
            t.rfld (aThmSensor i) 31 16 = 0x7FFF ∧ t.rbit aThmStatus 5 = true ∧ Counts s t aThmSensorFaultCnt 1 ∧
            Counts s t aThmCoolStopCnt 1 ∧ StopStarted t 2 50 false ∧ t.wafer = s.wafer ∧ t.con = s.con) ∧
        (∀ T, ¬ (65000 < code ∨ code < 500) → s.thermTemp (i - 112) code.toNat = some T → 116 ≤ i →
          let warn : Int := s.rfld aThmAuxLimits (8 * (i - 116) + 7) (8 * (i - 116)) * 128
          let stop : Int := s.rfld aThmAuxLimits (8 * (i - 116) + 39) (8 * (i - 116) + 32) * 128
          ∃ t, exec (.hkcConversion chan code sat) s = .next t ∧ t.sensorTemp i = T ∧ t.wafer = s.wafer ∧
            (stop < T → StopStarted t 2 50 false ∧ Counts s t aThmCoolStopCnt 1) ∧
            (T ≤ stop → t.keep.stop = none ∧
              (warn < T → t.rbit aThmStatus 3 = true ∧ kvFind i t.keep.thermal.coolWarn = some none ∧
                Counts s t aThmWarnCnt (if kvFind i s.keep.thermal.coolWarn = none then 1 else 0)) ∧
              (T ≤ warn → kvFind i s.keep.thermal.coolWarn = some none →
                kvFind i t.keep.thermal.coolWarn = some (some s.clock))))) ∧
      (i ∈ [125, 126, 127, 130] → 0 ≤ code → code ≤ 65535 →
        let shows := s.rbit aHkcCfg 10 = true ∧ s.rfld aHkcCfg 9 1 = i
        ∃ t, exec (.hkcConversion chan code sat) s = .next t ∧ kvFind i t.keep.thermal.codes = some code ∧
          Counts s t aHkcConvCnt 1 ∧ (¬ shows → RegsBut s t [aHkcConvCnt]) ∧
          (shows → t.rfld aHkcData 31 0 = (if s.rbit aHkcCfg 0 then code.toNat * 65536 else code.toNat) ∧
            t.rfld aHkcData 40 32 = i ∧ t.rbit aHkcData 43 = true ∧ t.rbit aHkcData 44 = s.rbit aHkcData 43 ∧
            Counts s t aHkcOverrunCnt (if s.rbit aHkcData 43 then 1 else 0) ∧ RegsBut s t [aHkcConvCnt, aHkcData, aHkcOverrunCnt]) ∧
          t = { s with keep.thermal.codes := t.keep.thermal.codes, reg.vals := t.reg.vals }) ∧
      (i = 128 → 0 ≤ code → code ≤ 65535 →
        ∃ t, exec (.hkcConversion chan code sat) s = .next t ∧ code.toNat * 60000 / 65536 ≤ t.rfld aPwrInput 15 0 ∧
          t.rfld aPwrInput 15 0 ≤ code.toNat * 60000 / 65536 + 1 ∧ t.rfld aPwrInput 63 16 = s.rfld aPwrInput 63 16 ∧
          Counts s t aHkcConvCnt 1)) ∧
    (∀ t0, kvFind i s.keep.thermal.coolWarn = some (some t0) →
      (s.clock < t0 + 10000000 → exec (.coolantWarningClear chan) s = .next s) ∧
      (t0 + 10000000 ≤ s.clock →
        ∃ t, exec (.coolantWarningClear chan) s = .next t ∧ t.keep.thermal.coolWarn = kvDel i s.keep.thermal.coolWarn ∧
          (t.rbit aThmStatus 3 = true ↔ kvDel i s.keep.thermal.coolWarn ≠ []) ∧ RegsBut s t [aThmStatus] ∧
          t = { s with keep.thermal.coolWarn := t.keep.thermal.coolWarn, reg.vals := t.reg.vals })) ∧
    (kvFind i s.keep.thermal.coolWarn = none ∨ kvFind i s.keep.thermal.coolWarn = some none →
      exec (.coolantWarningClear chan) s = .next s)

/-- THROTTLE_STEP, POWER_CAP_STEP, FLOW_MEASURE and FLOW_STOP (R5, R392 to R394, R400): sent before its time, a periodic step changes nothing; a hot field's throttle setpoint
falls 10 mV, to 620 mV at least, and rises again once its diodes are cool; the cap setpoint falls above the cap and rises after 100 ms
below 97 % of it; a domain runs at the lowest of its setpoints; low flow is shown and counted,
and 5 s of it stop the module; outside the running state the pump is at 100 %.

The model's own choices it rests on: a time-limit event looks at the clock (notes/assumptions/70.md); the record of a throttle setpoint (notes/assumptions/99.md); when CAP_UNMET clears (notes/assumptions/100.md); rounding between neighbouring steps (notes/assumptions/103.md); one measurement counts as 1 s (notes/assumptions/105.md). -/
def Obligations.RegulatorsFollowTheLowestSetpoint : Prop :=
  ∀ (s : State) (dom : BitVec 6) (watts : BitVec 16) (pulses : Nat),
    let d := dom.toNat
    let set := s.rfld (aPwrDomain d) 9 0
    let cap := s.rfld aPwrPower 25 16
    let now := min (s.throttleOf d) set
    let hot := ∃ i ∈ [2 * domainField d, 2 * domainField d + 1], (s.rfld aThmJctLimits 23 16 : Int) * 128 ≤ s.sensorTemp i
    let cool := ∀ i ∈ [2 * domainField d, 2 * domainField d + 1], s.sensorTemp i ≤ (s.rfld aThmJctLimits 31 24 : Int) * 128
    let at' (t : State) (mv : Nat) : Prop := t.throttleOf d = mv ∧ t.rfld (aPwrDomain d) 19 10 = min set (min mv cap) ∧
      RegsBut s t [aPwrDomain d, aThmStatus] ∧
      t = { s with
            keep.lastAt := kvSet (100 + d) s.clock s.keep.lastAt, keep.thermal.throttleMv := t.keep.thermal.throttleMv, keep.thermal.throttled := t.keep.thermal.throttled
            reg.vals := t.reg.vals }
    let w := watts.toNat
    let limit := s.rfld aPwrCap 15 0
    let floor := s.rfld aPwrCap 25 16
    let capAt (t : State) (mv : Nat) : Prop := t.rfld aPwrPower 25 16 = mv ∧ t.rfld aPwrPower 15 0 = w ∧
      (∀ e, 1 ≤ e → e ≤ 49 → s.domainOn e = true →
        t.rfld (aPwrDomain e) 19 10 = min (s.rfld (aPwrDomain e) 9 0) (min (s.throttleOf e) mv))
    let same (t : State) : Prop := t.rfld aPwrPower 15 0 = w ∧ t.rfld aPwrPower 26 16 = s.rfld aPwrPower 26 16 ∧ RegsBut s t [aPwrPower]
    let rate := 600 * pulses / s.rfld aThmFlowCfg 15 0
    (1 ≤ d → d ≤ 42 → s.domainOn d = true → 620 < set →
      (hot → s.due (100 + d) 10000 = true → ∃ t, exec (.throttleStep dom) s = .next t ∧ at' t (max 620 (now - 10)) ∧
        t.keep.thermal.throttled = s.keep.thermal.throttled) ∧
      (hot → s.due (100 + d) 10000 = false → exec (.throttleStep dom) s = .next s) ∧
      (¬ hot → cool → d ∈ s.keep.thermal.throttled → s.due (100 + d) 100000 = false → exec (.throttleStep dom) s = .next s) ∧
      (¬ hot → cool → d ∈ s.keep.thermal.throttled → s.due (100 + d) 100000 = true →
        (now + 10 < set → ∃ t, exec (.throttleStep dom) s = .next t ∧ at' t (now + 10)) ∧
        (set ≤ now + 10 → ∃ t, exec (.throttleStep dom) s = .next t ∧ at' t 850 ∧ d ∉ t.keep.thermal.throttled)) ∧
      (¬ hot → ¬ cool ∨ d ∉ s.keep.thermal.throttled → exec (.throttleStep dom) s = .next s)) ∧
    (d = 0 ∨ 49 < d ∨ s.domainOn d = false → exec (.throttleStep dom) s = .next s) ∧
    (s.due 1 1000 = false → exec (.powerCapStep watts) s = .next s) ∧
    (s.due 1 1000 = true →
      (limit < w → floor < cap → ∃ t, exec (.powerCapStep watts) s = .next t ∧ capAt t (max floor (cap - 10)) ∧
        Counts s t aPwrCapStepCnt 1 ∧ t.rbit aPwrPower 27 = false ∧ t.keep.thermal.capBelow = none) ∧
      (limit < w → cap ≤ floor → ∃ t, exec (.powerCapStep watts) s = .next t ∧ same t ∧ t.rbit aPwrPower 27 = true ∧
        t.keep.thermal.capBelow = none) ∧
      (w ≤ limit → limit * 97 ≤ w * 100 → ∃ t, exec (.powerCapStep watts) s = .next t ∧ same t ∧ t.rbit aPwrPower 27 = false ∧
        t.keep.thermal.capBelow = none) ∧
      (w ≤ limit → w * 100 < limit * 97 →
        (s.keep.thermal.capBelow = none → ∃ t, exec (.powerCapStep watts) s = .next t ∧ same t ∧
          t.keep.thermal.capBelow = some s.clock) ∧
        (∀ t0, s.keep.thermal.capBelow = some t0 →
          (t0 + 100000 ≤ s.clock → s.keep.thermal.capRise + 10000 ≤ s.clock → cap < 850 →
            ∃ t, exec (.powerCapStep watts) s = .next t ∧ capAt t (min 850 (cap + 10)) ∧ t.keep.thermal.capRise = s.clock) ∧
          (s.clock < t0 + 100000 ∨ s.clock < s.keep.thermal.capRise + 10000 ∨ 850 ≤ cap →
            ∃ t, exec (.powerCapStep watts) s = .next t ∧ same t ∧ t.keep = { s.keep with lastAt := kvSet 1 s.clock s.keep.lastAt })))) ∧
    (s.running = false → s.due 2 100000 = true →
      ∃ t, exec .pumpDemandUpdate s = .next t ∧ t.rfld aThmFlow 19 10 = 1000 ∧ RegsBut s t [aThmFlow] ∧
        t = { s with reg.vals := t.reg.vals, keep.lastAt := kvSet 2 s.clock s.keep.lastAt }) ∧
    (s.keeperRuns = false ∨ s.due 3 1000000 = false → exec (.flowMeasure pulses) s = .next s) ∧
    (s.keeperRuns = true → s.due 3 1000000 = true → s.rfld aThmFlowCfg 15 0 = 0 → ∃ t, exec (.flowMeasure pulses) s = .next t ∧
      RegsBut s t [aThmFlow, aThmStatus, aThmFlowLowCnt]) ∧
    (s.keeperRuns = true → s.due 3 1000000 = true → s.rfld aThmFlowCfg 15 0 ≠ 0 →
      ∃ t q, exec (.flowMeasure pulses) s = .next t ∧ rate ≤ q ∧ q ≤ rate + 1 ∧ t.rfld aThmFlow 9 0 = min 1023 q ∧
        (t.rbit aThmStatus 4 = true ↔ min 1023 q < s.rfld aThmFlowCfg 25 16) ∧
        Counts s t aThmFlowLowCnt (if min 1023 q < s.rfld aThmFlowCfg 25 16 ∧ s.rbit aThmStatus 4 = false then 1 else 0) ∧
        t.keep.thermal.flowLowFor = (if min 1023 q < s.rfld aThmFlowCfg 35 26 then s.keep.thermal.flowLowFor + 1 else 0) ∧
        RegsBut s t [aThmFlow, aThmStatus, aThmFlowLowCnt]) ∧
    (s.keep.thermal.flowLowFor < 5 ∨ s.waferOn = false → exec .flowStop s = .next s) ∧
    (5 ≤ s.keep.thermal.flowLowFor → s.waferOn = true → Quiet s →
      ∃ t, exec .flowStop s = .next t ∧ StopStarted t 2 50 false ∧ Counts s t aThmCoolStopCnt 1 ∧ Counts s t aPwrStopCnt 1 ∧
        t.wafer = s.wafer ∧ t.con = s.con)

/-- PUMP_DEMAND_UPDATE, the regulation that the keeper runs every 100 ms, and no sooner (R5, R398): in automatic mode the demand is PUMP_MIN at a hottest
enabled outlet reading of OUT_LO or below, 100 % at OUT_HI or above, and linear between them; in manual mode it is DUTY; in
either mode it is at least PUMP_MIN while a wafer domain is on, and 100 % under a junction or coolant warning or FLOW_LOW.
The linear value is met to within one unit of 0.1 %.

The model's own choices it rests on: a time-limit event looks at the clock (notes/assumptions/70.md). -/
def Obligations.ThePumpFollowsTheHottestOutlet : Prop :=
  ∀ s : State,
    let full := s.rbit aThmStatus 0 = true ∨ s.rbit aThmStatus 3 = true ∨ s.rbit aThmStatus 4 = true
    let least := s.rfld aThmPumpAuto 9 0
    let lo : Int := s.rfld aThmPumpAuto 17 10 * 128
    let hi : Int := s.rfld aThmPumpAuto 25 18 * 128
    let out := s.outletTemp
    let pump (v : Nat) : Prop := ∃ t, exec .pumpDemandUpdate s = .next t ∧ t.rfld aThmFlow 19 10 = v ∧ RegsBut s t [aThmFlow] ∧
      t = { s with reg.vals := t.reg.vals, freeCtr := t.freeCtr, keep.lastAt := kvSet 2 s.clock s.keep.lastAt }
    (s.due 2 100000 = false → exec .pumpDemandUpdate s = .next s) ∧
    (s.running = true → s.due 2 100000 = true →
    (full → pump 1000) ∧
    (¬ full → s.rbit aThmLoopCmd 0 = true → s.rfld aThmLoopCmd 10 1 ≤ 1000 →
      pump (max (s.rfld aThmLoopCmd 10 1) (if s.waferOn then least else 0))) ∧
    (¬ full → s.rbit aThmLoopCmd 0 = false → least ≤ 1000 →
      (out ≤ lo → pump least) ∧ (lo < out → hi ≤ out → pump 1000) ∧
      (lo < out → out < hi →
        let n := (1000 - least) * (out - lo).toNat / (hi - lo).toNat
        pump (least + n) ∨ pump (least + n + 1))))

/-- SUPPLY_FAULT, PHASE_FAIL, PAIR_LOCKSTEP_MISMATCH, STACK_INTERFACE_LOST, FIELD_SELF_TEST_DONE and KEEPER_HEARTBEAT_LOSS (R366 to R371): a
failed supply takes its domain off and, with a compute field, retires it; a failed phase is isolated, and the third fails the domain
at the next boundary; a second mismatch of a control pair within 1 s brings in the spare; a stack without an interface is offline; a spare
field that passes is committed; without the keeper the clusters end the module's work.

The model's own choices it rests on: the lowest free spare (notes/assumptions/22.md); when a failed field retires (notes/assumptions/98.md). -/
def Obligations.FailingPartsAreRetired : Prop :=
  ∀ (s : State) (dom : BitVec 6) (phase : BitVec 4) (cluster : BitVec 3) (pair : BitVec 2) (stack : BitVec 5) (field : BitVec 6),
    let d := dom.toNat
    let bad := kvGet 0 d s.keep.thermal.phasesBad
    let n := s.rfld (aRepDomainHealth d) 1 0
    let c := cluster.toNat
    let k := 4 * c + pair.toNat
    let p := pair.toNat
    let st (u : State) (i : Nat) : Nat := u.rfld (aRepClusterState c) (2 * i + 1) (2 * i)
    let f := field.toNat
    let noSpare := ∀ g, g < 49 → s.rfld (aRepFieldState g) 2 0 = 1 → g = f ∨ s.fieldOn g = true
    let clear (g : Nat) : Prop := ∀ e ∈ s.con.doms, s.domInField e.1 g true = false
    (d = 0 ∨ s.domainOn d = false → exec (.supplyFault dom) s = .next s) ∧
    (57 ≤ d → s.domainOn d = true → d ∉ s.keep.thermal.ramping → s.hostFetches = [] → (∀ e ∈ s.con.doms, e.2.loupe = false) →
      ∃ t, exec (.supplyFault dom) s = .next t ∧ t.domainOn d = false ∧ t.rbit (aRepDomainHealth d) 2 = true ∧
        Counts s t aRepSupplyFaultCnt 1 ∧ Counts s t aPwrDomainSwitchCnt 1 ∧ t.con = s.con ∧ t.wafer = s.wafer ∧
        (57 ≤ d → d ≤ 60 → ∀ i, i < 24 → (s.port (24 * (d - 57) + i)).state ≠ 6 → (t.port (24 * (d - 57) + i)).state = 0) ∧
        (d = 62 → t.rfld aHostLinkState 2 0 = 0)) ∧
    (1 ≤ d → d ≤ 42 → s.domainOn d = true → d ∉ s.keep.thermal.ramping → s.needers d = [] → clear (domainField d) → (∀ g, g < 49 → s.rfld (aRepFieldState g) 2 0 ≠ 1) →
      s.rfld (aRepFieldState (domainField d)) 2 0 = 0 →
      ∃ t, exec (.supplyFault dom) s = .next t ∧ t.domainOn d = false ∧ t.rfld (aRepFieldState (domainField d)) 2 0 = 2 ∧
        t.reg64 aRepMapGen = s.reg64 aRepMapGen + 1 ∧
        Counts s t aRepFieldRetireCnt 1 ∧ Counts s t aRepSupplyFaultCnt 1 ∧ SyncLost s t (domainField d)) ∧
    (s.domainOn d = false ∨ bad.testBit phase.toNat = true → exec (.phaseFail dom phase) s = .next s) ∧
    (s.domainOn d = true → bad.testBit phase.toNat = false →
      (n < 2 →
        ∃ t, exec (.phaseFail dom phase) s = .next t ∧ kvGet 0 d t.keep.thermal.phasesBad = bad + 2 ^ phase.toNat ∧
          t.rfld (aRepDomainHealth d) 1 0 = n + 1 ∧ Counts s t aRepPhaseFailCnt 1 ∧ Noted s t 0x1C (d + 64 * phase.toNat) ∧
          RegsBut s t ([aRepDomainHealth d, aRepPhaseFailCnt] ++ noteRegs) ∧ t.wafer = s.wafer ∧ t.con = s.con) ∧
      (2 ≤ n → d ≠ 0 → (∃ e ∈ s.con.doms, e.2.state = 2 ∨ e.2.state = 3) →
        ∃ t, exec (.phaseFail dom phase) s = .next t ∧ d ∈ t.keep.thermal.failAtStep ∧ Counts s t aRepPhaseFailCnt 1 ∧
          t.domainOn d = true ∧ Noted s t 0x1C (d + 64 * phase.toNat))) ∧
    (c < 7 → s.domainOn (50 + c) = true → st s p = 0 →
      ((∀ t0, kvFind k s.keep.pairErr = some t0 → t0 + 1000000 < s.clock) →
        ∃ t, exec (.pairLockstepMismatch cluster pair) s = .next t ∧ kvFind k t.keep.pairErr = some s.clock ∧
          Counts s t aRepPairLockstepErrCnt 1 ∧ RegsBut s t [aRepPairLockstepErrCnt] ∧
          t = { s with keep.pairErr := t.keep.pairErr, reg.vals := t.reg.vals }) ∧
      (∀ t0 i, kvFind k s.keep.pairErr = some t0 → s.clock ≤ t0 + 1000000 → i < 4 → st s i = 1 → (∀ j, j < i → st s j ≠ 1) →
        ∃ t, exec (.pairLockstepMismatch cluster pair) s = .next t ∧ st t p = 2 ∧ st t i = 0 ∧
          (∀ j, j < 4 → j ≠ p → j ≠ i → st t j = st s j) ∧ Counts s t aRepPairLockstepErrCnt 1 ∧ Counts s t aRepPairSwapCnt 1 ∧
          Noted s t 0x1B (c + 8 * p) ∧ kvFind k t.keep.pairErr = none ∧ t.wafer = s.wafer ∧ t.con = s.con)) ∧
    (stack.toNat < 28 → s.domainOn (43 + stack.toNat / 4) = true →
      (s.stackOffline stack.toNat = true → exec (.stackInterfaceLost stack) s = .next s) ∧
      (s.stackOffline stack.toNat = false →
        ∃ t, exec (.stackInterfaceLost stack) s = .next t ∧ t.stackOffline stack.toNat = true ∧ Noted s t 0x1F stack.toNat ∧
          RegsBut s t (aMemStackState stack.toNat :: noteRegs) ∧ t.mem = s.mem ∧ t.con = s.con)) ∧
    (f < 49 → s.rfld (aRepFieldState f) 2 0 = 1 → s.fieldOn f = true →
      (∃ t, exec (.fieldSelfTestDone field true) s = .next t ∧ t.rfld (aRepFieldState f) 2 0 = 0 ∧
        t.reg64 aRepMapGen = s.reg64 aRepMapGen + 1 ∧ Noted s t 0x15 f ∧
        RegsBut s t ([aRepFieldState f, aRepMapGen] ++ noteRegs) ∧ t.wafer = s.wafer ∧ t.con = s.con) ∧
      (s.needers (fieldDomain f) = [] → fieldDomain f ∉ s.keep.thermal.ramping → clear f → noSpare →
        ∃ t, exec (.fieldSelfTestDone field false) s = .next t ∧ t.rfld (aRepFieldState f) 2 0 = 2 ∧ t.fieldOn f = false ∧
          t.reg64 aRepMapGen = s.reg64 aRepMapGen + 1 ∧ Counts s t aRepFieldRetireCnt 1 ∧ SyncLost s t f)) ∧
    (49 ≤ f ∨ s.rfld (aRepFieldState f) 2 0 ≠ 1 ∨ s.fieldOn f = false → ∀ ok, exec (.fieldSelfTestDone field ok) s = .next s) ∧
    (s.anyCluster = false → exec .keeperHeartbeatLoss s = .next s) ∧
    (s.anyCluster = true → ∃ t x, exec .keeperHeartbeatLoss s = .next t ∧ t.keep.stop = some x ∧ x.stage = 6 ∧ t.isReady = false)

/-! ### Start, stop and recovery (R345 to R347, R396, R401, R402, R438, R443) -/

/-- The keeper has been reset and stands at an order of the start sequence: what outlives it is the flash with the ledger's records,
the fuses, the cells of the arrays and the levels at the pins; the field map is that of the fuses; everything else is as after
reset (R19, R345, R346, R373). -/
def Sys2Proof.Machine.Restarted (s t : State) (order : Nat) (calendar : Word) : Prop :=
  t.order = order ∧ (t.reg64 aKeepBootCnt).toNat = order ∧ t.reg64 aLedgCalendar = calendar ∧
  (∀ x, x ∉ [aKeepState, aKeepBootCnt, aLedgCalendar, aLedgStatus, aDbgTracePtr] ++ (List.range 49).map aRepFieldState →
    t.reg64 x = State.reset.reg64 x) ∧
  (∀ f, f < 49 → (fieldIsMem f = true → t.reg64 (aRepFieldState f) = State.reset.reg64 (aRepFieldState f)) ∧
    (fieldIsMem f = false → t.rfld (aRepFieldState f) 2 0 = if f ∈ s.trust.fuses.spareFields then 1 else 0)) ∧
  t = { State.reset with
        pending := s.pending, freeCtr := s.freeCtr, clock := s.clock, resp := s.resp, reg.vals := t.reg.vals
        wafer := { State.reset.wafer with map := s.trust.fuses.tileMap }
        arr := { cells := s.arr.cells, scales := s.arr.scales, ksums := s.arr.ksums }
        trust := { flash := s.trust.flash, fuses := s.trust.fuses }
        keep := {
          pins := t.keep.pins
          tripWait := t.keep.tripWait
          ledger := {
            records := s.keep.ledger.records, nextSeq := s.keep.ledger.nextSeq, ckptAt := s.clock, flushAt := s.clock } } }

/-- The module is in the recovery state with a cause (R347, R413). -/
def Sys2Proof.Machine.InRecoveryState (t : State) (cause : Nat) : Prop :=
  t.inRecovery = true ∧ t.isReady = false ∧ t.rfld aKeepState 11 8 = cause ∧ t.keep.stop = none ∧ t.rbit aCalStatus 3 = true

/-- MOD_RESET_N_RELEASE, KEEP_12V_PRESENT, KEEP_12V_LOSS, START_SEQUENCE_ADVANCE, READY, DOMAIN_RAMP_DONE, STRAP_DEBUG_RELEASE, PWR_GOOD_ASSERT
and HOLDUP_OK_ASSERT (R345, R346, R396, R438, R443): the keeper starts at order 1, counted; the orders follow one another, each when its work
is done; an unsound image or an unowned module goes to the recovery state with its cause; order 6 holds until the wafer may be
powered, with the valve open and the coolant at its limit after a trip; READY follows order 16 once every manifest job has ended; a domain is on once its ramp ends.

PWR_GOOD_DEASSERT, MAIN_INPUT_LOW, STOP_REQ_N_ASSERT, MOD_RESET_N_ASSERT, HOLDUP_OK_DEASSERT and STOP_STAGE_END (R401, R402, R443): each cause
starts one orderly stop with its deadline, which a later cause shortens where its own ends sooner; its stages follow one another,
each abandoned at its bound from the trigger and not before, ask the domains to
stop, flush the ledger, release the outputs and power the wafer off; then the module is in reset, in the recovery state or
stopped until reset. HOLDUP_OK alone starts no stop.

The model's own choices it rests on: what ORDER shows (notes/assumptions/116.md); a ramp that fails at the start (notes/assumptions/120.md); how stop stages end (notes/assumptions/123.md); when a stop starts (notes/assumptions/124.md). -/
def Obligations.StartAndOrderlyStop : Prop :=
  (∀ (s : State) (env : StartEnv) (dom : BitVec 6) (ok : Bool),
    let p := s.keep.pins
    let moves (t : State) : Prop := exec (.startSequenceAdvance env) s = .next t
    let d := dom.toNat
    let stay (held : Bool) := ∃ t, moves t ∧ t.order = 6 ∧ t.rbit aKeepStraps 6 = held ∧
      (held = true → RegsBut s t [aKeepStraps]) ∧ (held = false → t.rbit aThmFlow 20 = true ∧ RegsBut s t [aKeepStraps, aThmFlow]) ∧
      t = { s with reg.vals := t.reg.vals }
    (p.modResetN = true → exec .modResetNRelease s = .next s) ∧
    (p.modResetN = false → p.keep12v = true → s.order = 0 →
      ∃ t, exec .modResetNRelease s = .next t ∧ Restarted s t 1 (s.reg64 aLedgCalendar) ∧
        t.keep.pins = { p with modResetN := true, thermTrip := false } ∧ t.keep.tripWait = s.keep.tripWait) ∧
    (p.modResetN = false → p.keep12v = false ∨ s.order ≠ 0 →
      exec .modResetNRelease s = .next { s with keep.pins.modResetN := true }) ∧
    (p.keep12v = true → exec .keep12vPresent s = .next s) ∧
    (p.keep12v = false →
      ∃ t, exec .keep12vPresent s = .next t ∧ t.keep.pins = { p with keep12v := true, thermTrip := false } ∧
        (s.keep.ledger.records = [] → Restarted s t (if p.modResetN then 1 else 0) 0) ∧
        (∀ e, s.keep.ledger.records = [e] → Restarted s t (if p.modResetN then 1 else 0) e.2.time)) ∧
    (∃ t, exec .keep12vLoss s = .next t ∧ Restarted s t 0 0 ∧ t.keep.pins = { p with keep12v := false, thermTrip := false } ∧
      t.keep.tripWait = false) ∧
    (s.stopping = true ∨ s.inRecovery = true → moves s) ∧
    (s.stopping = false → s.inRecovery = false →
      (s.order ∈ [1, 3, 10] →
        ∃ t, moves t ∧ t.order = s.order + 1 ∧ RegsBut s t [aKeepState] ∧ t = { s with reg.vals := t.reg.vals }) ∧
      (s.order = 2 → ∃ t, moves t ∧ t.order = 3 ∧
        t.reg64 aKeepStraps = BitVec.ofNat 64 ((if p.role then 1 else 0) + 2 * p.slot.toNat + (if p.debug then 32 else 0)) ∧
        t.rfld aFabModId 3 0 = p.slot.toNat ∧ RegsBut s t [aKeepState, aKeepStraps, aFabModId] ∧
        t = { s with reg.vals := t.reg.vals }) ∧
      (s.order = 4 →
        (s.trust.fuses.owned = false → ∃ t, moves t ∧ InRecoveryState t 10) ∧
        (s.trust.fuses.owned = true → flashPresent env.verify.flash = false → ∃ t, moves t ∧ InRecoveryState t 1) ∧
        (s.trust.fuses.owned = true → flashPresent env.verify.flash = true → s.headerOk = false → ∃ t, moves t ∧ InRecoveryState t 2) ∧
        (s.trust.fuses.owned = true → flashPresent env.verify.flash = true → s.headerOk = true →
          ∃ t, moves t ∧ t.order = 5 ∧ t.trust = { s.trust with fwDigest := Config.digest s.imgFirmware } ∧
            RegsBut s t [aKeepState] ∧ t = { s with trust := t.trust, reg.vals := t.reg.vals })) ∧
      (s.order = 5 → s.verifyCause env.verify true ≠ 0 → ∃ t, moves t ∧ InRecoveryState t (s.verifyCause env.verify true)) ∧
      (s.order = 6 → env.changed = false →
        (s.rbit aKeepStraps 5 = true → p.debug = true → stay true) ∧
        ((s.rbit aKeepStraps 5 = false ∨ p.debug = false) → s.mayPower = false → stay false) ∧
        ((s.rbit aKeepStraps 5 = false ∨ p.debug = false) → s.mayPower = true →
          ∃ t, moves t ∧ t.order = 7 ∧ t.rbit aThmFlow 20 = true ∧ t.keep.tripWait = false)) ∧
      (s.order = 7 →
        (s.keep.thermal.rampQueue = [] ∧ s.keep.thermal.ramping = [] → ∃ t, moves t ∧ t.order = 8 ∧ RegsBut s t [aKeepState]) ∧
        (s.keep.thermal.rampQueue ≠ [] ∨ s.keep.thermal.ramping ≠ [] → moves s)) ∧
      (s.order = 8 →
        (env.pairsFail = true ∨ (∃ i, i < 7 ∧ (s.domainOn (43 + i) = false ∨ s.rbit (aRepDomainHealth (43 + i)) 2 = true)) → ∃ t, moves t ∧ InRecoveryState t 11) ∧
        (env.pairsFail = false → env.failFields = [] → env.failSupply = [] → env.failStacks = [] →
          (∀ i, i < 7 → s.domainOn (43 + i) = true ∧ s.rbit (aRepDomainHealth (43 + i)) 2 = false ∧ s.chanBroken (42 + 2 * i) = false ∧ s.chanBroken (43 + 2 * i) = false) →
          ∃ t, moves t ∧ t.order = 9 ∧ RegsBut s t [aKeepState])) ∧
      (s.order = 9 →
        (env.changed = false → ∃ t, moves t ∧ t.order = 10 ∧ RegsBut s t [aKeepState]) ∧
        (env.changed = true → Quiet s →
          ∃ t, moves t ∧ t.keep.stop = some { cause := 7, deadline := 1000, since := s.clock, stage := 1, recovery := some 9, toReset := false } ∧
            t.order = 9)) ∧
      (s.order = 11 →
        (env.refsOk = false → ∃ t, moves t ∧ InRecoveryState t 11) ∧
        (env.refsOk = true → s.refCodeOk 125 32768 = true → s.refCodeOk 126 31457 = true → env.failFields = [] →
          ∃ t, moves t ∧ t.order = 12 ∧ RegsBut s t [aKeepState])) ∧
      (s.order = 12 → env.changed = false → s.imgEntries = [] → s.sectsOf 3 = [] → s.sectsOf 4 = [] →
        ∃ t, moves t ∧ t.order = 13 ∧ t.wafer = { s.wafer with base := baseOf s.imgSigned } ∧
          t.load = { s.load with refused := [], manifest := [], left := [] } ∧ t.con = s.con ∧
          (p.perstN = true → s.domainOn 62 = true → t.rfld aHostLinkState 2 0 = 1)) ∧
      (s.order = 13 →
        (p.perstN = false → s.domainOn 62 = true → moves s) ∧
        (p.perstN = true ∨ s.domainOn 62 = false →
          ∃ t, moves t ∧ t.order = 14 ∧ (∀ k, k < 96 → s.domainOn (57 + k / 24) = true → (s.port k).state ≠ 6 → (t.port k).state = 1) ∧
            (s.rfld aHostLinkState 2 0 = 1 → t.rfld aHostLinkState 2 0 = 4))) ∧
      (s.order = 14 → ∃ t, moves t ∧ t.order = (if s.rbit aKeepStraps 0 then 15 else 16) ∧
        (∀ k, k < 96 → (t.port k).state = if (s.port k).state = 1 then 7 else (s.port k).state) ∧
        (∀ q, q < 2 → t.rfld (aSvcPortState q) 1 0 =
          if s.rfld (aSvcPortState q) 1 0 = 1 then 2 else s.rfld (aSvcPortState q) 1 0)) ∧
      (s.order = 15 → env.joined = false → ∃ t, moves t ∧ t.order = 16 ∧ Counts s t aFabJoinRejectCnt 1 ∧
        t.fab = s.fab ∧ RegsBut s t [aKeepState, aFabJoinRejectCnt]) ∧
      (s.order = 15 → env.joined = true → s.rfld aFabModId 3 0 = 0 →
        ∃ t, moves t ∧ t.order = 16 ∧ t.fab = { s.fab with inRack := true } ∧ t.isManager = true) ∧
      (16 ≤ s.order → moves s)) ∧
    (s.stopping = false → s.inRecovery = false → s.order = 16 → s.load.left = [] →
      ∃ t, exec .ready s = .next t ∧ t.order = 17 ∧ t.isReady = true ∧ t.rbit aCfgStatus 17 = true ∧
        t.trust.fuses = { s.trust.fuses with
          svnMin := if (s.imgNat 6 2).testBit 1 then max s.trust.fuses.svnMin (s.imgNat 0x18 2) else s.trust.fuses.svnMin }) ∧
    (s.stopping = true ∨ s.inRecovery = true ∨ s.order ≠ 16 ∨ s.load.left ≠ [] → exec .ready s = .next s) ∧
    (d ∉ s.keep.thermal.ramping → exec (.domainRampDone dom ok) s = .next s) ∧
    (d ∈ s.keep.thermal.ramping → d ≠ 62 →
      ∃ t, exec (.domainRampDone dom true) s = .next t ∧ t.domainOn d = true ∧ Counts s t aPwrDomainSwitchCnt 1 ∧
        (1 ≤ d → d ≤ 49 → t.rbit (aRepFieldState (domainField d)) 3 = true) ∧ t.wafer = s.wafer ∧ t.con = s.con) ∧
    (d ∈ s.keep.thermal.ramping → 43 ≤ d →
      ∃ t, exec (.domainRampDone dom false) s = .next t ∧ t.rbit (aRepDomainHealth d) 2 = true ∧ t.domainOn d = s.domainOn d ∧
        t.wafer = s.wafer ∧ t.con = s.con) ∧
    (∃ t, exec .strapDebugRelease s = .next t ∧ t.keep.pins = { p with debug := false } ∧ t.rbit aKeepStraps 6 = false ∧
      RegsBut s t [aKeepStraps] ∧ t = { s with keep.pins := t.keep.pins, reg.vals := t.reg.vals }) ∧
    exec .pwrGoodAssert s = .next { s with keep.pins.pwrGood := true } ∧
    exec .holdupOkAssert s = .next { s with keep.pins.holdupOk := true }) ∧
  (∀ (s : State) (inTime : Bool),
    let p := s.keep.pins
    let runs := p.keep12v = true ∧ s.order ≠ 0
    let started (c : Instr) (pins : Pins) (cause : BitVec 4) (ms : Nat) (toReset : Bool) : Prop :=
      ∃ t, exec c s = .next t ∧ StopStarted t cause ms toReset ∧ t.keep.pins = pins ∧ Counts s t aPwrStopCnt 1 ∧
        RegsBut s t [aPwrStopCnt, aPwrStopInfo, aThmStatus] ∧ t = { s with keep := t.keep, reg.vals := t.reg.vals }
    let bounds (ms : Nat) : List Nat :=
      if ms = 50 then [100, 30000, 40000, 41000, 50000] else if ms = 20 then [100, 5000, 15000, 16000, 20000]
      else [100, 900000, 950000, 960000, 1000000]
    let due (x : Stop) := x.since + (bounds x.deadline).getD (x.stage - 1) 0
    let shorter (x : Stop) (ms : Nat) : Stop :=
      if s.clock + 1000 * ms < x.since + 1000 * x.deadline then { x with deadline := ms, since := s.clock } else x
    let ended (x : Stop) := inTime = true ∨ due x ≤ s.clock
    let ends (x : Stop) := inTime = true ∧ s.clock ≤ due x
    let info (t : State) (x : Stop) : Prop :=
      (ends x → t.rfld aPwrStopInfo 6 4 = x.stage ∧ t.rbit aPwrStopInfo 7 = s.rbit aPwrStopInfo 7) ∧
      (¬ ends x → t.rbit aPwrStopInfo 7 = true ∧ t.rfld aPwrStopInfo 6 4 = s.rfld aPwrStopInfo 6 4)
    (s.waferOn = true → runs → Quiet s →
      started .pwrGoodDeassert { p with pwrGood := false } 3 20 false ∧ started .mainInputLow p 3 20 false) ∧
    (s.waferOn = false → exec .pwrGoodDeassert s = .next { s with keep.pins.pwrGood := false } ∧ exec .mainInputLow s = .next s) ∧
    (runs → Quiet s → started .stopReqNAssert { p with stopReqN := false } 4 1000 false) ∧
    (¬ runs → exec .stopReqNAssert s = .next { s with keep.pins.stopReqN := false }) ∧
    (p.modResetN = true → runs → Quiet s → started .modResetNAssert { p with modResetN := false } 5 20 true) ∧
    (p.modResetN = false → exec .modResetNAssert s = .next s) ∧
    (p.modResetN = true → ¬ runs → exec .modResetNAssert s = .next { s with keep.pins.modResetN := false }) ∧
    exec .holdupOkDeassert s = .next { s with keep.pins.holdupOk := false } ∧
    (s.keep.stop = none → exec (.stopStageEnd inTime) s = .next s) ∧
    (∀ x, s.keep.stop = some x →
      (¬ ended x → exec (.stopStageEnd inTime) s = .next s) ∧
      (x.stage < 6 → runs →
        (s.waferOn = true → exec .mainInputLow s = .next { s with keep.stop := some (shorter x 20) }) ∧
        (p.modResetN = true → exec .modResetNAssert s = .next { s with
          keep.pins.modResetN := false, keep.stop := some { shorter x 20 with toReset := true } })) ∧
      (6 ≤ x.stage →
        exec (.stopStageEnd inTime) s = .next s ∧
        (p.modResetN = true → runs → ∃ t, exec .modResetNAssert s = .next t ∧ Restarted s t 0 (s.reg64 aLedgCalendar) ∧
          t.keep.pins = { p with modResetN := false, thermTrip := false })) ∧
      (x.stage = 1 → ended x →
        (s.anyRuns = false → ∃ t, exec (.stopStageEnd inTime) s = .next t ∧ t.keep.stop = some { x with stage := 2 } ∧ info t x ∧
          RegsBut s t [aPwrStopInfo] ∧ t = { s with keep.stop := t.keep.stop, reg.vals := t.reg.vals }) ∧
        (∀ d y, s.con.doms = [(d, y)] → y.state = 2 → y.waiting = false →
          ∃ t, exec (.stopStageEnd inTime) s = .next t ∧ t.dom d = { y with stopReq := true } ∧
            t.keep.stop = some { x with stage := 2 } ∧ info t x)) ∧
      (x.stage = 2 → ended x → (ends x ∧ s.anyRuns = true → exec (.stopStageEnd inTime) s = .next s) ∧
        (¬ ends x ∨ s.anyRuns = false → ∃ t, exec (.stopStageEnd inTime) s = .next t ∧
          t.keep.stop = some { x with stage := 3 } ∧ info t x ∧ RegsBut s t [aPwrStopInfo] ∧
          t = { s with keep.stop := t.keep.stop, reg.vals := t.reg.vals })) ∧
      (x.stage = 3 → ended x → s.ledgerRuns = true → s.keep.ledger.journal = [] →
        ∃ t, exec (.stopStageEnd inTime) s = .next t ∧ t.keep.stop = some { x with stage := 4 } ∧ info t x ∧
          Counts s t aLedgFlushCnt (if ends x then 1 else 0) ∧
          (ends x → Recorded t s.keep.ledger.nextSeq 1 (s.summaryBody (!s.rbit aPwrStopInfo 7))) ∧
          (¬ ends x → t.keep.ledger = s.keep.ledger)) ∧
      (x.stage = 4 → ended x → ∃ t, exec (.stopStageEnd inTime) s = .next t ∧ t.keep.stop = some { x with stage := 5 } ∧
        t.rfld aThmFlow 19 10 = 1000 ∧ t.rbit aThmFlow 20 = true) ∧
      (x.stage = 5 → ended x →
        (x.toReset = true → ∃ t, exec (.stopStageEnd inTime) s = .next t ∧ t.order ≤ 1 ∧
          (s.waferOn = false → s.keep.thermal.ramping = [] → t.order = if p.modResetN then 1 else 0) ∧
          t.keep.stop = none ∧ t.con = State.reset.con ∧ t.wafer = { State.reset.wafer with map := s.trust.fuses.tileMap } ∧ t.isReady = false) ∧
        (∀ c, x.toReset = false → x.recovery = some c →
          ∃ t, exec (.stopStageEnd inTime) s = .next t ∧ InRecoveryState t c.toNat) ∧
        (x.toReset = false → x.recovery = none →
          ∃ t, exec (.stopStageEnd inTime) s = .next t ∧ t.keep.stop = some { x with stage := 6 } ∧ t.isReady = false ∧
            t.rbit aThmStatus 6 = false))))

/-! ### Beat mode (R424 to R428) -/

/-- HORIZON_ADVANCE and BEAT_REPORT (R424, R426, R427, R428): once every tile has reported the beat 64 before, the horizon
rises by one and the tiles held for it start; else it stands still and the beat period is counted as stretched, a stretch
once; a marked beat is replayed with the horizon at that beat, and so is the first beat not committed at a report when the
domain itself is marked; a report counts for the beat after the tile's last one; the
beat that every tile has reported commits; frame ends at different beats abort the domain.

With no beat choreography loaded, or its domain not in a step, HORIZON_ADVANCE and BEAT_REPORT change nothing (R424).

The model's own choices it rests on: what a beat replay leaves of later beats (notes/assumptions/29.md). -/
def Obligations.BeatsAdvanceCommitAndReplay : Prop :=
  (∀ (s : State) (d : Nat), s.beatDomain = some d → (s.dom d).state = 2 → s.domInst d = none →
    let x := s.dom d
    let h := s.beat.horizon
    let next := s.beat.committed + 1
    let free (t : Nat) : Prop := t ∈ x.members ∧ kvFind t s.beat.hold = some false ∧ kvGet 0 t s.beat.done ≤ h
    (x.mark = false → (∀ t ∈ x.members, h + 1 ≤ kvGet 0 t s.beat.reported + 64) →
      ∃ u, exec .horizonAdvance s = .next u ∧ u.beat.horizon = h + 1 ∧ u.beat.stretching = false ∧
        (∀ t, free t → u.tile t = { s.tile t with wait := .no } ∧ kvFind t u.beat.hold = none) ∧
        (∀ t, ¬ free t → u.tile t = s.tile t ∧ kvFind t u.beat.hold = kvFind t s.beat.hold) ∧
        u = { s with
          wafer.tiles := u.wafer.tiles
          beat := { s.beat with horizon := h + 1, stretching := false, hold := u.beat.hold } }) ∧
    (x.mark = false → (∃ t ∈ x.members, kvGet 0 t s.beat.reported + 64 < h + 1) →
      ∃ u, exec .horizonAdvance s = .next u ∧ Counts s u aBeatStretchPeriodCnt 1 ∧
        Counts s u aBeatStretchCnt (if s.beat.stretching then 0 else 1) ∧
        RegsBut s u [aBeatStretchCnt, aBeatStretchPeriodCnt] ∧
        u = { s with beat.stretching := true, reg.vals := u.reg.vals }) ∧
    (x.mark = true → s.beat.markedAt ≠ next →
      (∀ t ∈ x.members, (s.tile t).exhausted = false) → x.repairTiles = [] → x.repairArrays = [] →
      ∃ u, exec .horizonAdvance s = .next u ∧ u.beat.horizon = next ∧ u.beat.committed = s.beat.committed ∧
        u.beat.markedAt = next ∧ u.beat.attempt = 1 ∧ (u.dom d).attempt = 1 ∧ (u.dom d).mark = false ∧
        (u.dom d).state = 2 ∧ Counts s u aChoReplayCnt 1 ∧ Counts s u aBeatReplayCnt 1) ∧
    (∀ (tile : TileIx) (mark ends : Bool) (rest : List (Bool × Bool)),
      kvGet [] tile.toNat s.beat.reports = (mark, ends) :: rest →
      let t := tile.toNat
      let n := kvGet 0 t s.beat.reported + 1
      (mark = false → x.mark = false → ends = false → kvGet [] n s.beat.ends = [] → (∃ v ∈ x.members, v ≠ t ∧ kvGet 0 v s.beat.reported < next) →
        ∃ u, exec (.beatReport tile) s = .next u ∧ kvGet 0 t u.beat.reported = n ∧ kvGet [] t u.beat.reports = rest ∧
          (∀ v, v ≠ t → kvGet 0 v u.beat.reported = kvGet 0 v s.beat.reported ∧
            kvGet [] v u.beat.reports = kvGet [] v s.beat.reports) ∧
          u = { s with beat := { s.beat with reported := u.beat.reported, reports := u.beat.reports } }) ∧
      (mark = false → x.mark = false → ends = false → x.members = [t] → n = next → kvGet [] n s.beat.ends = [] →
        ∃ u, exec (.beatReport tile) s = .next u ∧ u.beat.committed = next ∧ kvGet 0 t u.beat.reported = n ∧
          u.beat.horizon = h ∧ (u.dom d).attempt = 0 ∧ OnlyCounter s u aBeatBeatCnt 1 ∧ u.wafer = s.wafer ∧
          u = { s with beat := u.beat, con.doms := u.con.doms, reg.vals := u.reg.vals }) ∧
      (mark = false → x.mark = true → s.beat.markedAt ≠ next → (∀ v ∈ x.members, (s.tile v).exhausted = false) →
        x.repairTiles = [] → x.repairArrays = [] →
        (∀ v ∈ x.members, v ≠ t → n ≤ kvGet 0 v s.beat.reported → (v ∈ kvGet [] n s.beat.ends ↔ ends = true)) →
        ∃ u, exec (.beatReport tile) s = .next u ∧ u.beat.horizon = next ∧ u.beat.committed = s.beat.committed ∧
          u.beat.markedAt = next ∧ u.beat.attempt = 1 ∧ (u.dom d).mark = false ∧ (u.dom d).state = 2 ∧
          Counts s u aChoReplayCnt 1 ∧ Counts s u aBeatReplayCnt 1) ∧
      (∀ v ∈ x.members, v ≠ t → n ≤ kvGet 0 v s.beat.reported → (v ∈ kvGet [] n s.beat.ends ↔ ends = false) →
        ∃ u, exec (.beatReport tile) s = .next u ∧ (u.dom d).state = 4 ∧ Counts s u aChoAbortCnt 1)) ∧
    (∀ tile : TileIx, kvGet [] tile.toNat s.beat.reports = [] → exec (.beatReport tile) s = .next s)) ∧
  (∀ (s : State) (tile : TileIx), (∀ d, s.beatDomain = some d → (s.dom d).state ≠ 2) →
    exec .horizonAdvance s = .next s ∧ exec (.beatReport tile) s = .next s)

/-! ### The words of a step program, time, the memories, and the state after reset (R5, R13, R179 to R198, R303, R304, R373) -/

/-- The words that the spec spells out stand for their instructions (R185, R186, R189, R190, R192), and a word of an
opcode that no instruction has stands for none (R181). -/
def Obligations.WordsOfTheSpecDecode : Prop :=
  ∀ w : At, w.tile.toNat < positions →
    decodeTile w 0x2001_1303_1A28_0000 = some (.mvm w
      { lslot := 17, arr := 3, nch := 0, gsel := 1, gain := 4, autoSplit := false, ofmt := 3, inP := 4, outP := 5 }) ∧
    decodeTile w 0x0211_0800_0000_0000 = some (.loopPset w 1 0x20000 0) ∧
    decodeTile w 0x1031_0000_00C0_2005 = some (.movePut w 1 3 0x2005) ∧
    decodeTile w 0x0180_0400_0000_0000 = some (.bar w true 1) ∧
    decodeTile w 0x0C02_0032_0050_0000 = some (.queueTake w 2 3 0x2005) ∧
    (∀ x : Nat, x / 2 ^ 56 % 256 ∉ [0x00, 0x01, 0x02, 0x08, 0x0C, 0x10, 0x20, 0x21, 0x28, 0x30, 0x38, 0x3C, 0x40] →
      decodeTile w x = none)

/-- Decoding the word of any well-formed tile instruction gives that instruction back, with every operand at every value that
its encoding admits (R179 to R198), and the word has 64 bits. -/
def Obligations.TileWordsDecodeToTheirInstruction : Prop :=
  ∀ (i : Instr) (w : At) (x : Nat), wellFormed i = true → encodeTile i = some (w, x) →
    x < 2 ^ 64 ∧ decodeTile w x = some i

/-- Fabric time (R304, R305, R413): a follower's request waits to leave, a request is answered with T2 and a residence in one slot; t2
and t4 come with the response, and with the residence the follower has its offset from the parent: the first exchange steps
the counter, later ones correct its rate by at most 1 ppm; without a response for 1 s it holds. In mode 0 an epoch edge takes
the counter to the next multiple of 1,000,000 ns, or to that of the epoch number that the manager gives.

With no command waiting, a step is one microsecond of the keeper crystal (the model's choice, notes/assumptions/1.md): the
clock counts it; the fabric counter of a powered module counts 1,000 ns and the rate correction (R304); every 10^6 of them
the calendar counts one second unless it is held still (R373); the watchdog of each domain in a step counts it (R170). With no
load job waiting nothing else changes.

The model's own choices it rests on: a step with no command waiting is one microsecond (notes/assumptions/1.md); the unit of the rate correction (notes/assumptions/87.md); when the counters stand still (notes/assumptions/146.md); what an epoch number is (notes/assumptions/178.md). -/
def Obligations.TimeFollowsCrystalAndParent : Prop :=
  (∀ (s : State) (port : BitVec 7) (src : BitVec 10) (t2 : Word) (res : Half),
    let k := port.toNat
    let p := s.port k
    let own := BitVec.ofNat 10 s.modNumber
    let follows := s.timeMode = 1 ∧ s.isRoot = false
    let t3 := s.fab.syncT2 + BitVec.ofNat 64 res.toNat
    let offset := ((s.fab.syncT2 - s.fab.syncT1).toInt - (s.fab.syncT4 - t3).toInt) / 2
    (follows → portUp p = true → p.class2.length < 64 →
      ∃ t, exec (.syncExchange port) s = .next t ∧
        t.port k = { p with class2 := p.class2 ++ [.sync own (BitVec.ofNat 10 s.timeParent) false 0] } ∧
        (∀ j, j ≠ k → t.port j = s.port j) ∧
        t = { s with fab.ports := t.fab.ports, fab.syncPort := some k }) ∧
    (p.class2.length < 63 →
      ∃ t, exec (.sync port src false t2) s = .next t ∧
        t.port k = { p with class2 := p.class2 ++ [.sync own src true s.fcount, .syncRes own src 0] } ∧
        (∀ j, j ≠ k → t.port j = s.port j) ∧ t = { s with fab.ports := t.fab.ports }) ∧
    (s.timeMode = 1 → s.fab.syncPort = some k →
      exec (.sync port src true t2) s = .next { s with fab.syncT2 := t2, fab.syncT4 := s.fcount }) ∧
    (follows → s.fab.syncPort = some k →
      ∃ t, exec (.syncRes port res) s = .next t ∧ t.rbit aFabTimeCfg 12 = false ∧
        (s.fab.lastSync = 0 → t.fcount = s.fcount + BitVec.ofInt 64 offset ∧ t.fab.rate = s.fab.rate) ∧
        (s.fab.lastSync ≠ 0 → t.fcount = s.fcount ∧
          t.fab.rate = max (-4294) (min 4294 (offset * 2 ^ 32 / 1000000))) ∧
        RegsBut s t [aFabTimeCfg, aFabFcount] ∧
        t = { s with fab.rate := t.fab.rate, fab.lastSync := s.clock, fab.syncPort := none, reg.vals := t.reg.vals }) ∧
    (follows → s.rbit aFabTimeCfg 12 = false → s.fab.lastSync + 1000000 ≤ s.clock →
      ∃ t, exec .holdoverEnter s = .next t ∧ t.rbit aFabTimeCfg 12 = true ∧ Counts s t aFabHoldoverCnt 1 ∧
        RegsBut s t [aFabTimeCfg, aFabHoldoverCnt] ∧ t = { s with reg.vals := t.reg.vals }) ∧
    (s.timeMode = 0 → s.fcount.toNat + 999999 < 2 ^ 64 →
      ∃ t, exec (.rackEpochEdge none) s = .next t ∧ t.fcount.toNat % 1000000 = 0 ∧ s.fcount.toNat ≤ t.fcount.toNat ∧
        t.fcount.toNat < s.fcount.toNat + 1000000 ∧ RegsBut s t [aFabFcount] ∧ t = { s with reg.vals := t.reg.vals }) ∧
    (∀ e : Word, s.timeMode = 0 →
      ∃ t, exec (.rackEpochEdge (some e)) s = .next t ∧ t.fcount = BitVec.ofNat 64 (e.toNat * 1000000) ∧
        RegsBut s t [aFabFcount] ∧ t = { s with reg.vals := t.reg.vals }) ∧
    (s.keep.calOrder ≠ 4 →
      ∃ t, exec .rackRefAbsent s = .next t ∧ t.rbit aCalStatus 3 = true ∧ (s.timeMode = 0 → t.rbit aFabTimeCfg 11 = true) ∧
        RegsBut s t [aCalStatus, aFabTimeCfg] ∧ t.keep = { s.keep with pins := { s.keep.pins with rackRef := false } } ∧
        t = { s with keep := t.keep, reg.vals := t.reg.vals }) ∧
    (s.isReady = true → s.inRecovery = false →
      ∃ t, exec .rackRefRestored s = .next t ∧ t.rbit aCalStatus 3 = false ∧ (s.timeMode = 0 → t.rbit aFabTimeCfg 11 = false) ∧
        RegsBut s t [aCalStatus, aFabTimeCfg] ∧ t.keep = { s.keep with pins := { s.keep.pins with rackRef := true } } ∧
        t = { s with keep := t.keep, reg.vals := t.reg.vals })) ∧
  (∀ s : State, s.pending = [] → (∃ t, step s = .next t) ∧ (s.load.jobs = [] →
    ∃ t, step s = .next t ∧ t.clock = s.clock + 1 ∧
      (s.anyCluster = true →
        t.fcount = s.fcount + 1000 + BitVec.ofInt 64 ((s.fab.frac + 1000 * s.fab.rate) / 2 ^ 32)) ∧
      (s.anyCluster = false → t.fcount = s.fcount ∧ t.fab = s.fab) ∧
      ((s.clock + 1) % 1000000 = 0 → s.keep.pins.keep12v = true → s.keep.ledger.calHold = 0 →
        t.reg64 aLedgCalendar = s.reg64 aLedgCalendar + 1) ∧
      ((s.clock + 1) % 1000000 = 0 → s.keep.pins.keep12v = true → s.keep.ledger.calHold ≠ 0 →
        t.reg64 aLedgCalendar = s.reg64 aLedgCalendar ∧ t.keep.ledger.calHold = s.keep.ledger.calHold - 1) ∧
      ((s.clock + 1) % 1000000 ≠ 0 ∨ s.keep.pins.keep12v = false → t.reg64 aLedgCalendar = s.reg64 aLedgCalendar ∧ t.keep = s.keep) ∧
      (kvRising s.con.doms = true → ∀ e ∈ s.con.doms,
        kvGet 0 e.1 t.watch = kvGet 0 e.1 s.watch + (if s.watchRuns e.2 then 1 else 0)) ∧
      (∀ d, d ∉ s.con.doms.map Prod.fst → kvGet 0 d t.watch = kvGet 0 d s.watch) ∧
      RegsBut s t [aFabFcount, aLedgCalendar] ∧
      t = { s with
            clock := t.clock, watch := t.watch, reg.vals := t.reg.vals, fab.frac := t.fab.frac
            keep.ledger.calHold := t.keep.ledger.calHold }))

/-- The memories of the module are in canonical form: the scratches, the stacks and the cluster memories list no zero byte, the
configuration flash no erased byte, each in rising order of its addresses. -/
def Sys2Proof.Machine.MemoriesCanonical (s : State) : Prop :=
  Memory.wf 0 s.wafer.scratch = true ∧ Memory.wf 0 s.mem.stack = true ∧ Memory.wf 0 s.mem.sram = true ∧
  Memory.wf 0xFF s.trust.flash = true

/-- Every step keeps the memories canonical, whatever command it runs: equal memories are equal data. -/
def Obligations.EveryStepKeepsTheMemoriesCanonical : Prop :=
  ∀ s t : State, MemoriesCanonical s → step s = .next t → MemoriesCanonical t

/-- The state after reset (R13, R171, R250, R251, R258, R291, R295, R328, R393, R405, R420): no command waits, the start sequence has
not begun, no domain, job or request exists, the memories are canonical, every counter is zero, and the registers hold
the values the spec gives; no read of memory finds a written byte (unwritten bytes: notes/assumptions/4.md).

The model's own choices it rests on: unwritten memory reads 0 (notes/assumptions/4.md). -/
def Obligations.ResetLeavesTheStatedValues : Prop :=
  let s := State.reset
  s.pending = [] ∧ s.con.doms = [] ∧ s.con.chos = [] ∧ s.load.jobs = [] ∧ s.srv.seqs = [] ∧ s.fab.ctab = [] ∧
  s.trust.frozen = [] ∧ s.keep.ledger.journal = [] ∧ MemoriesCanonical s ∧
  s.rfld aKeepState 4 0 = 0 ∧ s.rfld aChoStallLimit 19 0 = 2000 ∧ s.rfld aPwrCap 15 0 = 15500 ∧ s.rfld aPwrCap 25 16 = 620 ∧
  s.rfld aPwrPower 25 16 = 850 ∧ s.rfld aSrvCtrl 15 0 = 1000 ∧ s.reg64 aFabRcompTmo = 10 ∧ s.reg64 aFabWinCloseTmo = 10 ∧
  (∀ c ∈ [aChoCommitCnt, aChoReplayCnt, aChoAbortCnt, aChoStallCnt, aChoViolCnt, aDbgHazCnt, aHostAccErrCnt, aBeatBeatCnt,
      aBeatReplayCnt, aSrvSeqEndCnt, aRepPatrolCnt, aThmFlowLowCnt, aThmValveRejectCnt, aPwrStopCnt], s.reg64 c = 0) ∧
  (∀ k, k < positions → s.reg64 (aCimwPassCnt k) = 0 ∧ s.reg64 (aTilewScrParityErrCnt k) = 0)
end

