-- ==== Sys2Proof/Laws/Memory.lean ====
section
/-! SUPPORT. The laws of sparse tables and memories: what is read after a write, and that every operation keeps the canonical form. -/

namespace Sys2Proof.Machine

/-! ### Sparse tables -/

theorem kvRising_iff {α : Type} (m : KV α) : kvRising m = true ↔ m.Pairwise (fun x y => x.1 < y.1) := by
  induction m with
  | nil => simp [kvRising]
  | cons x r ih =>
    cases r with
    | nil => simp [kvRising]
    | cons y r =>
      simp only [kvRising, Bool.and_eq_true, decide_eq_true_eq, ih, List.pairwise_cons, List.mem_cons, forall_eq_or_imp]
      constructor
      · rintro ⟨h, hy, hr⟩
        exact ⟨⟨h, fun z hz => Nat.lt_trans h (hy z hz)⟩, hy, hr⟩
      · rintro ⟨⟨h, _⟩, hy, hr⟩
        exact ⟨h, hy, hr⟩

theorem kvWf_iff {α : Type} [DecidableEq α] (d : α) (m : KV α) :
    kvWf d m = true ↔ m.Pairwise (fun x y => x.1 < y.1) ∧ ∀ e ∈ m, e.2 ≠ d := by
  simp [kvWf, kvRising_iff]

theorem mem_kvSet {α : Type} {k : Nat} {v : α} {m : KV α} {e : Nat × α} (h : e ∈ kvSet k v m) : e = (k, v) ∨ e ∈ m := by
  induction m with
  | nil => simpa [kvSet] using h
  | cons x r ih =>
    simp only [kvSet] at h
    split at h
    · simpa using h
    · split at h
      · rcases List.mem_cons.1 h with h | h
        · exact .inl h
        · exact .inr (List.mem_cons_of_mem _ h)
      · rcases List.mem_cons.1 h with h | h
        · exact .inr (by simp [h])
        · rcases ih h with h | h
          · exact .inl h
          · exact .inr (List.mem_cons_of_mem _ h)

theorem kvSet_pairwise {α : Type} (k : Nat) (v : α) {m : KV α} (h : m.Pairwise (fun x y => x.1 < y.1)) :
    (kvSet k v m).Pairwise (fun x y => x.1 < y.1) := by
  induction m with
  | nil => simp [kvSet]
  | cons x r ih =>
    obtain ⟨hx, hr⟩ := List.pairwise_cons.1 h
    simp only [kvSet]
    split
    · rename_i hk
      exact List.pairwise_cons.2 ⟨fun y hy => by
        rcases List.mem_cons.1 hy with rfl | hy
        · exact hk
        · exact Nat.lt_trans hk (hx y hy), h⟩
    · split
      · rename_i hk
        subst hk
        exact List.pairwise_cons.2 ⟨hx, hr⟩
      · rename_i hk hne
        refine List.pairwise_cons.2 ⟨fun y hy => ?_, ih hr⟩
        rcases mem_kvSet hy with rfl | hy
        · simp only
          omega
        · exact hx y hy

theorem kvFind_kvSet_same {α : Type} (k : Nat) (v : α) (m : KV α) : kvFind k (kvSet k v m) = some v := by
  induction m with
  | nil => simp [kvSet, kvFind]
  | cons x r ih =>
    simp only [kvSet]
    split
    · simp [kvFind]
    · split
      · simp [kvFind]
      · rename_i hne
        simp [kvFind, Ne.symm hne, ih]

theorem kvFind_kvSet_other {α : Type} {j k : Nat} (h : j ≠ k) (v : α) (m : KV α) : kvFind j (kvSet k v m) = kvFind j m := by
  induction m with
  | nil => simp [kvSet, kvFind, Ne.symm h]
  | cons x r ih =>
    simp only [kvSet]
    split
    · simp [kvFind, Ne.symm h]
    · split
      · rename_i hk
        subst hk
        simp [kvFind, Ne.symm h]
      · simp [kvFind, ih]

theorem kvFind_filter {α : Type} (p : Nat × α → Bool) (k : Nat) (m : KV α) (hp : ∀ v, p (k, v) = true) :
    kvFind k (m.filter p) = kvFind k m := by
  induction m with
  | nil => rfl
  | cons x r ih =>
    obtain ⟨i, w⟩ := x
    by_cases hi : i = k
    · subst hi
      simp [List.filter, hp, kvFind]
    · by_cases hx : p (i, w) = true <;> simp [List.filter, hx, kvFind, hi, ih]

theorem kvFind_kvDel_same {α : Type} (k : Nat) (m : KV α) : kvFind k (kvDel k m) = none := by
  induction m with
  | nil => rfl
  | cons x r ih =>
    obtain ⟨i, w⟩ := x
    by_cases hi : i = k
    · subst hi
      simpa [kvDel, List.filter] using ih
    · have : kvDel k ((i, w) :: r) = (i, w) :: kvDel k r := by simp [kvDel, hi]
      rw [this]
      simp [kvFind, hi, ih]

theorem kvFind_kvDel_other {α : Type} {j k : Nat} (h : j ≠ k) (m : KV α) : kvFind j (kvDel k m) = kvFind j m :=
  kvFind_filter _ _ _ (by simp [h])

@[simp] theorem kvGet_kvSet_same {α : Type} (d : α) (k : Nat) (v : α) (m : KV α) : kvGet d k (kvSet k v m) = v := by
  simp [kvGet, kvFind_kvSet_same]

theorem kvGet_kvSet_other {α : Type} (d : α) {j k : Nat} (h : j ≠ k) (v : α) (m : KV α) : kvGet d j (kvSet k v m) = kvGet d j m := by
  simp [kvGet, kvFind_kvSet_other h]

@[simp] theorem kvGet_kvPut_same {α : Type} [DecidableEq α] (d : α) (k : Nat) (v : α) (m : KV α) : kvGet d k (kvPut d k v m) = v := by
  unfold kvPut
  split
  · rename_i h
    simp [kvGet, kvFind_kvDel_same, h]
  · simp

theorem kvGet_kvPut_other {α : Type} [DecidableEq α] (d e : α) {j k : Nat} (h : j ≠ k) (v : α) (m : KV α) :
    kvGet e j (kvPut d k v m) = kvGet e j m := by
  unfold kvPut
  split
  · simp [kvGet, kvFind_kvDel_other h]
  · exact kvGet_kvSet_other e h v m

theorem kvWf_filter {α : Type} [DecidableEq α] (d : α) (p : Nat × α → Bool) {m : KV α} (h : kvWf d m = true) : kvWf d (m.filter p) = true := by
  rw [kvWf_iff] at *
  exact ⟨h.1.filter p, fun e he => h.2 e (List.mem_filter.1 he).1⟩

theorem kvWf_kvDel {α : Type} [DecidableEq α] (d : α) (k : Nat) {m : KV α} (h : kvWf d m = true) : kvWf d (kvDel k m) = true := kvWf_filter d _ h

theorem kvWf_kvSet {α : Type} [DecidableEq α] (d : α) (k : Nat) {v : α} {m : KV α} (hv : v ≠ d) (h : kvWf d m = true) :
    kvWf d (kvSet k v m) = true := by
  rw [kvWf_iff] at *
  refine ⟨kvSet_pairwise k v h.1, fun e he => ?_⟩
  rcases mem_kvSet he with rfl | he
  · exact hv
  · exact h.2 e he

theorem kvWf_kvPut {α : Type} [DecidableEq α] (d : α) (k : Nat) (v : α) {m : KV α} (h : kvWf d m = true) :
    kvWf d (kvPut d k v m) = true := by
  unfold kvPut
  split
  · exact kvWf_kvDel d k h
  · rename_i hv
    exact kvWf_kvSet d k hv h

theorem kvWf_kvMap {α : Type} [DecidableEq α] (d : α) (f : Nat → α → α) {m : KV α} (h : kvWf d m = true) : kvWf d (kvMap d f m) = true := by
  rw [kvWf_iff] at *
  refine ⟨List.Pairwise.filter _ (List.pairwise_map.2 (h.1.imp (fun hxy => hxy))), fun e he => ?_⟩
  simpa using (List.mem_filter.1 he).2

/-! ### Memories -/

@[simp] theorem memGet_memPut_same (d : Byte) (a : Nat) (b : Byte) (m : Memory) : memGet d a (memPut d a b m) = b := kvGet_kvPut_same ..

theorem memGet_memPut_other (d : Byte) {x a : Nat} (h : x ≠ a) (b : Byte) (m : Memory) : memGet d x (memPut d a b m) = memGet d x m :=
  kvGet_kvPut_other d d h b m

theorem wf_memPut (d : Byte) (a : Nat) (b : Byte) {m : Memory} (h : Memory.wf d m = true) : Memory.wf d (memPut d a b m) = true :=
  kvWf_kvPut d a b h

theorem wf_memWrite (d : Byte) (a : Nat) (bs : List Byte) {m : Memory} (h : Memory.wf d m = true) :
    Memory.wf d (memWrite d a bs m) = true := by
  induction bs generalizing a m with
  | nil => exact h
  | cons b r ih => exact ih (a + 1) (wf_memPut d a b h)

theorem wf_memClear (d : Byte) (a n : Nat) {m : Memory} (h : Memory.wf d m = true) : Memory.wf d (memClear a n m) = true :=
  kvWf_filter d _ h

/-- A write leaves every byte outside its range alone. -/
theorem memGet_memWrite_outside (d : Byte) {x a : Nat} (bs : List Byte) (m : Memory) (h : x < a ∨ a + bs.length ≤ x) :
    memGet d x (memWrite d a bs m) = memGet d x m := by
  induction bs generalizing a m with
  | nil => rfl
  | cons b r ih =>
    simp only [List.length_cons] at h
    rw [memWrite, ih _ (by omega), memGet_memPut_other d (by omega)]

/-- A write is read back where it was made. -/
theorem memGet_memWrite_inside (d : Byte) (a : Nat) (bs : List Byte) (m : Memory) (i : Nat) (h : i < bs.length) :
    memGet d (a + i) (memWrite d a bs m) = bs[i] := by
  induction bs generalizing a m i with
  | nil => simp at h
  | cons b r ih =>
    cases i with
    | zero =>
      rw [memWrite, memGet_memWrite_outside d r _ (by omega)]
      simp
    | succ i =>
      have := ih (a + 1) (memPut d a b m) i (by simpa using h)
      rw [memWrite, show a + (i + 1) = a + 1 + i by omega, this]
      simp

theorem length_memRead (d : Byte) (a n : Nat) (m : Memory) : (memRead d a n m).length = n := by
  induction n generalizing a with
  | zero => rfl
  | succ n ih => simp [memRead, ih]

theorem memRead_memWrite (d : Byte) (a : Nat) (bs : List Byte) (m : Memory) : memRead d a bs.length (memWrite d a bs m) = bs := by
  induction bs generalizing a m with
  | nil => rfl
  | cons b r ih =>
    simp only [List.length_cons, memRead, memWrite]
    rw [ih, memGet_memWrite_outside d r _ (by omega)]
    simp

end Sys2Proof.Machine
end

