-- ==== Sys2Proof/Laws/State.lean ====
section
/-! SUPPORT. What each of the small updates of State leaves as it was, what it reads back, and the counters. -/

namespace Sys2Proof.Machine

variable (s : State)

/-! ### setReg -/

@[simp] theorem setReg_pending (a : Nat) (w : Word) : (s.setReg a w).pending = s.pending := rfl
@[simp] theorem setReg_freeCtr (a : Nat) (w : Word) : (s.setReg a w).freeCtr = s.freeCtr := rfl
@[simp] theorem setReg_clock (a : Nat) (w : Word) : (s.setReg a w).clock = s.clock := rfl
@[simp] theorem setReg_watch (a : Nat) (w : Word) : (s.setReg a w).watch = s.watch := rfl
@[simp] theorem setReg_ideLost (a : Nat) (w : Word) : (s.setReg a w).ideLost = s.ideLost := rfl
@[simp] theorem setReg_resp (a : Nat) (w : Word) : (s.setReg a w).resp = s.resp := rfl
@[simp] theorem setReg_wafer (a : Nat) (w : Word) : (s.setReg a w).wafer = s.wafer := rfl
@[simp] theorem setReg_arr (a : Nat) (w : Word) : (s.setReg a w).arr = s.arr := rfl
@[simp] theorem setReg_con (a : Nat) (w : Word) : (s.setReg a w).con = s.con := rfl
@[simp] theorem setReg_mem (a : Nat) (w : Word) : (s.setReg a w).mem = s.mem := rfl
@[simp] theorem setReg_load (a : Nat) (w : Word) : (s.setReg a w).load = s.load := rfl
@[simp] theorem setReg_srv (a : Nat) (w : Word) : (s.setReg a w).srv = s.srv := rfl
@[simp] theorem setReg_fab (a : Nat) (w : Word) : (s.setReg a w).fab = s.fab := rfl
@[simp] theorem setReg_trust (a : Nat) (w : Word) : (s.setReg a w).trust = s.trust := rfl
@[simp] theorem setReg_keep (a : Nat) (w : Word) : (s.setReg a w).keep = s.keep := rfl
@[simp] theorem setReg_beat (a : Nat) (w : Word) : (s.setReg a w).beat = s.beat := rfl
@[simp] theorem setReg_dbg (a : Nat) (w : Word) : (s.setReg a w).dbg = s.dbg := rfl
@[simp] theorem setReg_reg_staged (a : Nat) (w : Word) : (s.setReg a w).reg.staged = s.reg.staged := rfl
@[simp] theorem setReg_reg_committed (a : Nat) (w : Word) : (s.setReg a w).reg.committed = s.reg.committed := rfl

/-! ### answer -/

@[simp] theorem answer_pending (n : Nat) (l : List Byte) : (s.answer n l).pending = s.pending := rfl
@[simp] theorem answer_freeCtr (n : Nat) (l : List Byte) : (s.answer n l).freeCtr = s.freeCtr := rfl
@[simp] theorem answer_clock (n : Nat) (l : List Byte) : (s.answer n l).clock = s.clock := rfl
@[simp] theorem answer_watch (n : Nat) (l : List Byte) : (s.answer n l).watch = s.watch := rfl
@[simp] theorem answer_ideLost (n : Nat) (l : List Byte) : (s.answer n l).ideLost = s.ideLost := rfl
@[simp] theorem answer_reg (n : Nat) (l : List Byte) : (s.answer n l).reg = s.reg := rfl
@[simp] theorem answer_wafer (n : Nat) (l : List Byte) : (s.answer n l).wafer = s.wafer := rfl
@[simp] theorem answer_arr (n : Nat) (l : List Byte) : (s.answer n l).arr = s.arr := rfl
@[simp] theorem answer_con (n : Nat) (l : List Byte) : (s.answer n l).con = s.con := rfl
@[simp] theorem answer_mem (n : Nat) (l : List Byte) : (s.answer n l).mem = s.mem := rfl
@[simp] theorem answer_load (n : Nat) (l : List Byte) : (s.answer n l).load = s.load := rfl
@[simp] theorem answer_srv (n : Nat) (l : List Byte) : (s.answer n l).srv = s.srv := rfl
@[simp] theorem answer_fab (n : Nat) (l : List Byte) : (s.answer n l).fab = s.fab := rfl
@[simp] theorem answer_trust (n : Nat) (l : List Byte) : (s.answer n l).trust = s.trust := rfl
@[simp] theorem answer_keep (n : Nat) (l : List Byte) : (s.answer n l).keep = s.keep := rfl
@[simp] theorem answer_beat (n : Nat) (l : List Byte) : (s.answer n l).beat = s.beat := rfl
@[simp] theorem answer_dbg (n : Nat) (l : List Byte) : (s.answer n l).dbg = s.dbg := rfl

/-! ### tickFree -/

@[simp] theorem tickFree_pending : (s.tickFree).pending = s.pending := rfl
@[simp] theorem tickFree_clock : (s.tickFree).clock = s.clock := rfl
@[simp] theorem tickFree_watch : (s.tickFree).watch = s.watch := rfl
@[simp] theorem tickFree_ideLost : (s.tickFree).ideLost = s.ideLost := rfl
@[simp] theorem tickFree_resp : (s.tickFree).resp = s.resp := rfl
@[simp] theorem tickFree_reg : (s.tickFree).reg = s.reg := rfl
@[simp] theorem tickFree_wafer : (s.tickFree).wafer = s.wafer := rfl
@[simp] theorem tickFree_arr : (s.tickFree).arr = s.arr := rfl
@[simp] theorem tickFree_con : (s.tickFree).con = s.con := rfl
@[simp] theorem tickFree_mem : (s.tickFree).mem = s.mem := rfl
@[simp] theorem tickFree_load : (s.tickFree).load = s.load := rfl
@[simp] theorem tickFree_srv : (s.tickFree).srv = s.srv := rfl
@[simp] theorem tickFree_fab : (s.tickFree).fab = s.fab := rfl
@[simp] theorem tickFree_trust : (s.tickFree).trust = s.trust := rfl
@[simp] theorem tickFree_keep : (s.tickFree).keep = s.keep := rfl
@[simp] theorem tickFree_beat : (s.tickFree).beat = s.beat := rfl
@[simp] theorem tickFree_dbg : (s.tickFree).dbg = s.dbg := rfl

/-! ### setTile -/

@[simp] theorem setTile_pending (t : Nat) (x : Tile) : (s.setTile t x).pending = s.pending := rfl
@[simp] theorem setTile_freeCtr (t : Nat) (x : Tile) : (s.setTile t x).freeCtr = s.freeCtr := rfl
@[simp] theorem setTile_clock (t : Nat) (x : Tile) : (s.setTile t x).clock = s.clock := rfl
@[simp] theorem setTile_watch (t : Nat) (x : Tile) : (s.setTile t x).watch = s.watch := rfl
@[simp] theorem setTile_ideLost (t : Nat) (x : Tile) : (s.setTile t x).ideLost = s.ideLost := rfl
@[simp] theorem setTile_resp (t : Nat) (x : Tile) : (s.setTile t x).resp = s.resp := rfl
@[simp] theorem setTile_reg (t : Nat) (x : Tile) : (s.setTile t x).reg = s.reg := rfl
@[simp] theorem setTile_arr (t : Nat) (x : Tile) : (s.setTile t x).arr = s.arr := rfl
@[simp] theorem setTile_con (t : Nat) (x : Tile) : (s.setTile t x).con = s.con := rfl
@[simp] theorem setTile_mem (t : Nat) (x : Tile) : (s.setTile t x).mem = s.mem := rfl
@[simp] theorem setTile_load (t : Nat) (x : Tile) : (s.setTile t x).load = s.load := rfl
@[simp] theorem setTile_srv (t : Nat) (x : Tile) : (s.setTile t x).srv = s.srv := rfl
@[simp] theorem setTile_fab (t : Nat) (x : Tile) : (s.setTile t x).fab = s.fab := rfl
@[simp] theorem setTile_trust (t : Nat) (x : Tile) : (s.setTile t x).trust = s.trust := rfl
@[simp] theorem setTile_keep (t : Nat) (x : Tile) : (s.setTile t x).keep = s.keep := rfl
@[simp] theorem setTile_beat (t : Nat) (x : Tile) : (s.setTile t x).beat = s.beat := rfl
@[simp] theorem setTile_dbg (t : Nat) (x : Tile) : (s.setTile t x).dbg = s.dbg := rfl
@[simp] theorem setTile_wafer_map (t : Nat) (x : Tile) : (s.setTile t x).wafer.map = s.wafer.map := rfl
@[simp] theorem setTile_wafer_scratch (t : Nat) (x : Tile) : (s.setTile t x).wafer.scratch = s.wafer.scratch := rfl
@[simp] theorem setTile_wafer_scratchBad (t : Nat) (x : Tile) : (s.setTile t x).wafer.scratchBad = s.wafer.scratchBad := rfl
@[simp] theorem setTile_wafer_links (t : Nat) (x : Tile) : (s.setTile t x).wafer.links = s.wafer.links := rfl
@[simp] theorem setTile_wafer_outputs (t : Nat) (x : Tile) : (s.setTile t x).wafer.outputs = s.wafer.outputs := rfl
@[simp] theorem setTile_wafer_base (t : Nat) (x : Tile) : (s.setTile t x).wafer.base = s.wafer.base := rfl
@[simp] theorem setTile_wafer_signals (t : Nat) (x : Tile) : (s.setTile t x).wafer.signals = s.wafer.signals := rfl

/-! ### setMap -/

@[simp] theorem setMap_pending (t v : Nat) : (s.setMap t v).pending = s.pending := rfl
@[simp] theorem setMap_freeCtr (t v : Nat) : (s.setMap t v).freeCtr = s.freeCtr := rfl
@[simp] theorem setMap_clock (t v : Nat) : (s.setMap t v).clock = s.clock := rfl
@[simp] theorem setMap_watch (t v : Nat) : (s.setMap t v).watch = s.watch := rfl
@[simp] theorem setMap_ideLost (t v : Nat) : (s.setMap t v).ideLost = s.ideLost := rfl
@[simp] theorem setMap_resp (t v : Nat) : (s.setMap t v).resp = s.resp := rfl
@[simp] theorem setMap_reg (t v : Nat) : (s.setMap t v).reg = s.reg := rfl
@[simp] theorem setMap_arr (t v : Nat) : (s.setMap t v).arr = s.arr := rfl
@[simp] theorem setMap_con (t v : Nat) : (s.setMap t v).con = s.con := rfl
@[simp] theorem setMap_mem (t v : Nat) : (s.setMap t v).mem = s.mem := rfl
@[simp] theorem setMap_load (t v : Nat) : (s.setMap t v).load = s.load := rfl
@[simp] theorem setMap_srv (t v : Nat) : (s.setMap t v).srv = s.srv := rfl
@[simp] theorem setMap_fab (t v : Nat) : (s.setMap t v).fab = s.fab := rfl
@[simp] theorem setMap_trust (t v : Nat) : (s.setMap t v).trust = s.trust := rfl
@[simp] theorem setMap_keep (t v : Nat) : (s.setMap t v).keep = s.keep := rfl
@[simp] theorem setMap_beat (t v : Nat) : (s.setMap t v).beat = s.beat := rfl
@[simp] theorem setMap_dbg (t v : Nat) : (s.setMap t v).dbg = s.dbg := rfl
@[simp] theorem setMap_wafer_tiles (t v : Nat) : (s.setMap t v).wafer.tiles = s.wafer.tiles := rfl
@[simp] theorem setMap_wafer_scratch (t v : Nat) : (s.setMap t v).wafer.scratch = s.wafer.scratch := rfl
@[simp] theorem setMap_wafer_scratchBad (t v : Nat) : (s.setMap t v).wafer.scratchBad = s.wafer.scratchBad := rfl
@[simp] theorem setMap_wafer_links (t v : Nat) : (s.setMap t v).wafer.links = s.wafer.links := rfl
@[simp] theorem setMap_wafer_outputs (t v : Nat) : (s.setMap t v).wafer.outputs = s.wafer.outputs := rfl
@[simp] theorem setMap_wafer_base (t v : Nat) : (s.setMap t v).wafer.base = s.wafer.base := rfl
@[simp] theorem setMap_wafer_signals (t v : Nat) : (s.setMap t v).wafer.signals = s.wafer.signals := rfl

/-! ### setLink -/

@[simp] theorem setLink_pending (k : Nat) (x : Link) : (s.setLink k x).pending = s.pending := rfl
@[simp] theorem setLink_freeCtr (k : Nat) (x : Link) : (s.setLink k x).freeCtr = s.freeCtr := rfl
@[simp] theorem setLink_clock (k : Nat) (x : Link) : (s.setLink k x).clock = s.clock := rfl
@[simp] theorem setLink_watch (k : Nat) (x : Link) : (s.setLink k x).watch = s.watch := rfl
@[simp] theorem setLink_ideLost (k : Nat) (x : Link) : (s.setLink k x).ideLost = s.ideLost := rfl
@[simp] theorem setLink_resp (k : Nat) (x : Link) : (s.setLink k x).resp = s.resp := rfl
@[simp] theorem setLink_reg (k : Nat) (x : Link) : (s.setLink k x).reg = s.reg := rfl
@[simp] theorem setLink_arr (k : Nat) (x : Link) : (s.setLink k x).arr = s.arr := rfl
@[simp] theorem setLink_con (k : Nat) (x : Link) : (s.setLink k x).con = s.con := rfl
@[simp] theorem setLink_mem (k : Nat) (x : Link) : (s.setLink k x).mem = s.mem := rfl
@[simp] theorem setLink_load (k : Nat) (x : Link) : (s.setLink k x).load = s.load := rfl
@[simp] theorem setLink_srv (k : Nat) (x : Link) : (s.setLink k x).srv = s.srv := rfl
@[simp] theorem setLink_fab (k : Nat) (x : Link) : (s.setLink k x).fab = s.fab := rfl
@[simp] theorem setLink_trust (k : Nat) (x : Link) : (s.setLink k x).trust = s.trust := rfl
@[simp] theorem setLink_keep (k : Nat) (x : Link) : (s.setLink k x).keep = s.keep := rfl
@[simp] theorem setLink_beat (k : Nat) (x : Link) : (s.setLink k x).beat = s.beat := rfl
@[simp] theorem setLink_dbg (k : Nat) (x : Link) : (s.setLink k x).dbg = s.dbg := rfl
@[simp] theorem setLink_wafer_map (k : Nat) (x : Link) : (s.setLink k x).wafer.map = s.wafer.map := rfl
@[simp] theorem setLink_wafer_tiles (k : Nat) (x : Link) : (s.setLink k x).wafer.tiles = s.wafer.tiles := rfl
@[simp] theorem setLink_wafer_scratch (k : Nat) (x : Link) : (s.setLink k x).wafer.scratch = s.wafer.scratch := rfl
@[simp] theorem setLink_wafer_scratchBad (k : Nat) (x : Link) : (s.setLink k x).wafer.scratchBad = s.wafer.scratchBad := rfl
@[simp] theorem setLink_wafer_outputs (k : Nat) (x : Link) : (s.setLink k x).wafer.outputs = s.wafer.outputs := rfl
@[simp] theorem setLink_wafer_base (k : Nat) (x : Link) : (s.setLink k x).wafer.base = s.wafer.base := rfl
@[simp] theorem setLink_wafer_signals (k : Nat) (x : Link) : (s.setLink k x).wafer.signals = s.wafer.signals := rfl

/-! ### setOutp -/

@[simp] theorem setOutp_pending (k : Nat) (x : Output) : (s.setOutp k x).pending = s.pending := rfl
@[simp] theorem setOutp_freeCtr (k : Nat) (x : Output) : (s.setOutp k x).freeCtr = s.freeCtr := rfl
@[simp] theorem setOutp_clock (k : Nat) (x : Output) : (s.setOutp k x).clock = s.clock := rfl
@[simp] theorem setOutp_watch (k : Nat) (x : Output) : (s.setOutp k x).watch = s.watch := rfl
@[simp] theorem setOutp_ideLost (k : Nat) (x : Output) : (s.setOutp k x).ideLost = s.ideLost := rfl
@[simp] theorem setOutp_resp (k : Nat) (x : Output) : (s.setOutp k x).resp = s.resp := rfl
@[simp] theorem setOutp_reg (k : Nat) (x : Output) : (s.setOutp k x).reg = s.reg := rfl
@[simp] theorem setOutp_arr (k : Nat) (x : Output) : (s.setOutp k x).arr = s.arr := rfl
@[simp] theorem setOutp_con (k : Nat) (x : Output) : (s.setOutp k x).con = s.con := rfl
@[simp] theorem setOutp_mem (k : Nat) (x : Output) : (s.setOutp k x).mem = s.mem := rfl
@[simp] theorem setOutp_load (k : Nat) (x : Output) : (s.setOutp k x).load = s.load := rfl
@[simp] theorem setOutp_srv (k : Nat) (x : Output) : (s.setOutp k x).srv = s.srv := rfl
@[simp] theorem setOutp_fab (k : Nat) (x : Output) : (s.setOutp k x).fab = s.fab := rfl
@[simp] theorem setOutp_trust (k : Nat) (x : Output) : (s.setOutp k x).trust = s.trust := rfl
@[simp] theorem setOutp_keep (k : Nat) (x : Output) : (s.setOutp k x).keep = s.keep := rfl
@[simp] theorem setOutp_beat (k : Nat) (x : Output) : (s.setOutp k x).beat = s.beat := rfl
@[simp] theorem setOutp_dbg (k : Nat) (x : Output) : (s.setOutp k x).dbg = s.dbg := rfl
@[simp] theorem setOutp_wafer_map (k : Nat) (x : Output) : (s.setOutp k x).wafer.map = s.wafer.map := rfl
@[simp] theorem setOutp_wafer_tiles (k : Nat) (x : Output) : (s.setOutp k x).wafer.tiles = s.wafer.tiles := rfl
@[simp] theorem setOutp_wafer_scratch (k : Nat) (x : Output) : (s.setOutp k x).wafer.scratch = s.wafer.scratch := rfl
@[simp] theorem setOutp_wafer_scratchBad (k : Nat) (x : Output) : (s.setOutp k x).wafer.scratchBad = s.wafer.scratchBad := rfl
@[simp] theorem setOutp_wafer_links (k : Nat) (x : Output) : (s.setOutp k x).wafer.links = s.wafer.links := rfl
@[simp] theorem setOutp_wafer_base (k : Nat) (x : Output) : (s.setOutp k x).wafer.base = s.wafer.base := rfl
@[simp] theorem setOutp_wafer_signals (k : Nat) (x : Output) : (s.setOutp k x).wafer.signals = s.wafer.signals := rfl

/-! ### setArray -/

@[simp] theorem setArray_pending (t p : Nat) (x : ArrayRec) : (s.setArray t p x).pending = s.pending := rfl
@[simp] theorem setArray_freeCtr (t p : Nat) (x : ArrayRec) : (s.setArray t p x).freeCtr = s.freeCtr := rfl
@[simp] theorem setArray_clock (t p : Nat) (x : ArrayRec) : (s.setArray t p x).clock = s.clock := rfl
@[simp] theorem setArray_watch (t p : Nat) (x : ArrayRec) : (s.setArray t p x).watch = s.watch := rfl
@[simp] theorem setArray_ideLost (t p : Nat) (x : ArrayRec) : (s.setArray t p x).ideLost = s.ideLost := rfl
@[simp] theorem setArray_resp (t p : Nat) (x : ArrayRec) : (s.setArray t p x).resp = s.resp := rfl
@[simp] theorem setArray_reg (t p : Nat) (x : ArrayRec) : (s.setArray t p x).reg = s.reg := rfl
@[simp] theorem setArray_wafer (t p : Nat) (x : ArrayRec) : (s.setArray t p x).wafer = s.wafer := rfl
@[simp] theorem setArray_con (t p : Nat) (x : ArrayRec) : (s.setArray t p x).con = s.con := rfl
@[simp] theorem setArray_mem (t p : Nat) (x : ArrayRec) : (s.setArray t p x).mem = s.mem := rfl
@[simp] theorem setArray_load (t p : Nat) (x : ArrayRec) : (s.setArray t p x).load = s.load := rfl
@[simp] theorem setArray_srv (t p : Nat) (x : ArrayRec) : (s.setArray t p x).srv = s.srv := rfl
@[simp] theorem setArray_fab (t p : Nat) (x : ArrayRec) : (s.setArray t p x).fab = s.fab := rfl
@[simp] theorem setArray_trust (t p : Nat) (x : ArrayRec) : (s.setArray t p x).trust = s.trust := rfl
@[simp] theorem setArray_keep (t p : Nat) (x : ArrayRec) : (s.setArray t p x).keep = s.keep := rfl
@[simp] theorem setArray_beat (t p : Nat) (x : ArrayRec) : (s.setArray t p x).beat = s.beat := rfl
@[simp] theorem setArray_dbg (t p : Nat) (x : ArrayRec) : (s.setArray t p x).dbg = s.dbg := rfl
@[simp] theorem setArray_arr_cells (t p : Nat) (x : ArrayRec) : (s.setArray t p x).arr.cells = s.arr.cells := rfl
@[simp] theorem setArray_arr_scales (t p : Nat) (x : ArrayRec) : (s.setArray t p x).arr.scales = s.arr.scales := rfl
@[simp] theorem setArray_arr_ksums (t p : Nat) (x : ArrayRec) : (s.setArray t p x).arr.ksums = s.arr.ksums := rfl
@[simp] theorem setArray_arr_waiting (t p : Nat) (x : ArrayRec) : (s.setArray t p x).arr.waiting = s.arr.waiting := rfl
@[simp] theorem setArray_arr_running (t p : Nat) (x : ArrayRec) : (s.setArray t p x).arr.running = s.arr.running := rfl

/-! ### setDom -/

@[simp] theorem setDom_pending (d : Nat) (x : Domain) : (s.setDom d x).pending = s.pending := rfl
@[simp] theorem setDom_freeCtr (d : Nat) (x : Domain) : (s.setDom d x).freeCtr = s.freeCtr := rfl
@[simp] theorem setDom_clock (d : Nat) (x : Domain) : (s.setDom d x).clock = s.clock := rfl
@[simp] theorem setDom_watch (d : Nat) (x : Domain) : (s.setDom d x).watch = s.watch := rfl
@[simp] theorem setDom_ideLost (d : Nat) (x : Domain) : (s.setDom d x).ideLost = s.ideLost := rfl
@[simp] theorem setDom_resp (d : Nat) (x : Domain) : (s.setDom d x).resp = s.resp := rfl
@[simp] theorem setDom_reg (d : Nat) (x : Domain) : (s.setDom d x).reg = s.reg := rfl
@[simp] theorem setDom_wafer (d : Nat) (x : Domain) : (s.setDom d x).wafer = s.wafer := rfl
@[simp] theorem setDom_arr (d : Nat) (x : Domain) : (s.setDom d x).arr = s.arr := rfl
@[simp] theorem setDom_mem (d : Nat) (x : Domain) : (s.setDom d x).mem = s.mem := rfl
@[simp] theorem setDom_load (d : Nat) (x : Domain) : (s.setDom d x).load = s.load := rfl
@[simp] theorem setDom_srv (d : Nat) (x : Domain) : (s.setDom d x).srv = s.srv := rfl
@[simp] theorem setDom_fab (d : Nat) (x : Domain) : (s.setDom d x).fab = s.fab := rfl
@[simp] theorem setDom_trust (d : Nat) (x : Domain) : (s.setDom d x).trust = s.trust := rfl
@[simp] theorem setDom_keep (d : Nat) (x : Domain) : (s.setDom d x).keep = s.keep := rfl
@[simp] theorem setDom_beat (d : Nat) (x : Domain) : (s.setDom d x).beat = s.beat := rfl
@[simp] theorem setDom_dbg (d : Nat) (x : Domain) : (s.setDom d x).dbg = s.dbg := rfl
@[simp] theorem setDom_con_chos (d : Nat) (x : Domain) : (s.setDom d x).con.chos = s.con.chos := rfl
@[simp] theorem setDom_con_flags (d : Nat) (x : Domain) : (s.setDom d x).con.flags = s.con.flags := rfl
@[simp] theorem setDom_con_queues (d : Nat) (x : Domain) : (s.setDom d x).con.queues = s.con.queues := rfl
@[simp] theorem setDom_con_held (d : Nat) (x : Domain) : (s.setDom d x).con.held = s.con.held := rfl
@[simp] theorem setDom_con_numBase (d : Nat) (x : Domain) : (s.setDom d x).con.numBase = s.con.numBase := rfl
@[simp] theorem setDom_con_numSlot (d : Nat) (x : Domain) : (s.setDom d x).con.numSlot = s.con.numSlot := rfl
@[simp] theorem setDom_con_notices (d : Nat) (x : Domain) : (s.setDom d x).con.notices = s.con.notices := rfl

/-! ### setFlag -/

@[simp] theorem setFlag_pending (h : Nat) (f : Flag) : (s.setFlag h f).pending = s.pending := rfl
@[simp] theorem setFlag_freeCtr (h : Nat) (f : Flag) : (s.setFlag h f).freeCtr = s.freeCtr := rfl
@[simp] theorem setFlag_clock (h : Nat) (f : Flag) : (s.setFlag h f).clock = s.clock := rfl
@[simp] theorem setFlag_watch (h : Nat) (f : Flag) : (s.setFlag h f).watch = s.watch := rfl
@[simp] theorem setFlag_ideLost (h : Nat) (f : Flag) : (s.setFlag h f).ideLost = s.ideLost := rfl
@[simp] theorem setFlag_resp (h : Nat) (f : Flag) : (s.setFlag h f).resp = s.resp := rfl
@[simp] theorem setFlag_reg (h : Nat) (f : Flag) : (s.setFlag h f).reg = s.reg := rfl
@[simp] theorem setFlag_wafer (h : Nat) (f : Flag) : (s.setFlag h f).wafer = s.wafer := rfl
@[simp] theorem setFlag_arr (h : Nat) (f : Flag) : (s.setFlag h f).arr = s.arr := rfl
@[simp] theorem setFlag_mem (h : Nat) (f : Flag) : (s.setFlag h f).mem = s.mem := rfl
@[simp] theorem setFlag_load (h : Nat) (f : Flag) : (s.setFlag h f).load = s.load := rfl
@[simp] theorem setFlag_srv (h : Nat) (f : Flag) : (s.setFlag h f).srv = s.srv := rfl
@[simp] theorem setFlag_fab (h : Nat) (f : Flag) : (s.setFlag h f).fab = s.fab := rfl
@[simp] theorem setFlag_trust (h : Nat) (f : Flag) : (s.setFlag h f).trust = s.trust := rfl
@[simp] theorem setFlag_keep (h : Nat) (f : Flag) : (s.setFlag h f).keep = s.keep := rfl
@[simp] theorem setFlag_beat (h : Nat) (f : Flag) : (s.setFlag h f).beat = s.beat := rfl
@[simp] theorem setFlag_dbg (h : Nat) (f : Flag) : (s.setFlag h f).dbg = s.dbg := rfl
@[simp] theorem setFlag_con_chos (h : Nat) (f : Flag) : (s.setFlag h f).con.chos = s.con.chos := rfl
@[simp] theorem setFlag_con_doms (h : Nat) (f : Flag) : (s.setFlag h f).con.doms = s.con.doms := rfl
@[simp] theorem setFlag_con_queues (h : Nat) (f : Flag) : (s.setFlag h f).con.queues = s.con.queues := rfl
@[simp] theorem setFlag_con_held (h : Nat) (f : Flag) : (s.setFlag h f).con.held = s.con.held := rfl
@[simp] theorem setFlag_con_numBase (h : Nat) (f : Flag) : (s.setFlag h f).con.numBase = s.con.numBase := rfl
@[simp] theorem setFlag_con_numSlot (h : Nat) (f : Flag) : (s.setFlag h f).con.numSlot = s.con.numSlot := rfl
@[simp] theorem setFlag_con_notices (h : Nat) (f : Flag) : (s.setFlag h f).con.notices = s.con.notices := rfl

/-! ### setQueue -/

@[simp] theorem setQueue_pending (h : Nat) (q : Queue) : (s.setQueue h q).pending = s.pending := rfl
@[simp] theorem setQueue_freeCtr (h : Nat) (q : Queue) : (s.setQueue h q).freeCtr = s.freeCtr := rfl
@[simp] theorem setQueue_clock (h : Nat) (q : Queue) : (s.setQueue h q).clock = s.clock := rfl
@[simp] theorem setQueue_watch (h : Nat) (q : Queue) : (s.setQueue h q).watch = s.watch := rfl
@[simp] theorem setQueue_ideLost (h : Nat) (q : Queue) : (s.setQueue h q).ideLost = s.ideLost := rfl
@[simp] theorem setQueue_resp (h : Nat) (q : Queue) : (s.setQueue h q).resp = s.resp := rfl
@[simp] theorem setQueue_reg (h : Nat) (q : Queue) : (s.setQueue h q).reg = s.reg := rfl
@[simp] theorem setQueue_wafer (h : Nat) (q : Queue) : (s.setQueue h q).wafer = s.wafer := rfl
@[simp] theorem setQueue_arr (h : Nat) (q : Queue) : (s.setQueue h q).arr = s.arr := rfl
@[simp] theorem setQueue_mem (h : Nat) (q : Queue) : (s.setQueue h q).mem = s.mem := rfl
@[simp] theorem setQueue_load (h : Nat) (q : Queue) : (s.setQueue h q).load = s.load := rfl
@[simp] theorem setQueue_srv (h : Nat) (q : Queue) : (s.setQueue h q).srv = s.srv := rfl
@[simp] theorem setQueue_fab (h : Nat) (q : Queue) : (s.setQueue h q).fab = s.fab := rfl
@[simp] theorem setQueue_trust (h : Nat) (q : Queue) : (s.setQueue h q).trust = s.trust := rfl
@[simp] theorem setQueue_keep (h : Nat) (q : Queue) : (s.setQueue h q).keep = s.keep := rfl
@[simp] theorem setQueue_beat (h : Nat) (q : Queue) : (s.setQueue h q).beat = s.beat := rfl
@[simp] theorem setQueue_dbg (h : Nat) (q : Queue) : (s.setQueue h q).dbg = s.dbg := rfl
@[simp] theorem setQueue_con_chos (h : Nat) (q : Queue) : (s.setQueue h q).con.chos = s.con.chos := rfl
@[simp] theorem setQueue_con_doms (h : Nat) (q : Queue) : (s.setQueue h q).con.doms = s.con.doms := rfl
@[simp] theorem setQueue_con_flags (h : Nat) (q : Queue) : (s.setQueue h q).con.flags = s.con.flags := rfl
@[simp] theorem setQueue_con_held (h : Nat) (q : Queue) : (s.setQueue h q).con.held = s.con.held := rfl
@[simp] theorem setQueue_con_numBase (h : Nat) (q : Queue) : (s.setQueue h q).con.numBase = s.con.numBase := rfl
@[simp] theorem setQueue_con_numSlot (h : Nat) (q : Queue) : (s.setQueue h q).con.numSlot = s.con.numSlot := rfl
@[simp] theorem setQueue_con_notices (h : Nat) (q : Queue) : (s.setQueue h q).con.notices = s.con.notices := rfl

/-! ### setStack -/

@[simp] theorem setStack_pending (k : Nat) (x : Stack) : (s.setStack k x).pending = s.pending := rfl
@[simp] theorem setStack_freeCtr (k : Nat) (x : Stack) : (s.setStack k x).freeCtr = s.freeCtr := rfl
@[simp] theorem setStack_clock (k : Nat) (x : Stack) : (s.setStack k x).clock = s.clock := rfl
@[simp] theorem setStack_watch (k : Nat) (x : Stack) : (s.setStack k x).watch = s.watch := rfl
@[simp] theorem setStack_ideLost (k : Nat) (x : Stack) : (s.setStack k x).ideLost = s.ideLost := rfl
@[simp] theorem setStack_resp (k : Nat) (x : Stack) : (s.setStack k x).resp = s.resp := rfl
@[simp] theorem setStack_reg (k : Nat) (x : Stack) : (s.setStack k x).reg = s.reg := rfl
@[simp] theorem setStack_wafer (k : Nat) (x : Stack) : (s.setStack k x).wafer = s.wafer := rfl
@[simp] theorem setStack_arr (k : Nat) (x : Stack) : (s.setStack k x).arr = s.arr := rfl
@[simp] theorem setStack_con (k : Nat) (x : Stack) : (s.setStack k x).con = s.con := rfl
@[simp] theorem setStack_load (k : Nat) (x : Stack) : (s.setStack k x).load = s.load := rfl
@[simp] theorem setStack_srv (k : Nat) (x : Stack) : (s.setStack k x).srv = s.srv := rfl
@[simp] theorem setStack_fab (k : Nat) (x : Stack) : (s.setStack k x).fab = s.fab := rfl
@[simp] theorem setStack_trust (k : Nat) (x : Stack) : (s.setStack k x).trust = s.trust := rfl
@[simp] theorem setStack_keep (k : Nat) (x : Stack) : (s.setStack k x).keep = s.keep := rfl
@[simp] theorem setStack_beat (k : Nat) (x : Stack) : (s.setStack k x).beat = s.beat := rfl
@[simp] theorem setStack_dbg (k : Nat) (x : Stack) : (s.setStack k x).dbg = s.dbg := rfl
@[simp] theorem setStack_mem_stack (k : Nat) (x : Stack) : (s.setStack k x).mem.stack = s.mem.stack := rfl
@[simp] theorem setStack_mem_stackBad (k : Nat) (x : Stack) : (s.setStack k x).mem.stackBad = s.mem.stackBad := rfl
@[simp] theorem setStack_mem_zeroFill (k : Nat) (x : Stack) : (s.setStack k x).mem.zeroFill = s.mem.zeroFill := rfl
@[simp] theorem setStack_mem_pageTags (k : Nat) (x : Stack) : (s.setStack k x).mem.pageTags = s.mem.pageTags := rfl
@[simp] theorem setStack_mem_sram (k : Nat) (x : Stack) : (s.setStack k x).mem.sram = s.mem.sram := rfl
@[simp] theorem setStack_mem_rings (k : Nat) (x : Stack) : (s.setStack k x).mem.rings = s.mem.rings := rfl

/-! ### setRing -/

@[simp] theorem setRing_pending (r : Nat) (x : Ring) : (s.setRing r x).pending = s.pending := rfl
@[simp] theorem setRing_freeCtr (r : Nat) (x : Ring) : (s.setRing r x).freeCtr = s.freeCtr := rfl
@[simp] theorem setRing_clock (r : Nat) (x : Ring) : (s.setRing r x).clock = s.clock := rfl
@[simp] theorem setRing_watch (r : Nat) (x : Ring) : (s.setRing r x).watch = s.watch := rfl
@[simp] theorem setRing_ideLost (r : Nat) (x : Ring) : (s.setRing r x).ideLost = s.ideLost := rfl
@[simp] theorem setRing_resp (r : Nat) (x : Ring) : (s.setRing r x).resp = s.resp := rfl
@[simp] theorem setRing_reg (r : Nat) (x : Ring) : (s.setRing r x).reg = s.reg := rfl
@[simp] theorem setRing_wafer (r : Nat) (x : Ring) : (s.setRing r x).wafer = s.wafer := rfl
@[simp] theorem setRing_arr (r : Nat) (x : Ring) : (s.setRing r x).arr = s.arr := rfl
@[simp] theorem setRing_con (r : Nat) (x : Ring) : (s.setRing r x).con = s.con := rfl
@[simp] theorem setRing_load (r : Nat) (x : Ring) : (s.setRing r x).load = s.load := rfl
@[simp] theorem setRing_srv (r : Nat) (x : Ring) : (s.setRing r x).srv = s.srv := rfl
@[simp] theorem setRing_fab (r : Nat) (x : Ring) : (s.setRing r x).fab = s.fab := rfl
@[simp] theorem setRing_trust (r : Nat) (x : Ring) : (s.setRing r x).trust = s.trust := rfl
@[simp] theorem setRing_keep (r : Nat) (x : Ring) : (s.setRing r x).keep = s.keep := rfl
@[simp] theorem setRing_beat (r : Nat) (x : Ring) : (s.setRing r x).beat = s.beat := rfl
@[simp] theorem setRing_dbg (r : Nat) (x : Ring) : (s.setRing r x).dbg = s.dbg := rfl
@[simp] theorem setRing_mem_stack (r : Nat) (x : Ring) : (s.setRing r x).mem.stack = s.mem.stack := rfl
@[simp] theorem setRing_mem_stackBad (r : Nat) (x : Ring) : (s.setRing r x).mem.stackBad = s.mem.stackBad := rfl
@[simp] theorem setRing_mem_zeroFill (r : Nat) (x : Ring) : (s.setRing r x).mem.zeroFill = s.mem.zeroFill := rfl
@[simp] theorem setRing_mem_pageTags (r : Nat) (x : Ring) : (s.setRing r x).mem.pageTags = s.mem.pageTags := rfl
@[simp] theorem setRing_mem_stackUnits (r : Nat) (x : Ring) : (s.setRing r x).mem.stackUnits = s.mem.stackUnits := rfl
@[simp] theorem setRing_mem_sram (r : Nat) (x : Ring) : (s.setRing r x).mem.sram = s.mem.sram := rfl

/-! ### setInst -/

@[simp] theorem setInst_pending (i : Nat) (x : Inst) : (s.setInst i x).pending = s.pending := rfl
@[simp] theorem setInst_freeCtr (i : Nat) (x : Inst) : (s.setInst i x).freeCtr = s.freeCtr := rfl
@[simp] theorem setInst_clock (i : Nat) (x : Inst) : (s.setInst i x).clock = s.clock := rfl
@[simp] theorem setInst_watch (i : Nat) (x : Inst) : (s.setInst i x).watch = s.watch := rfl
@[simp] theorem setInst_ideLost (i : Nat) (x : Inst) : (s.setInst i x).ideLost = s.ideLost := rfl
@[simp] theorem setInst_resp (i : Nat) (x : Inst) : (s.setInst i x).resp = s.resp := rfl
@[simp] theorem setInst_reg (i : Nat) (x : Inst) : (s.setInst i x).reg = s.reg := rfl
@[simp] theorem setInst_wafer (i : Nat) (x : Inst) : (s.setInst i x).wafer = s.wafer := rfl
@[simp] theorem setInst_arr (i : Nat) (x : Inst) : (s.setInst i x).arr = s.arr := rfl
@[simp] theorem setInst_con (i : Nat) (x : Inst) : (s.setInst i x).con = s.con := rfl
@[simp] theorem setInst_mem (i : Nat) (x : Inst) : (s.setInst i x).mem = s.mem := rfl
@[simp] theorem setInst_srv (i : Nat) (x : Inst) : (s.setInst i x).srv = s.srv := rfl
@[simp] theorem setInst_fab (i : Nat) (x : Inst) : (s.setInst i x).fab = s.fab := rfl
@[simp] theorem setInst_trust (i : Nat) (x : Inst) : (s.setInst i x).trust = s.trust := rfl
@[simp] theorem setInst_keep (i : Nat) (x : Inst) : (s.setInst i x).keep = s.keep := rfl
@[simp] theorem setInst_beat (i : Nat) (x : Inst) : (s.setInst i x).beat = s.beat := rfl
@[simp] theorem setInst_dbg (i : Nat) (x : Inst) : (s.setInst i x).dbg = s.dbg := rfl
@[simp] theorem setInst_load_jobs (i : Nat) (x : Inst) : (s.setInst i x).load.jobs = s.load.jobs := rfl
@[simp] theorem setInst_load_manifest (i : Nat) (x : Inst) : (s.setInst i x).load.manifest = s.load.manifest := rfl
@[simp] theorem setInst_load_left (i : Nat) (x : Inst) : (s.setInst i x).load.left = s.load.left := rfl
@[simp] theorem setInst_load_refused (i : Nat) (x : Inst) : (s.setInst i x).load.refused = s.load.refused := rfl

/-! ### setJob -/

@[simp] theorem setJob_pending (k : Nat) (j : Job) : (s.setJob k j).pending = s.pending := rfl
@[simp] theorem setJob_freeCtr (k : Nat) (j : Job) : (s.setJob k j).freeCtr = s.freeCtr := rfl
@[simp] theorem setJob_clock (k : Nat) (j : Job) : (s.setJob k j).clock = s.clock := rfl
@[simp] theorem setJob_watch (k : Nat) (j : Job) : (s.setJob k j).watch = s.watch := rfl
@[simp] theorem setJob_ideLost (k : Nat) (j : Job) : (s.setJob k j).ideLost = s.ideLost := rfl
@[simp] theorem setJob_resp (k : Nat) (j : Job) : (s.setJob k j).resp = s.resp := rfl
@[simp] theorem setJob_reg (k : Nat) (j : Job) : (s.setJob k j).reg = s.reg := rfl
@[simp] theorem setJob_wafer (k : Nat) (j : Job) : (s.setJob k j).wafer = s.wafer := rfl
@[simp] theorem setJob_arr (k : Nat) (j : Job) : (s.setJob k j).arr = s.arr := rfl
@[simp] theorem setJob_con (k : Nat) (j : Job) : (s.setJob k j).con = s.con := rfl
@[simp] theorem setJob_mem (k : Nat) (j : Job) : (s.setJob k j).mem = s.mem := rfl
@[simp] theorem setJob_srv (k : Nat) (j : Job) : (s.setJob k j).srv = s.srv := rfl
@[simp] theorem setJob_fab (k : Nat) (j : Job) : (s.setJob k j).fab = s.fab := rfl
@[simp] theorem setJob_trust (k : Nat) (j : Job) : (s.setJob k j).trust = s.trust := rfl
@[simp] theorem setJob_keep (k : Nat) (j : Job) : (s.setJob k j).keep = s.keep := rfl
@[simp] theorem setJob_beat (k : Nat) (j : Job) : (s.setJob k j).beat = s.beat := rfl
@[simp] theorem setJob_dbg (k : Nat) (j : Job) : (s.setJob k j).dbg = s.dbg := rfl
@[simp] theorem setJob_load_insts (k : Nat) (j : Job) : (s.setJob k j).load.insts = s.load.insts := rfl
@[simp] theorem setJob_load_manifest (k : Nat) (j : Job) : (s.setJob k j).load.manifest = s.load.manifest := rfl
@[simp] theorem setJob_load_left (k : Nat) (j : Job) : (s.setJob k j).load.left = s.load.left := rfl
@[simp] theorem setJob_load_refused (k : Nat) (j : Job) : (s.setJob k j).load.refused = s.load.refused := rfl

/-! ### setSeq -/

@[simp] theorem setSeq_pending (n : Nat) (q : SeqRec) : (s.setSeq n q).pending = s.pending := rfl
@[simp] theorem setSeq_freeCtr (n : Nat) (q : SeqRec) : (s.setSeq n q).freeCtr = s.freeCtr := rfl
@[simp] theorem setSeq_clock (n : Nat) (q : SeqRec) : (s.setSeq n q).clock = s.clock := rfl
@[simp] theorem setSeq_watch (n : Nat) (q : SeqRec) : (s.setSeq n q).watch = s.watch := rfl
@[simp] theorem setSeq_ideLost (n : Nat) (q : SeqRec) : (s.setSeq n q).ideLost = s.ideLost := rfl
@[simp] theorem setSeq_resp (n : Nat) (q : SeqRec) : (s.setSeq n q).resp = s.resp := rfl
@[simp] theorem setSeq_reg (n : Nat) (q : SeqRec) : (s.setSeq n q).reg = s.reg := rfl
@[simp] theorem setSeq_wafer (n : Nat) (q : SeqRec) : (s.setSeq n q).wafer = s.wafer := rfl
@[simp] theorem setSeq_arr (n : Nat) (q : SeqRec) : (s.setSeq n q).arr = s.arr := rfl
@[simp] theorem setSeq_con (n : Nat) (q : SeqRec) : (s.setSeq n q).con = s.con := rfl
@[simp] theorem setSeq_mem (n : Nat) (q : SeqRec) : (s.setSeq n q).mem = s.mem := rfl
@[simp] theorem setSeq_load (n : Nat) (q : SeqRec) : (s.setSeq n q).load = s.load := rfl
@[simp] theorem setSeq_fab (n : Nat) (q : SeqRec) : (s.setSeq n q).fab = s.fab := rfl
@[simp] theorem setSeq_trust (n : Nat) (q : SeqRec) : (s.setSeq n q).trust = s.trust := rfl
@[simp] theorem setSeq_keep (n : Nat) (q : SeqRec) : (s.setSeq n q).keep = s.keep := rfl
@[simp] theorem setSeq_beat (n : Nat) (q : SeqRec) : (s.setSeq n q).beat = s.beat := rfl
@[simp] theorem setSeq_dbg (n : Nat) (q : SeqRec) : (s.setSeq n q).dbg = s.dbg := rfl
@[simp] theorem setSeq_srv_waits (n : Nat) (q : SeqRec) : (s.setSeq n q).srv.waits = s.srv.waits := rfl
@[simp] theorem setSeq_srv_handles (n : Nat) (q : SeqRec) : (s.setSeq n q).srv.handles = s.srv.handles := rfl
@[simp] theorem setSeq_srv_adapters (n : Nat) (q : SeqRec) : (s.setSeq n q).srv.adapters = s.srv.adapters := rfl
@[simp] theorem setSeq_srv_grams (n : Nat) (q : SeqRec) : (s.setSeq n q).srv.grams = s.srv.grams := rfl
@[simp] theorem setSeq_srv_kvUsed (n : Nat) (q : SeqRec) : (s.setSeq n q).srv.kvUsed = s.srv.kvUsed := rfl
@[simp] theorem setSeq_srv_admitN (n : Nat) (q : SeqRec) : (s.setSeq n q).srv.admitN = s.srv.admitN := rfl
@[simp] theorem setSeq_srv_conns (n : Nat) (q : SeqRec) : (s.setSeq n q).srv.conns = s.srv.conns := rfl
@[simp] theorem setSeq_srv_rkeys (n : Nat) (q : SeqRec) : (s.setSeq n q).srv.rkeys = s.srv.rkeys := rfl

/-! ### setHandle -/

@[simp] theorem setHandle_pending (h : Nat) (x : Handle) : (s.setHandle h x).pending = s.pending := rfl
@[simp] theorem setHandle_freeCtr (h : Nat) (x : Handle) : (s.setHandle h x).freeCtr = s.freeCtr := rfl
@[simp] theorem setHandle_clock (h : Nat) (x : Handle) : (s.setHandle h x).clock = s.clock := rfl
@[simp] theorem setHandle_watch (h : Nat) (x : Handle) : (s.setHandle h x).watch = s.watch := rfl
@[simp] theorem setHandle_ideLost (h : Nat) (x : Handle) : (s.setHandle h x).ideLost = s.ideLost := rfl
@[simp] theorem setHandle_resp (h : Nat) (x : Handle) : (s.setHandle h x).resp = s.resp := rfl
@[simp] theorem setHandle_reg (h : Nat) (x : Handle) : (s.setHandle h x).reg = s.reg := rfl
@[simp] theorem setHandle_wafer (h : Nat) (x : Handle) : (s.setHandle h x).wafer = s.wafer := rfl
@[simp] theorem setHandle_arr (h : Nat) (x : Handle) : (s.setHandle h x).arr = s.arr := rfl
@[simp] theorem setHandle_con (h : Nat) (x : Handle) : (s.setHandle h x).con = s.con := rfl
@[simp] theorem setHandle_mem (h : Nat) (x : Handle) : (s.setHandle h x).mem = s.mem := rfl
@[simp] theorem setHandle_load (h : Nat) (x : Handle) : (s.setHandle h x).load = s.load := rfl
@[simp] theorem setHandle_fab (h : Nat) (x : Handle) : (s.setHandle h x).fab = s.fab := rfl
@[simp] theorem setHandle_trust (h : Nat) (x : Handle) : (s.setHandle h x).trust = s.trust := rfl
@[simp] theorem setHandle_keep (h : Nat) (x : Handle) : (s.setHandle h x).keep = s.keep := rfl
@[simp] theorem setHandle_beat (h : Nat) (x : Handle) : (s.setHandle h x).beat = s.beat := rfl
@[simp] theorem setHandle_dbg (h : Nat) (x : Handle) : (s.setHandle h x).dbg = s.dbg := rfl
@[simp] theorem setHandle_srv_seqs (h : Nat) (x : Handle) : (s.setHandle h x).srv.seqs = s.srv.seqs := rfl
@[simp] theorem setHandle_srv_waits (h : Nat) (x : Handle) : (s.setHandle h x).srv.waits = s.srv.waits := rfl
@[simp] theorem setHandle_srv_adapters (h : Nat) (x : Handle) : (s.setHandle h x).srv.adapters = s.srv.adapters := rfl
@[simp] theorem setHandle_srv_grams (h : Nat) (x : Handle) : (s.setHandle h x).srv.grams = s.srv.grams := rfl
@[simp] theorem setHandle_srv_kvUsed (h : Nat) (x : Handle) : (s.setHandle h x).srv.kvUsed = s.srv.kvUsed := rfl
@[simp] theorem setHandle_srv_admitN (h : Nat) (x : Handle) : (s.setHandle h x).srv.admitN = s.srv.admitN := rfl
@[simp] theorem setHandle_srv_conns (h : Nat) (x : Handle) : (s.setHandle h x).srv.conns = s.srv.conns := rfl
@[simp] theorem setHandle_srv_rkeys (h : Nat) (x : Handle) : (s.setHandle h x).srv.rkeys = s.srv.rkeys := rfl

/-! ### setAdapter -/

@[simp] theorem setAdapter_pending (a : Nat) (x : AdapterRec) : (s.setAdapter a x).pending = s.pending := rfl
@[simp] theorem setAdapter_freeCtr (a : Nat) (x : AdapterRec) : (s.setAdapter a x).freeCtr = s.freeCtr := rfl
@[simp] theorem setAdapter_clock (a : Nat) (x : AdapterRec) : (s.setAdapter a x).clock = s.clock := rfl
@[simp] theorem setAdapter_watch (a : Nat) (x : AdapterRec) : (s.setAdapter a x).watch = s.watch := rfl
@[simp] theorem setAdapter_ideLost (a : Nat) (x : AdapterRec) : (s.setAdapter a x).ideLost = s.ideLost := rfl
@[simp] theorem setAdapter_resp (a : Nat) (x : AdapterRec) : (s.setAdapter a x).resp = s.resp := rfl
@[simp] theorem setAdapter_reg (a : Nat) (x : AdapterRec) : (s.setAdapter a x).reg = s.reg := rfl
@[simp] theorem setAdapter_wafer (a : Nat) (x : AdapterRec) : (s.setAdapter a x).wafer = s.wafer := rfl
@[simp] theorem setAdapter_arr (a : Nat) (x : AdapterRec) : (s.setAdapter a x).arr = s.arr := rfl
@[simp] theorem setAdapter_con (a : Nat) (x : AdapterRec) : (s.setAdapter a x).con = s.con := rfl
@[simp] theorem setAdapter_mem (a : Nat) (x : AdapterRec) : (s.setAdapter a x).mem = s.mem := rfl
@[simp] theorem setAdapter_load (a : Nat) (x : AdapterRec) : (s.setAdapter a x).load = s.load := rfl
@[simp] theorem setAdapter_fab (a : Nat) (x : AdapterRec) : (s.setAdapter a x).fab = s.fab := rfl
@[simp] theorem setAdapter_trust (a : Nat) (x : AdapterRec) : (s.setAdapter a x).trust = s.trust := rfl
@[simp] theorem setAdapter_keep (a : Nat) (x : AdapterRec) : (s.setAdapter a x).keep = s.keep := rfl
@[simp] theorem setAdapter_beat (a : Nat) (x : AdapterRec) : (s.setAdapter a x).beat = s.beat := rfl
@[simp] theorem setAdapter_dbg (a : Nat) (x : AdapterRec) : (s.setAdapter a x).dbg = s.dbg := rfl
@[simp] theorem setAdapter_srv_seqs (a : Nat) (x : AdapterRec) : (s.setAdapter a x).srv.seqs = s.srv.seqs := rfl
@[simp] theorem setAdapter_srv_waits (a : Nat) (x : AdapterRec) : (s.setAdapter a x).srv.waits = s.srv.waits := rfl
@[simp] theorem setAdapter_srv_handles (a : Nat) (x : AdapterRec) : (s.setAdapter a x).srv.handles = s.srv.handles := rfl
@[simp] theorem setAdapter_srv_grams (a : Nat) (x : AdapterRec) : (s.setAdapter a x).srv.grams = s.srv.grams := rfl
@[simp] theorem setAdapter_srv_kvUsed (a : Nat) (x : AdapterRec) : (s.setAdapter a x).srv.kvUsed = s.srv.kvUsed := rfl
@[simp] theorem setAdapter_srv_admitN (a : Nat) (x : AdapterRec) : (s.setAdapter a x).srv.admitN = s.srv.admitN := rfl
@[simp] theorem setAdapter_srv_conns (a : Nat) (x : AdapterRec) : (s.setAdapter a x).srv.conns = s.srv.conns := rfl
@[simp] theorem setAdapter_srv_rkeys (a : Nat) (x : AdapterRec) : (s.setAdapter a x).srv.rkeys = s.srv.rkeys := rfl

/-! ### setGram -/

@[simp] theorem setGram_pending (g : Nat) (x : GramRec) : (s.setGram g x).pending = s.pending := rfl
@[simp] theorem setGram_freeCtr (g : Nat) (x : GramRec) : (s.setGram g x).freeCtr = s.freeCtr := rfl
@[simp] theorem setGram_clock (g : Nat) (x : GramRec) : (s.setGram g x).clock = s.clock := rfl
@[simp] theorem setGram_watch (g : Nat) (x : GramRec) : (s.setGram g x).watch = s.watch := rfl
@[simp] theorem setGram_ideLost (g : Nat) (x : GramRec) : (s.setGram g x).ideLost = s.ideLost := rfl
@[simp] theorem setGram_resp (g : Nat) (x : GramRec) : (s.setGram g x).resp = s.resp := rfl
@[simp] theorem setGram_reg (g : Nat) (x : GramRec) : (s.setGram g x).reg = s.reg := rfl
@[simp] theorem setGram_wafer (g : Nat) (x : GramRec) : (s.setGram g x).wafer = s.wafer := rfl
@[simp] theorem setGram_arr (g : Nat) (x : GramRec) : (s.setGram g x).arr = s.arr := rfl
@[simp] theorem setGram_con (g : Nat) (x : GramRec) : (s.setGram g x).con = s.con := rfl
@[simp] theorem setGram_mem (g : Nat) (x : GramRec) : (s.setGram g x).mem = s.mem := rfl
@[simp] theorem setGram_load (g : Nat) (x : GramRec) : (s.setGram g x).load = s.load := rfl
@[simp] theorem setGram_fab (g : Nat) (x : GramRec) : (s.setGram g x).fab = s.fab := rfl
@[simp] theorem setGram_trust (g : Nat) (x : GramRec) : (s.setGram g x).trust = s.trust := rfl
@[simp] theorem setGram_keep (g : Nat) (x : GramRec) : (s.setGram g x).keep = s.keep := rfl
@[simp] theorem setGram_beat (g : Nat) (x : GramRec) : (s.setGram g x).beat = s.beat := rfl
@[simp] theorem setGram_dbg (g : Nat) (x : GramRec) : (s.setGram g x).dbg = s.dbg := rfl
@[simp] theorem setGram_srv_seqs (g : Nat) (x : GramRec) : (s.setGram g x).srv.seqs = s.srv.seqs := rfl
@[simp] theorem setGram_srv_waits (g : Nat) (x : GramRec) : (s.setGram g x).srv.waits = s.srv.waits := rfl
@[simp] theorem setGram_srv_handles (g : Nat) (x : GramRec) : (s.setGram g x).srv.handles = s.srv.handles := rfl
@[simp] theorem setGram_srv_adapters (g : Nat) (x : GramRec) : (s.setGram g x).srv.adapters = s.srv.adapters := rfl
@[simp] theorem setGram_srv_kvUsed (g : Nat) (x : GramRec) : (s.setGram g x).srv.kvUsed = s.srv.kvUsed := rfl
@[simp] theorem setGram_srv_admitN (g : Nat) (x : GramRec) : (s.setGram g x).srv.admitN = s.srv.admitN := rfl
@[simp] theorem setGram_srv_conns (g : Nat) (x : GramRec) : (s.setGram g x).srv.conns = s.srv.conns := rfl
@[simp] theorem setGram_srv_rkeys (g : Nat) (x : GramRec) : (s.setGram g x).srv.rkeys = s.srv.rkeys := rfl

/-! ### setPort -/

@[simp] theorem setPort_pending (t : Nat) (x : Port) : (s.setPort t x).pending = s.pending := rfl
@[simp] theorem setPort_freeCtr (t : Nat) (x : Port) : (s.setPort t x).freeCtr = s.freeCtr := rfl
@[simp] theorem setPort_clock (t : Nat) (x : Port) : (s.setPort t x).clock = s.clock := rfl
@[simp] theorem setPort_watch (t : Nat) (x : Port) : (s.setPort t x).watch = s.watch := rfl
@[simp] theorem setPort_ideLost (t : Nat) (x : Port) : (s.setPort t x).ideLost = s.ideLost := rfl
@[simp] theorem setPort_resp (t : Nat) (x : Port) : (s.setPort t x).resp = s.resp := rfl
@[simp] theorem setPort_reg (t : Nat) (x : Port) : (s.setPort t x).reg = s.reg := rfl
@[simp] theorem setPort_wafer (t : Nat) (x : Port) : (s.setPort t x).wafer = s.wafer := rfl
@[simp] theorem setPort_arr (t : Nat) (x : Port) : (s.setPort t x).arr = s.arr := rfl
@[simp] theorem setPort_con (t : Nat) (x : Port) : (s.setPort t x).con = s.con := rfl
@[simp] theorem setPort_mem (t : Nat) (x : Port) : (s.setPort t x).mem = s.mem := rfl
@[simp] theorem setPort_load (t : Nat) (x : Port) : (s.setPort t x).load = s.load := rfl
@[simp] theorem setPort_srv (t : Nat) (x : Port) : (s.setPort t x).srv = s.srv := rfl
@[simp] theorem setPort_trust (t : Nat) (x : Port) : (s.setPort t x).trust = s.trust := rfl
@[simp] theorem setPort_keep (t : Nat) (x : Port) : (s.setPort t x).keep = s.keep := rfl
@[simp] theorem setPort_beat (t : Nat) (x : Port) : (s.setPort t x).beat = s.beat := rfl
@[simp] theorem setPort_dbg (t : Nat) (x : Port) : (s.setPort t x).dbg = s.dbg := rfl
@[simp] theorem setPort_fab_ctab (t : Nat) (x : Port) : (s.setPort t x).fab.ctab = s.fab.ctab := rfl
@[simp] theorem setPort_fab_closing (t : Nat) (x : Port) : (s.setPort t x).fab.closing = s.fab.closing := rfl
@[simp] theorem setPort_fab_watches (t : Nat) (x : Port) : (s.setPort t x).fab.watches = s.fab.watches := rfl
@[simp] theorem setPort_fab_arrivals (t : Nat) (x : Port) : (s.setPort t x).fab.arrivals = s.fab.arrivals := rfl
@[simp] theorem setPort_fab_closeSeq (t : Nat) (x : Port) : (s.setPort t x).fab.closeSeq = s.fab.closeSeq := rfl
@[simp] theorem setPort_fab_syncT1 (t : Nat) (x : Port) : (s.setPort t x).fab.syncT1 = s.fab.syncT1 := rfl
@[simp] theorem setPort_fab_syncT2 (t : Nat) (x : Port) : (s.setPort t x).fab.syncT2 = s.fab.syncT2 := rfl
@[simp] theorem setPort_fab_syncT4 (t : Nat) (x : Port) : (s.setPort t x).fab.syncT4 = s.fab.syncT4 := rfl
@[simp] theorem setPort_fab_syncPort (t : Nat) (x : Port) : (s.setPort t x).fab.syncPort = s.fab.syncPort := rfl
@[simp] theorem setPort_fab_rate (t : Nat) (x : Port) : (s.setPort t x).fab.rate = s.fab.rate := rfl
@[simp] theorem setPort_fab_frac (t : Nat) (x : Port) : (s.setPort t x).fab.frac = s.fab.frac := rfl
@[simp] theorem setPort_fab_lastSync (t : Nat) (x : Port) : (s.setPort t x).fab.lastSync = s.fab.lastSync := rfl
@[simp] theorem setPort_fab_lastBeat (t : Nat) (x : Port) : (s.setPort t x).fab.lastBeat = s.fab.lastBeat := rfl
@[simp] theorem setPort_fab_stalled (t : Nat) (x : Port) : (s.setPort t x).fab.stalled = s.fab.stalled := rfl
@[simp] theorem setPort_fab_joined (t : Nat) (x : Port) : (s.setPort t x).fab.joined = s.fab.joined := rfl
@[simp] theorem setPort_fab_entryRuns (t : Nat) (x : Port) : (s.setPort t x).fab.entryRuns = s.fab.entryRuns := rfl
@[simp] theorem setPort_fab_inRack (t : Nat) (x : Port) : (s.setPort t x).fab.inRack = s.fab.inRack := rfl

/-! ### Reading back -/

@[simp] theorem tile_setTile_same (t : Nat) (x : Tile) : (s.setTile t x).tile t = x := kvGet_kvPut_same ..
theorem tile_setTile_other {j t : Nat} (hj : j ≠ t) (x : Tile) : (s.setTile t x).tile j = s.tile j := kvGet_kvPut_other _ _ hj _ _
@[simp] theorem link_setLink_same (k : Nat) (x : Link) : (s.setLink k x).link k = x := kvGet_kvPut_same ..
theorem link_setLink_other {j k : Nat} (hj : j ≠ k) (x : Link) : (s.setLink k x).link j = s.link j := kvGet_kvPut_other _ _ hj _ _
@[simp] theorem outp_setOutp_same (k : Nat) (x : Output) : (s.setOutp k x).outp k = x := kvGet_kvPut_same ..
theorem outp_setOutp_other {j k : Nat} (hj : j ≠ k) (x : Output) : (s.setOutp k x).outp j = s.outp j := kvGet_kvPut_other _ _ hj _ _
@[simp] theorem dom_setDom_same (d : Nat) (x : Domain) : (s.setDom d x).dom d = x := kvGet_kvPut_same ..
theorem dom_setDom_other {j d : Nat} (hj : j ≠ d) (x : Domain) : (s.setDom d x).dom j = s.dom j := kvGet_kvPut_other _ _ hj _ _
@[simp] theorem flag_setFlag_same (h : Nat) (x : Flag) : (s.setFlag h x).flag h = x := kvGet_kvPut_same ..
theorem flag_setFlag_other {j h : Nat} (hj : j ≠ h) (x : Flag) : (s.setFlag h x).flag j = s.flag j := kvGet_kvPut_other _ _ hj _ _
@[simp] theorem queue_setQueue_same (h : Nat) (x : Queue) : (s.setQueue h x).queue h = x := kvGet_kvPut_same ..
theorem queue_setQueue_other {j h : Nat} (hj : j ≠ h) (x : Queue) : (s.setQueue h x).queue j = s.queue j := kvGet_kvPut_other _ _ hj _ _
@[simp] theorem stack_setStack_same (k : Nat) (x : Stack) : (s.setStack k x).stack k = x := kvGet_kvPut_same ..
theorem stack_setStack_other {j k : Nat} (hj : j ≠ k) (x : Stack) : (s.setStack k x).stack j = s.stack j := kvGet_kvPut_other _ _ hj _ _
@[simp] theorem ring_setRing_same (r : Nat) (x : Ring) : (s.setRing r x).ring r = x := kvGet_kvPut_same ..
theorem ring_setRing_other {j r : Nat} (hj : j ≠ r) (x : Ring) : (s.setRing r x).ring j = s.ring j := kvGet_kvPut_other _ _ hj _ _
@[simp] theorem inst_setInst_same (i : Nat) (x : Inst) : (s.setInst i x).inst i = x := kvGet_kvPut_same ..
theorem inst_setInst_other {j i : Nat} (hj : j ≠ i) (x : Inst) : (s.setInst i x).inst j = s.inst j := kvGet_kvPut_other _ _ hj _ _
@[simp] theorem seqRec_setSeq_same (n : Nat) (x : SeqRec) : (s.setSeq n x).seqRec n = x := kvGet_kvPut_same ..
theorem seqRec_setSeq_other {j n : Nat} (hj : j ≠ n) (x : SeqRec) : (s.setSeq n x).seqRec j = s.seqRec j := kvGet_kvPut_other _ _ hj _ _
@[simp] theorem handle_setHandle_same (h : Nat) (x : Handle) : (s.setHandle h x).handle h = x := kvGet_kvPut_same ..
theorem handle_setHandle_other {j h : Nat} (hj : j ≠ h) (x : Handle) : (s.setHandle h x).handle j = s.handle j := kvGet_kvPut_other _ _ hj _ _
@[simp] theorem adapterRec_setAdapter_same (a : Nat) (x : AdapterRec) : (s.setAdapter a x).adapterRec a = x := kvGet_kvPut_same ..
theorem adapterRec_setAdapter_other {j a : Nat} (hj : j ≠ a) (x : AdapterRec) : (s.setAdapter a x).adapterRec j = s.adapterRec j := kvGet_kvPut_other _ _ hj _ _
@[simp] theorem gramRec_setGram_same (g : Nat) (x : GramRec) : (s.setGram g x).gramRec g = x := kvGet_kvPut_same ..
theorem gramRec_setGram_other {j g : Nat} (hj : j ≠ g) (x : GramRec) : (s.setGram g x).gramRec j = s.gramRec j := kvGet_kvPut_other _ _ hj _ _
@[simp] theorem port_setPort_same (t : Nat) (x : Port) : (s.setPort t x).port t = x := kvGet_kvPut_same ..
theorem port_setPort_other {j t : Nat} (hj : j ≠ t) (x : Port) : (s.setPort t x).port j = s.port j := kvGet_kvPut_other _ _ hj _ _

/-! ### Registers -/

@[simp] theorem reg64_setReg_same (a : Nat) (w : Word) : (s.setReg a w).reg64 a = w := kvGet_kvPut_same ..
theorem reg64_setReg_other {a b : Nat} (h : b ≠ a) (w : Word) : (s.setReg a w).reg64 b = s.reg64 b :=
  kvGet_kvPut_other _ _ h _ _

/-- A counter's next value (R13). -/
@[simp] theorem reg64_bumpBy_same (a n : Nat) : (s.bumpBy a n).reg64 a = satAdd (s.reg64 a) n := reg64_setReg_same ..
theorem reg64_bumpBy_other {a b : Nat} (h : b ≠ a) (n : Nat) : (s.bumpBy a n).reg64 b = s.reg64 b := reg64_setReg_other s h _

/-- A saturated counter stays (R13). -/
theorem satAdd_top (n : Nat) : satAdd (BitVec.allOnes 64) n = BitVec.allOnes 64 := by
  simp only [satAdd, BitVec.toNat_allOnes]
  rw [Nat.min_eq_right (by omega)]
  rfl

/-- Below the top a counter counts every event (R13). -/
theorem satAdd_toNat (w : Word) (n : Nat) (h : w.toNat + n < 2 ^ 64) : (satAdd w n).toNat = w.toNat + n := by
  simp only [satAdd, BitVec.toNat_ofNat]
  rw [Nat.min_eq_left (by omega), Nat.mod_eq_of_lt h]

end Sys2Proof.Machine
end

