-- ==== Sys2Proof/Tests/Slice0.lean ====
section
/-! SUPPORT. Tests: ill-formed commands that the check refuses, words of the spec and what they decode to, one step of a few commands on small states, and for every statement with hypotheses a state and operands that meet them (`witness_<name of the statement>`), one for each clause. -/

namespace Sys2Proof.Tests

open Sys2Proof Sys2Proof.Machine

set_option maxRecDepth 20000

/-! ### Small states -/

/-- Tile `k`, of tenant 0, runs in domain 1. -/
def runIn (s : State) (k : Nat) (x : Tile) : State :=
  { s with
    wafer.tiles := kvPut {} k { x with cho := some 1, dom := some 1 } s.wafer.tiles
    con.doms := kvPut {} 1 { state := 2, cho := 1, members := [k] } s.con.doms }

/-- A CIM tile, a vector tile and a scalar pair, each alone in its domain. -/
def sCim : State := runIn State.reset 0 {}
def sVec : State := runIn State.reset 4 {}
def sScl : State := runIn State.reset 15 {}

def wCim : At := { tile := 0, fault := false }
def wVec : At := { tile := 4, fault := false }
def wScl : At := { tile := 15, fault := false }

/-- The state a step or a command answers. -/
def after (o : Host.Outcome State Fault Refusal) : State :=
  match o with
  | .next t => t
  | _ => State.reset

/-- Pointer register `n` of a sequencer names an offset. -/
def setPtr (q : Seq) (n : Fin 16) (a st : BitVec 22) : Seq := { q with ptrs := q.ptrs.set n { addr := a, stride := st } }

/-- General register `n` of a sequencer holds a value. -/
def setGp (q : Seq) (n : Fin 32) (v : Word) : Seq := { q with gp := q.gp.set n v }

/-- The state with values in registers. -/
def withRegs (s : State) (l : List (Nat × Nat)) : State := l.foldl (fun s e => s.setReg e.1 (BitVec.ofNat 64 e.2)) s

/-- Stack region 0: the first `n` pages of stack 0, of a kind and a tenant. -/
def region0 (n kind tenant : Nat) : Nat × Nat := (aMemRegion 0, pack [(26, n), (52, kind), (56, tenant)])

/-- `Allowed` for a tile of tenant 0. -/
theorem allowed_system {s : State} {k a len : Nat}
    (h : (decide (0x10000 ≤ a) && decide (a + len ≤ kindScratch (tileKind k)) && (s.tile k).tenant == 0 &&
      !(s.dom (s.domOf k)).loupe) = true) : Allowed s k a len := by
  simp only [Bool.and_eq_true, decide_eq_true_eq, beq_iff_eq, Bool.not_eq_true'] at h
  exact ⟨h.1.1.1, h.1.1.2, Or.inl h.1.2, h.2⟩

/-- `Readable` for a tile of tenant 0 where no byte of the wafer has bad parity. -/
theorem readable_system {s : State} {k a len : Nat}
    (h : (decide (0x10000 ≤ a) && decide (a + len ≤ kindScratch (tileKind k)) && (s.tile k).tenant == 0 &&
      !(s.dom (s.domOf k)).loupe && (s.scrBad k a len).isEmpty) = true) : Readable s k a len := by
  rw [Bool.and_eq_true] at h
  exact ⟨allowed_system h.1, by simpa using h.2⟩

/-- `Ready` from its parts. -/
theorem ready_of {s : State} {w : At} {ks : List Nat}
    (h : (s.runs w.tile.toNat && ks.contains (tileKind w.tile.toNat) && !w.fault) = true) : Ready s w ks := by
  simp only [Bool.and_eq_true, Bool.not_eq_true', List.contains_iff_mem] at h
  exact ⟨h.1.1, h.1.2, h.2⟩

/-! ### The scalar pair -/

/-- Two general registers of the scalar pair hold 7 and 2^64 − 1. -/
def sGp : State := runIn State.reset 15 { seq := setGp (setGp {} 2 7) 3 (BitVec.ofNat 64 (2 ^ 64 - 1)) }

theorem witness_ScalarArithmeticWritesItsResult : Ready sGp wScl [2] := ready_of (by decide)

/-- R198: ADD wraps modulo 2^64; SLTU compares without sign. -/
theorem test_add_wraps :
    seqGp ((after (exec (.sclAdd wScl 1 2 3) sGp)).tile 15).seq 1 = 6 ∧
    seqGp ((after (exec (.sclSltu wScl 1 2 3) sGp)).tile 15).seq 1 = 1 ∧
    seqGp ((after (exec (.sclSlt wScl 1 2 3) sGp)).tile 15).seq 1 = 0 := by decide

/-- R198: a division by zero gives all ones, its remainder the dividend; GP0 stays zero. -/
theorem test_divide_by_zero :
    seqGp ((after (exec (.sclDivu wScl 1 2 0) sGp)).tile 15).seq 1 = BitVec.ofNat 64 (2 ^ 64 - 1) ∧
    seqGp ((after (exec (.sclRemu wScl 1 2 0) sGp)).tile 15).seq 1 = 7 ∧
    seqGp ((after (exec (.sclAdd wScl 0 2 2) sGp)).tile 15).seq 0 = 0 := by decide

/-- SRC1 holds the first allocatable byte of scratch. -/
def sLow : State := runIn State.reset 15 { seq := setGp (setGp {} 2 0x10000) 3 0x1122334455667788 }
/-- SRC1 holds the last 8 bytes of scratch. -/
def sHigh : State := runIn State.reset 15 { seq := setGp {} 2 0x7FFF8 }

theorem witness_ScalarLoadsStoresAndPointers :
    Ready sLow wScl [2] ∧ Ready sHigh wScl [2] ∧
    Readable sLow 15 0x10000 8 ∧ Readable sHigh 15 0x7FFF8 8 ∧ Allowed sHigh 15 0x7FFF8 8 ∧
    (seqGp (sHigh.tile 15).seq 2 + BitVec.ofInt 64 (0 : Half).toInt).toNat / 8 * 8 = 0x7FFF8 ∧
    (seqGp (sLow.tile 15).seq 2 + BitVec.ofInt 64 (0 : Half).toInt).toNat / 4 * 4 = 0x10000 :=
  ⟨ready_of (by decide), ready_of (by decide), readable_system (by decide), readable_system (by decide),
    allowed_system (by decide), by decide, by decide⟩

/-- R198: SD stores little-endian; LB of its second byte zero-extends. -/
theorem test_store_is_little_endian :
    (after (exec (.sclSd wScl 2 3 0) sLow)).scr 15 0x10000 2 = [0x88, 0x77] ∧
    seqGp ((after (exec (.sclLb wScl 1 2 1) (after (exec (.sclSd wScl 2 3 0) sLow)))).tile 15).seq 1 = 0x77 := by decide

theorem witness_ScalarBranchesContinue : Ready sGp wScl [2] := ready_of (by decide)

/-- R187, R198: a taken branch out of the innermost body leaves its loop level. -/
theorem test_branch_leaves_loop :
    let s := runIn State.reset 15 { seq := { loops := [{ remain := 3, start := 1, last := 4, adv := 0 }], idx := 2 } }
    ((after (exec (.sclJmp wScl 9) s)).tile 15).seq.loops = [] ∧
    ((after (exec (.sclJmp wScl 3) s)).tile 15).seq.loops.length = 1 := by decide

/-! ### Control, flags, queues and MOVE -/

/-- A body of one instruction, with the named pointer advanced, at its last iteration or before it. -/
def loopQ (n : BitVec 16) : Seq :=
  { setPtr {} 3 0x3FFFF0 0x20 with idx := 5, loops := [{ remain := n, start := 5, last := 5, adv := 8 }] }

theorem witness_PointerAndLoopInstructions :
    Ready sCim wCim [0, 1, 2] ∧ Ready sVec wVec [0, 1, 2] ∧ Ready sScl wScl [0, 1, 2] ∧
    (∃ l rest, (loopQ 0).loops = l :: rest ∧ l.last = (loopQ 0).idx.toNat ∧ (∀ m ∈ rest, m.last ≠ (loopQ 0).idx.toNat) ∧ l.remain = 0) ∧
    (∃ l rest, (loopQ 2).loops = l :: rest ∧ l.last = (loopQ 2).idx.toNat ∧ (∀ m ∈ rest, m.last ≠ (loopQ 2).idx.toNat) ∧ l.remain ≠ 0) :=
  ⟨ready_of (by decide), ready_of (by decide), ready_of (by decide), ⟨_, _, rfl, by decide, by decide, by decide⟩,
    ⟨_, _, rfl, by decide, by decide, by decide⟩⟩

/-- R187: the advance happens at the last iteration too, modulo 2^22. -/
theorem test_loop_end_advances :
    (seqPtr (seqNext (loopQ 0)) 3).addr = 0x10 ∧ (seqNext (loopQ 0)).idx = 6 ∧ (seqNext (loopQ 2)).idx = 5 := by decide

/-- A tile with two remote operations outstanding. -/
def sOut : State := runIn State.reset 0 { seq := { remoteOut := 2 } }

theorem witness_BarArrivesOrWaits :
    Ready sCim wCim [0, 1, 2] ∧ (sCim.tile 0).seq.remoteOut = 0 ∧ sCim.beatOf 0 = 0 ∧
    wCim.fault = false ∧ (sOut.tile wCim.tile.toNat).seq.remoteOut ≠ 0 :=
  ⟨ready_of (by decide), by decide, by decide, rfl, by decide⟩

/-- R185: BAR without JUMP resumes at the following instruction, with JUMP at NEXT. -/
theorem test_bar_resume_point :
    ((after (exec (.bar wCim false 7) sCim)).tile 0).seq.idx = 1 ∧ ((after (exec (.bar wCim true 7) sCim)).tile 0).seq.idx = 7 ∧
    ((after (exec (.bar wCim true 7) sCim)).dom 1).arrived = [0] := by decide

/-- Flag 5 of field 0: tile 0 waits, tile 0 signals, with a count; a request or a wait of the tile; signals on their way. -/
def sFlag (n : BitVec 16) (wait : Wait) (req : Option (BitVec 16)) (sig : List Signal) : State :=
  { runIn State.reset 0 { wait := wait } with
    con := { (runIn State.reset 0 { wait := wait }).con with
      flags := [(5, { cho := some 1, dom := 1, waiter := 0, signallers := [0], count := n, request := req })] }
    wafer := { (runIn State.reset 0 { wait := wait }).wafer with signals := sig } }

theorem witness_FlagInstructionsAndViolations :
    -- FLAG.WAIT
    (Ready (sFlag 0 .no none []) wCim [0, 1, 2] ∧ ((sFlag 0 .no none []).flag 5).cho ≠ none ∧ ((sFlag 0 .no none []).flag 5).waiter = 0) ∧
    -- FLAG.SIGNAL
    (sFlag 0 .no none []).beatOf 0 = 0 ∧
    -- arrival up to the top value
    (let s := sFlag 65530 .no none [{ tile := 0, flag := 5, amount := 5, beat := 0 }]
     s.wafer.signals = [] ++ [{ tile := 0, flag := 5, amount := 5, beat := 0 }] ++ [] ∧ (s.flag 5).cho ≠ none ∧
       0 ∈ (s.flag 5).signallers ∧ (s.flag 5).count.toNat + (5 : BitVec 16).toNat ≤ 65535) ∧
    -- answer with the count at the value asked for
    (let s := sFlag 3 (.flag 5 3) (some 3) []
     (s.flag 5).request = some 3 ∧ (s.flag 5).waiter = 0 ∧ (s.tile 0).wait = .flag 5 3 ∧ (3 : BitVec 16).toNat ≤ (s.flag 5).count.toNat ∧
       s.beatOf 0 = 0) ∧
    -- a wait on an unassigned flag, and by a tile that is not its waiter
    ((sFlag 0 .no none []).flag 6).cho = none ∧
    (Ready sVec wVec [0, 1, 2] ∧ (sVec.flag 5).cho = none) ∧
    -- an arrival from a tile that is no signaller of flag 6, and one above the top value
    (let s := sFlag 0 .no none [{ tile := 0, flag := 6, amount := 5, beat := 0 }]
     s.wafer.signals = { tile := 0, flag := 6, amount := 5, beat := 0 } :: [] ∧ (s.dom (s.domOf 0)).state ≠ 0 ∧ (s.flag 6).cho = none) ∧
    (let s := sFlag 65531 .no none [{ tile := 0, flag := 5, amount := 5, beat := 0 }]
     s.wafer.signals = { tile := 0, flag := 5, amount := 5, beat := 0 } :: [] ∧ (s.dom (s.domOf 0)).state ≠ 0 ∧ (s.flag 5).cho ≠ none ∧
       0 ∈ (s.flag 5).signallers ∧ 65535 < (s.flag 5).count.toNat + (5 : BitVec 16).toNat) :=
  ⟨⟨ready_of (by decide), by decide, by decide⟩, by decide, by decide, by decide, by decide, ⟨ready_of (by decide), by decide⟩,
    by decide, by decide⟩

/-- R156, R172: a signal that would pass 65,535 leaves the flag and stops the domain. -/
theorem test_flag_overflow :
    let t := after (exec (.flagSignalArrive 0 5) (sFlag 65531 .no none [{ tile := 0, flag := 5, amount := 5 }]))
    (t.flag 5).count = 65531 ∧ (t.dom 1).state = 6 ∧ t.rfld aChoViolInfo 7 0 = 5 ∧ t.frozenAt 0 0 = true := by decide

/-- R456: an answer subtracts the value and the tile goes on. -/
theorem test_flag_answer :
    let t := after (exec (.flagWaitAnswer 0 5) (sFlag 4 (.flag 5 3) (some 3) []))
    (t.flag 5).count = 1 ∧ (t.tile 0).wait = .no ∧ (t.tile 0).seq.idx = 1 := by decide

/-- Queue 9 of field 0, depth 4, at scratch 0x20000 of tile 0, whose head stands at the last slot and whose tail has gone round;
Pn points elsewhere. -/
def sQueue (tail : Nat) (gated : Bool) : State :=
  let s := runIn State.reset 0 { seq := setPtr {} 2 0x30000 0 }
  { s with
    con := { s.con with
      queues := [(9, { cho := some 1, depth := 4, gated := gated, consumer := 0, store := 0x20000, prodDom := 1, consDom := 1,
                       producers := [0], head := 3, free := 3, tail := tail, pub := tail })] }
    wafer := { s.wafer with scratch := [(0x20000, 0xBB), (0x20180, 0xAA)] } }

theorem witness_QueueInstructionsActOrWait :
    (let s := sQueue 5 false
     Ready s wCim [0, 1, 2] ∧ (s.queue 9).cho ≠ none ∧ (s.queue 9).consumer = 0 ∧
       2 ≤ ((s.queue 9).pub + 2 * (s.queue 9).depth - (s.queue 9).head) % (2 * (s.queue 9).depth) ∧ s.beatOf 0 = 0 ∧
       (seqPtr (s.tile 0).seq 2).addr.toNat / 128 * 128 = 0x30000 ∧ Allowed s 0 0x30000 256 ∧
       ∀ i, i < 2 → (s.queue 9).store + 128 * (((s.queue 9).head + i) % (2 * (s.queue 9).depth) % (s.queue 9).depth) + 128 ≤ 0x30000 ∨
         0x30000 + 128 * 2 ≤ (s.queue 9).store + 128 * (((s.queue 9).head + i) % (2 * (s.queue 9).depth) % (s.queue 9).depth)) ∧
    (let s := sQueue 4 false
     (s.queue 9).cho ≠ none ∧ (s.queue 9).consumer = wCim.tile.toNat ∧
       ((s.queue 9).pub + 2 * (s.queue 9).depth - (s.queue 9).head) % (2 * (s.queue 9).depth) < (1 : BitVec 12).toNat + 1) :=
  ⟨⟨ready_of (by decide), by decide, by decide, by decide, by decide, by decide, allowed_system (by decide), by decide⟩, by decide⟩

/-- R157, R189: two flits taken across the end of the ring arrive in ring order; a gated queue keeps its slots. -/
theorem test_take_wraps :
    let t := after (exec (.queueTake wCim 2 1 9) (sQueue 5 false))
    let u := after (exec (.queueRelease wCim 1 9) (sQueue 5 true))
    t.scr 0 0x30000 1 = [0xAA] ∧ t.scr 0 0x30080 1 = [0xBB] ∧ (t.queue 9).head = 5 ∧ (t.queue 9).free = 5 ∧
    (u.queue 9).head = 5 ∧ (u.queue 9).free = 3 := by decide

/-- P2 points at the last flit buffer of the tile's scratch, P3 at a stack record with address 0 (region 0 is open to tag 0). -/
def sMove : State :=
  let s := withRegs (sQueue 5 false) [region0 16 1 0]
  { s with wafer.tiles := [(0, { cho := some 1, dom := some 1, seq := setPtr (setPtr {} 2 0xFFF80 0) 3 0x10000 0 })] }

theorem witness_MoveInstructions :
    Ready sMove wCim [0, 1, 2] ∧ (seqPtr (sMove.tile 0).seq 2).addr.toNat / 128 * 128 = 0xFFF80 ∧ Allowed sMove 0 0xFFF80 128 ∧
    (sMove.queue 9).cho ≠ none ∧ 0 ∈ (sMove.queue 9).producers ∧
    (seqPtr (sMove.tile 0).seq 3).addr.toNat / 16 * 16 = 0x10000 ∧ Readable sMove 0 0x10000 8 ∧
    leNat (sMove.scr 0 0x10000 8) % 2 ^ 48 / 128 * 128 = 0 ∧ sMove.stackAllows (sMove.tile 0).tenant.toNat 0 128 = true :=
  ⟨ready_of (by decide), by decide, allowed_system (by decide), by decide, by decide, by decide, readable_system (by decide), by decide,
    by decide⟩

/-- R190: PUT offers its flits and waits until they are taken; RECV waits for its flits. -/
theorem test_put_and_recv :
    ((after (exec (.movePut wCim 2 0 9) sMove)).tile 0).outbox.length = 1 ∧
    ((after (exec (.movePut wCim 2 0 9) sMove)).tile 0).wait = .sending ∧
    ((after (exec (.moveRecv wCim 2 0) sMove)).tile 0).wait = .recv 0xFFF80 1 := by decide

/-- The record at P3 names module 1, window 0, edge 0, offset 0. -/
def sRemote : State := { sMove with wafer.scratch := [(0x10000, 1)] }

theorem witness_RemoteInstructionsTakeACompletionEntry :
    let r := wordsOf (sRemote.scr 0 0x10000 32)
    Ready sRemote wCim [0, 1, 2] ∧ sRemote.frozenAt 1 0 = false ∧ Readable sRemote 0 0x10000 32 ∧ Allowed sRemote 0 0xFFF80 128 ∧
    recFld r 0 9 0 ≠ sRemote.rfld aFabModId 9 0 ∧ recFld r 1 39 0 % 128 = 0 ∧ recFld r 0 63 24 = 0 ∧ recFld r 1 63 40 = 0 ∧
    recFld r 2 63 20 = 0 ∧ wordAt r 3 = 0 ∧
    ((sRemote.fab.ctab.map Prod.fst).filter (fun e => e / 32768 == recFld r 0 11 10)).length < 32768 ∧ kvRising sRemote.fab.ctab = true :=
  ⟨ready_of (by decide), by decide, readable_system (by decide), allowed_system (by decide), by decide, by decide, by decide, by decide,
    by decide, by decide, by decide, by decide⟩

/-- R290: the operation takes entry 0 and one more remote operation is outstanding. -/
theorem test_remote_write_takes_entry :
    let t := after (exec (.moveRwr wCim 2 3 0) sRemote)
    (kvFind 0 t.fab.ctab).isSome = true ∧ (t.tile 0).seq.remoteOut = 1 ∧ (t.tile 0).outbox.length = 2 := by decide

/-! ### The vector tile -/

/-- A vector tile with its pointers P1 to P4 at four places. -/
def sVecP : State :=
  runIn State.reset 4 { seq := setPtr (setPtr (setPtr (setPtr {} 1 0x10000 0) 2 0x20000 0) 3 0x30000 0) 4 0x40000 0 }

/-- An operation on `n` + 1 elements of a format. -/
def vop (fmt dfmt : BitVec 3) (n : BitVec 10) : VecOps :=
  { fmt := fmt, dst := 4, srcA := 1, srcB := 2, srcC := 3, lslot := 7, dfmt := dfmt, elems := n }

/-- `VecFits` for the three sources at P1, P2 and P3. -/
theorem fits_of {o : VecOps} {srcs : List (BitVec 4 × Nat)} {len : Nat}
    (hc : countOk o.fmt.toNat o.dfmt.toNat (o.elems.toNat + 1) = true)
    (hs : srcs.all (fun e => decide (0x10000 ≤ sVecP.ptr16 4 e.1) &&
      decide (sVecP.ptr16 4 e.1 + elemLen o.fmt.toNat e.2 ≤ kindScratch (tileKind 4)) && (sVecP.tile 4).tenant == 0 &&
      !(sVecP.dom (sVecP.domOf 4)).loupe && (sVecP.scrBad 4 (sVecP.ptr16 4 e.1) (elemLen o.fmt.toNat e.2)).isEmpty) = true)
    (hd : (decide (0x10000 ≤ sVecP.ptr16 4 o.dst) && decide (sVecP.ptr16 4 o.dst + len ≤ kindScratch (tileKind 4)) &&
      (sVecP.tile 4).tenant == 0 && !(sVecP.dom (sVecP.domOf 4)).loupe) = true) : VecFits sVecP 4 o srcs len :=
  ⟨hc, fun e he => readable_system (List.all_eq_true.mp hs e he), allowed_system hd⟩

theorem witness_VecArithmeticWritesEveryElement :
    Ready sVecP wVec [1] ∧
    VecFits sVecP 4 (vop 0 0 127) [(1, 128), (2, 128)] (elemLen 0 128) ∧
    VecFits sVecP 4 (vop 1 1 255) [(1, 256), (2, 256), (3, 256)] (elemLen 1 256) ∧
    VecFits sVecP 4 (vop 2 2 511) [(1, 512)] (elemLen 2 512) ∧
    VecFits sVecP 4 (vop 0 0 0) [(1, 1), (3, 1)] (elemLen 0 1) :=
  ⟨ready_of (by decide), fits_of (by decide) (by decide) (by decide), fits_of (by decide) (by decide) (by decide),
    fits_of (by decide) (by decide) (by decide), fits_of (by decide) (by decide) (by decide)⟩

theorem witness_VecFunctionsFollowTheirBounds :
    Ready sVecP wVec [1] ∧ VecFits sVecP 4 (vop 0 0 127) [(1, 128)] (4 * 128) ∧
    0x80000000 < 0xFF800000 ∧ fdec fp32 0x7F800001 = .nan ∧ fdec fp32 0xFFFFFFFF = .nan ∧
    ((2 : Nat) ^ 23 ≤ 2 ^ 24 - 1 ∧ (2 : Nat) ^ 24 - 1 < 2 ^ 24 ∧ (-120 : Int) ≤ 70) :=
  ⟨ready_of (by decide), fits_of (by decide) (by decide) (by decide), by decide, by decide, by decide, by decide⟩

theorem witness_VecReductionsCopiesAndConversions :
    Ready sVecP wVec [1] ∧ VecFits sVecP 4 (vop 2 2 511) [(1, 512), (3, 1)] (elemLen 2 1) ∧
    VecFits sVecP 4 (vop 4 4 255) [(1, 256)] (elemLen 4 256) ∧ VecFits sVecP 4 (vop 1 0 127) [(1, 128)] (elemLen 0 128) ∧
    VecFits sVecP 4 (vop 0 3 127) [(1, 128)] (elemLen 3 128) ∧ VecFits sVecP 4 (vop 3 1 31) [(1, 32)] (elemLen 1 32) :=
  ⟨ready_of (by decide), fits_of (by decide) (by decide) (by decide), fits_of (by decide) (by decide) (by decide),
    fits_of (by decide) (by decide) (by decide), fits_of (by decide) (by decide) (by decide),
    fits_of (by decide) (by decide) (by decide)⟩

theorem witness_ChecksMarkTheStepForReplay :
    (sScl.runs 15 = true ∧ tileKind 15 = 2) ∧
    (sVecP.runs 4 = true ∧ tileKind 4 = 1 ∧ VecFits sVecP 4 (vop 0 0 0) [(1, 1), (2, 1)] 4) :=
  ⟨by decide, by decide, by decide, fits_of (by decide) (by decide) (by decide)⟩

/-- R126: the mismatch suppresses the effect and marks the step; the instruction is executed again. -/
theorem test_lockstep :
    let t := after (exec (.sclLi { wScl with fault := true } 1 5) sScl)
    seqGp (t.tile 15).seq 1 = 0 ∧ (t.tile 15).seq.idx = 0 ∧ (t.tile 15).mark = true ∧ t.reg64 aRepLockstepErrCnt = 1 := by decide

/-- R118: 1.0 + 1.0, 1/0 and the smallest index of the result. -/
theorem test_vec_values :
    fenc fp32 (fadd (fdec fp32 0x3F800000) (fdec fp32 0x3F800000)) = 0x40000000 ∧ fenc fp32 (frcp (fdec fp32 0x80000000)) = 0xFF800000 ∧
    fenc bf16 (fdec fp32 0x3F808000) = 0x3F80 ∧ fenc bf16 (fdec fp32 0x3F818000) = 0x3F82 := by decide

theorem witness_DotAccumulatesAndWritesBack :
    Ready sVecP wVec [1] ∧ Readable sVecP 4 (sVecP.ptr16 4 1) (64 * 32) ∧ Readable sVecP 4 (sVecP.ptr16 4 2) (64 * 32) ∧
    Allowed sVecP 4 (sVecP.ptr16 4 4) (4096 * 4) :=
  ⟨ready_of (by decide), readable_system (by decide), readable_system (by decide), allowed_system (by decide)⟩

/-- Two FP32 logits 1.0 and 2.0 at P1, temperature 0, P 1.0 and K 1 at P2. -/
def sSample : State :=
  { sVecP with wafer.scratch :=
      [(4 * 2 ^ 22 + 0x10002, 0x80), (4 * 2 ^ 22 + 0x10003, 0x3F), (4 * 2 ^ 22 + 0x10007, 0x40),
       (4 * 2 ^ 22 + 0x20006, 0x80), (4 * 2 ^ 22 + 0x20007, 0x3F), (4 * 2 ^ 22 + 0x20014, 0x01)] }

/-- SAMPLE of two FP32 logits with a mask mode; the mask and the grammar word are at P3, zeros. -/
def sampleOps (mmode : BitVec 2) : SampleOps :=
  { logP := 1, maskP := 3, parP := 2, resP := 4, lfmt := true, mmode := mmode, v := 1, lslot := 0 }

/-- The grammar word at P3 names the object at page 1 of the open region 0, in state 0. -/
def sGrammar : State :=
  { withRegs sSample [region0 16 1 0] with
    wafer.scratch := memWrite 0 (scrKey 4 0x30000) (natLe 8 (2 ^ 63 + 2 ^ 20)) sSample.wafer.scratch }

theorem witness_SampleSelectsAToken :
    Ready sSample wVec [1] ∧ Readable sSample 4 (sSample.ptr16 4 1) 8 ∧ Readable sSample 4 (sSample.ptr16 4 2) 24 ∧
    Allowed sSample 4 (sSample.ptr16 4 4) 16 ∧ (sampleOps 0).mmode ≠ 3 ∧ (sampleOps 1).mmode ≠ 3 ∧ (sampleOps 2).mmode ≠ 3 ∧
    Readable sSample 4 (sSample.ptr16 4 3) ((2 + 7) / 8) ∧ Readable sSample 4 (sSample.ptr16 4 3) 8 ∧
    (Readable sGrammar 4 (sGrammar.ptr16 4 3) 8 ∧ bit (leNat (sGrammar.scr 4 (sGrammar.ptr16 4 3) 8)) 63 = true ∧
      let g := sGrammar.gramView (bits (leNat (sGrammar.scr 4 (sGrammar.ptr16 4 3) 8)) 45 20)
        (bits (leNat (sGrammar.scr 4 (sGrammar.ptr16 4 3) 8)) 19 0)
      ∀ r ∈ g.reads ++ (if g.ntrans != 0 then [(g.trans, 8 * g.ntrans)] else []), sGrammar.stackAllows 0 r.1 r.2 = true) :=
  ⟨ready_of (by decide), readable_system (by decide), readable_system (by decide), allowed_system (by decide), by decide, by decide,
    by decide, readable_system (by decide), readable_system (by decide), readable_system (by decide), by decide, by decide⟩

/-- R260: with temperature 0 the largest logit is taken. -/
theorem test_sample_takes_the_largest :
    let o : SampleOps := { logP := 1, maskP := 0, parP := 2, resP := 4, lfmt := true, mmode := 0, v := 1, lslot := 0 }
    let t := after (exec (.sample wVec o) sSample)
    leNat (t.scr 4 0x40000 8) = 1 ∧ leNat (t.scr 4 0x40008 4) = 0x40000000 := by decide

/-- A vector tile that consumes queue 9 of depth 4 with four flits in it. -/
def sSide : State :=
  { sVecP with con.queues := [(9, { cho := some 1, depth := 4, consumer := 4, store := 0x50000, tail := 4, pub := 4 })] }

theorem witness_SidestepAndOutlierDetection :
    Ready sSide wVec [1] ∧
    -- ENC: one block of FP32 from P1 to P2 with entries at P3
    (Readable sSide 4 (sSide.ptr16 4 1) 2048 ∧ Allowed sSide 4 (sSide.ptr16 4 2) 272 ∧ Allowed sSide 4 (sSide.ptr16 4 3) 128 ∧
      sSide.ptr16 4 2 + 272 ≤ sSide.ptr16 4 3) ∧
    -- WADD
    (Readable sSide 4 (sSide.ptr16 4 1) 2048 ∧ Readable sSide 4 (sSide.ptr16 4 2) (1024 + 4 * 1024) ∧
      Readable sSide 4 (sSide.ptr16 4 3) 272 ∧ Readable sSide 4 (sSide.ptr16 4 4) (256)) ∧
    -- AADD with two entries
    ((sSide.queue 9).cho ≠ none ∧ (sSide.queue 9).consumer = 4 ∧
      2 * 1 * 2 ≤ ((sSide.queue 9).pub + 2 * (sSide.queue 9).depth - (sSide.queue 9).head) % (2 * (sSide.queue 9).depth) ∧
      sSide.beatOf 4 = 0 ∧
      ∀ i, i < 2 * 1 * 2 → sSide.scrBad 4 ((sSide.queue 9).store + 128 * (((sSide.queue 9).head + i) % (2 * (sSide.queue 9).depth) %
        (sSide.queue 9).depth)) 128 = []) ∧
    -- outlier detection
    (List.replicate 512 (Fv.fin false 1 0)).length = 512 :=
  ⟨ready_of (by decide), ⟨readable_system (by decide), allowed_system (by decide), allowed_system (by decide), by decide⟩,
    ⟨readable_system (by decide), readable_system (by decide), readable_system (by decide), readable_system (by decide)⟩,
    by decide, List.length_replicate⟩

/-! ### Arrays -/

/-- A product on array 0 at G = 16 and gain `g`, the first input element at code `c`. -/
def prod (autoSplit : Bool) (gsel gain : BitVec 3) (codes : List Int) (groups : List (Nat × Nat × Nat)) (tr : Bool) : Product :=
  { ops := { lslot := 17, arr := 0, nch := 0, gsel := gsel, gain := gain, autoSplit := autoSplit, ofmt := 3, inP := 1, outP := 2 }
    transpose := tr, eMax := 125, codes := codes, acc := List.replicate 512 0, groups := groups }

/-- A CIM tile with its input at P1 and its output at P2, a product, and weight 7 in the first two rows of column 0. -/
def sPass (pr : Option Product) : State :=
  { runIn State.reset 0 { seq := setPtr (setPtr {} 1 0x10000 0) 2 0x20000 0, product := pr, wait := if pr.isSome then .product else .no } with
    arr := { cells := [(0, 7), (512, 7)] } }

/-- Input block 0 has exponent 0x7D and code 3 in element 0; the other blocks are zero. -/
def sProd (e : Byte) : State := { sPass none with wafer.scratch := [(0x10000, e), (0x10001, 3)] }

def mvmOps (ofmt : BitVec 2) : ProdOps :=
  { lslot := 17, arr := 15, nch := 0, gsel := 4, gain := 4, autoSplit := false, ofmt := ofmt, inP := 1, outP := 2 }

theorem witness_ProductsStart :
    let s := sProd 0x7D
    Ready s wCim [0] ∧ (mvmOps 3).gsel.toNat ≤ 4 ∧ (mvmOps 3).arr.toNat + (mvmOps 3).nch.toNat ≤ 15 ∧ Readable s 0 (s.ptr16 0 1) 272 ∧
    (s.tile 0).tenant = 0 ∧ (∀ b, b < 16 → leNat (s.scr 0 (s.ptr16 0 1 + 17 * b) 1) ≠ 255) ∧ Allowed s 0 (s.ptr16 0 2) (outLen 3) ∧
    ∃ i, i < 256 ∧ alignedAt s 0 (s.ptr16 0 1) 125 i ≠ 0 :=
  ⟨ready_of (by decide), by decide, by decide, readable_system (by decide), by decide, by decide, allowed_system (by decide),
    ⟨0, by decide, by decide⟩⟩

theorem witness_PoisonInputMakesEveryOutputPoison :
    let s := sProd 0xFF
    Ready s wCim [0] ∧ (mvmOps 0).gsel.toNat ≤ 4 ∧ (mvmOps 0).arr.toNat + (mvmOps 0).nch.toNat ≤ 15 ∧ Readable s 0 (s.ptr16 0 1) 272 ∧
    Allowed s 0 (s.ptr16 0 2) (outLen 0) ∧ Allowed s 0 (s.ptr16 0 2) (outLen 1) ∧ Allowed s 0 (s.ptr16 0 2) (outLen 2) ∧
    Allowed s 0 (s.ptr16 0 2) (outLen 3) ∧ ∃ b, b < 16 * 1 ∧ leNat (s.scr 0 (s.ptr16 0 1 + 17 * b) 1) = 255 :=
  ⟨ready_of (by decide), by decide, by decide, readable_system (by decide), allowed_system (by decide), allowed_system (by decide),
    allowed_system (by decide), allowed_system (by decide), ⟨0, by decide, by decide⟩⟩

/-- R47, R104: one POISON event, the instruction is done. -/
theorem test_poison_product :
    let t := after (exec (.mvm wCim (mvmOps 0)) (sProd 0xFF))
    (t.dom 1).events = [{ slot := 17, kind := 5, amount := 1 }] ∧ (t.tile 0).seq.idx = 1 ∧ t.scr 0 0x20000 2 = [0xFF, 0] := by decide

/-- Two groups of 16 rows, both driven, and the second of a pass at gain 7. -/
def twoGroups (tr : Bool) : Product := prod false 0 7 (3 :: List.replicate 15 0 ++ [1]) [(0, 0, 16), (0, 16, 16)] tr
/-- One group of 32 rows whose two driven rows give column 0 the charge 112 at gain 0, beyond its range. -/
def clipping : Product := prod true 1 0 [8, 8] [(0, 0, 32)] false

theorem witness_PassesAccumulateOrSplit :
    (∀ tr, PassWaits (sPass (some (twoGroups tr))) 0 0 (twoGroups tr) (0, 0, 16) [(0, 16, 16)] ∧ Driven (twoGroups tr) (0, 16, 16) ∧
      (twoGroups tr).acc.length = 512) ∧
    4 * (chargeAt (sPass (some (twoGroups false))) 0 0 (twoGroups false) (0, 0, 16) 0).natAbs ≤ 251 * 2 ^ 7 ∧
    PassWaits (sPass (some clipping)) 0 0 clipping (0, 0, 32) [] ∧ clipping.transpose = false ∧ clipping.ops.autoSplit = true ∧
    Driven clipping (0, 0, 16) ∧ 259 * 2 ^ 0 ≤ 4 * (chargeAt (sPass (some clipping)) 0 0 clipping (0, 0, 32) 0).natAbs :=
  ⟨fun tr => ⟨by cases tr <;> (unfold PassWaits; decide), ⟨0, by cases tr <;> decide⟩, List.length_replicate⟩, by decide,
    by unfold PassWaits; decide, rfl, rfl, ⟨0, by decide⟩, by decide⟩

/-- SIDE.FETCH with one entry. -/
def fetchOps : FetchOps := { arr := 15, listP := 1, ca := 1, nblk := 0, queue := 9 }
def sFetch : State := { sPass none with con.queues := [(9, { cho := some 1, depth := 4, consumer := 4, producers := [0], prodDom := 1 })] }

theorem witness_FetchSendsTwoFlitsForEverySlot :
    Ready sFetch wCim [0] ∧ fetchOps.arr.toNat + fetchOps.nblk.toNat ≤ 15 ∧ 0 < fetchOps.ca.toNat ∧ (sFetch.queue 9).cho ≠ none ∧
    0 ∈ (sFetch.queue 9).producers ∧ (sFetch.tile 0).tenant = 0 ∧ Readable sFetch 0 (sFetch.ptr16 0 1) 128 ∧
    (∀ b, b < 1 → ∃ p, sFetch.physOf 0 (15 + b) = some p ∧ (sFetch.arrayRec 0 p).state ≠ 3) :=
  ⟨ready_of (by decide), by decide, by decide, by decide, by decide, by decide, readable_system (by decide),
    fun b hb => ⟨15, by (obtain rfl : b = 0 := by omega); decide, by decide⟩⟩

/-- An array of tile 0 that programming or erasing of instance 3 has taken; the shadow record lies at stack address 0. -/
def sArr (why : ProgWhy) : State :=
  { withRegs State.reset [region0 16 1 0] with
    arr := { running := [{ tile := 0, p := 16, record := 0, inst := 3, why := why }]
             recs := [(16, { state := 3, bound := false, logical := 15 })] }
    load := { insts := [(3, { state := 2, gen := 1, placed := [{ tile := 0, larr := 0, pos := 0, sideOff := 0, k := 0, shard := 0, slot := 0 }] })] } }

/-- Field 0 is powered; array 0 is loaded for instance 3 and due for a refresh; a spare serves the columns of converter 5 of the
spare array; 30 s have passed. -/
def sLive : State :=
  { withRegs (sArr .load) [(aPwrDomain 1, 750 + 2 ^ 20)] with
    clock := 30000000
    arr := { recs := [(0, { inst := 3, gen := 1, logical := 0, recheck := true }),
                      (16, { state := 2, bound := false, logical := 15, colSwaps := [5] })] } }

theorem witness_ArrayMaintenanceCommands :
    (∃ r, (sArr .load).progOf 0 16 = some r ∧ r.why = .load ∧ (sArr .load).arr.waiting = [] ∧ ((sArr .load).inst r.inst.toNat).state ≠ 0) ∧
    (∃ r, (sArr .erase).progOf 0 16 = some r ∧ r.why = .erase ∧ (sArr .erase).arr.waiting = [] ∧ (sArr .erase).engineWaits = false ∧
      (sArr .erase).jobOf r.inst.toNat = none) ∧
    (tileKind 0 = 0 ∧ (sLive.arrayRec 0 16).state ≠ 3 ∧ (sLive.arrayRec 0 16).state ≠ 4 ∧ (sLive.arrayRec 0 16).colSwaps.length < 2 ∧
      (sLive.tile 0).dom = none ∧ 7 ∉ (sLive.arrayRec 0 16).colSwaps ∧ (sLive.arrayRec 0 16).colSwaps[0]? = some 5 ∧
      5 ∉ (sLive.arrayRec 0 16).colSwaps.drop 1) ∧
    ((sLive.arrayRec 0 16).lastUse + 30000000 ≤ sLive.clock ∧ (withRegs sLive [(aKeepState, 10)]).order = 10 ∧ sLive.mapOf 0 ≠ 2 ∧ sLive.rbit aRepCtrl 0 = true ∧ sLive.fieldOn (fieldOf 0) = true ∧ sLive.inCal (fieldOf 0) = false) ∧
    ((sLive.arrayRec 0 0).state = 0 ∧ (sLive.arrayRec 0 0).bound = true ∧ sLive.arrayOwned (sLive.arrayRec 0 0) = true ∧
      (∃ a, sLive.recordOf 3 0 0 = some a ∧ sLive.stackOffline (stackOf a) = false) ∧ sLive.progAsked 0 0 = false ∧
      (sLive.arrayRec 0 0).recheck = true) :=
  ⟨⟨_, rfl, by decide, by decide, by decide⟩, ⟨_, rfl, by decide, by decide, by decide, by decide⟩, by decide, by decide,
    by decide, by decide, by decide, ⟨0, by decide, by decide⟩, by decide, by decide⟩

/-- The array after a self-test that finds one column converter out of limit. -/
def selfTested (number : Nat) : ArrayRec :=
  (after (exec (.converterSelfTest 0 16 [{ kind := .column, number := number }]) sLive)).arrayRec 0 16

/-- R44, R69: a spare that serves converter 5's columns fails and the second spare takes them; converter 5 serves none any more. -/
theorem test_spare_takes_columns :
    (selfTested 64).colSwaps = [5, 5] ∧ (selfTested 7).colSwaps = [5, 7] ∧ (selfTested 5).colSwaps = [5] := by decide

/-! ### The meshes -/

/-- A flit of zeros. -/
def flit0 : Flit := { bytes := List.replicate 128 0 }

/-- Link 0 holds a flit on its way and lane 3 waiting to be replaced. -/
def sLink : State :=
  { withRegs State.reset [(aPwrDomain 1, 750 + 2 ^ 20)] with wafer.links := [(0, { wire := [flit0], swaps := [3] })] }

/-- A sync flit of the word 1, with odd parity in every byte, and one whose byte 0 has bad parity. -/
def syncGood : SyncFlit := { word := 1, par := 0xE }
def syncBad : SyncFlit := { word := 1, par := 0xF }

theorem witness_MeshInputsCheckAndTally :
    ((sLink.link 0).wire = flit0 :: [] ∧ (∀ b ∈ flit0.bad, b ∈ flit0.marks) ∧ (127 : Nat) < 128 ∧ 127 ∉ flit0.bad ∧ 127 ∉ flit0.marks ∧
      flit0.bytes.length = 128 ∧ (sLink.link 0).swapped = [] ∧ kvFind 127 (sLink.link 0).errAt = none ∧
      (kvGet 0 127 (sLink.link 0).tally).toNat < 65535) ∧
    ((sLink.link 0).swaps = [3] ∧ ∀ d ∈ sLink.linkDoms 0 0, sLink.atBoundary d = true) ∧
    (sLink.fieldOn (fieldOf 0) = true ∧ neighbour 0 0 = none ∧ State.reset.fieldOn (fieldOf 0) = false) ∧
    ((sLink.link 0).syncRetired = false ∧ (sLink.link 0).aFailed = false ∧ (sLink.link 0).bFailed = false) ∧
    ∀ f ∈ [syncGood, { word := 0, par := 0xF }, syncBad], ((∀ i, i < 4 →
      (((List.range 8).filter (fun j => f.word.getLsbD (8 * i + j))).length + (if f.par.getLsbD i then 1 else 0)) % 2 = 1) ↔
        f ≠ syncBad) := by decide

/-- R30: a second bad parity on plane A within 1 s fails the plane. -/
theorem test_plane_fails :
    let rx : SyncRx := { a := syncBad, b := syncGood }
    let t := after (exec (.syncFlitReceive 0 0 rx) (after (exec (.syncFlitReceive 0 0 rx) sLink)))
    (t.link 0).aFailed = true ∧ (t.link 0).bFailed = false ∧ t.reg64 aRepSyncPlaneErrCnt = 2 := by decide

/-- Position 113 of field 0, powered: output 1 (east) takes one flit from input 0 (north) in the step of domain 1; the
input holds `n` flits. -/
def sTurn (n : Nat) : State :=
  { withRegs (runIn State.reset 0 {}) [(aPwrDomain 1, 750 + 2 ^ 20)] with
    wafer := { (runIn State.reset 0 {}).wafer with
      links := if n = 0 then [] else [(113 * 5, { buf := List.replicate n flit0 })]
      outputs := [(113 * 5 + 1, { cho := some 1, dom := 1, table := [{ repeats := 1, entries := [0x10] }] })] } }

theorem witness_FixedTurnMovesOneFlit :
    (∀ n, n < 2 →
      ((sTurn n).outp 566).cho = some 1 ∧ (sTurn n).outRuns 566 = true ∧ outEntry ((sTurn n).outp 566) = some 0x10 ∧
      ((sTurn n).outp 566).moved = 0 ∧ entOpen 0x10 = false ∧ entCount 0x10 = 1 ∧ entSet 0x10 = [] ∧
      neighbour 113 1 = some 114 ∧ neighbour 113 0 = some 1 ∧ tensorPortAt 113 0 = none) ∧
    ((sTurn 1).link 565).buf = flit0 :: [] ∧ ((sTurn 1).link (114 * 5 + 3)).buf.length + ((sTurn 1).link (114 * 5 + 3)).wire.length < 2 ∧
    ((sTurn 0).link 565).buf = [] := by decide

/-- R149: the flit is on the link to the east neighbour's west input. -/
theorem test_turn_moves :
    let t := after (exec (.routerOutputTurn 113 1) (sTurn 1))
    (t.link 565).buf = [] ∧ (t.link (114 * 5 + 3)).wire.length = 1 ∧ (t.outp 566).phase = 1 := by decide

/-! ### Replay domains -/

/-- The module is powered and the host link is up: KEEP_12V present, READY, all domains on. -/
def withHost (s : State) : State :=
  { withRegs s ((List.range 64).map (fun d => (aPwrDomain d, 750 + 2 ^ 20)) ++ [(aHostLinkState, 2), (aKeepState, 16)]) with
    keep.pins := { keep12v := true, modResetN := true, pwrGood := true, holdupOk := true, perstN := true } }

/-- Tile 0 of domain 1 has arrived at its barrier with or without an error mark, at an attempt. -/
def sBar (mark : Bool) (attempt : BitVec 2) (hold : Option Nat) : State :=
  let s := runIn State.reset 0 { wait := .barrier }
  { s with con.doms := [(1, { state := 2, cho := 1, members := [0], arrived := [0], mark := mark, attempt := attempt, holdAfter := hold })] }

theorem witness_BarrierCommitsReplaysOrAborts :
    (let s := sBar false 0 none
     AtBarrier s 1 ∧ SyncWf s ∧ (s.dom 1).mark = false ∧ (s.dom 1).stopReq = false ∧ s.con.held = [] ∧
       (∀ e ∈ (s.dom 1).events, e.kind < 6) ∧ s.domInst 1 = none ∧ (s.dom 1).holdAfter = none) ∧
    (let s := sBar false 0 (some 1)
     AtBarrier s 1 ∧ SyncWf s ∧ (s.dom 1).mark = false ∧ (s.dom 1).holdAfter = some 1 ∧ 1 ≤ ((s.dom 1).steps + 1).toNat) ∧
    (let s := sBar true 1 none
     AtBarrier s 1 ∧ SyncWf s ∧ (s.dom 1).mark = true ∧ (s.dom 1).attempt ≠ 2) ∧
    (let s := sBar true 2 none
     AtBarrier s 1 ∧ SyncWf s ∧ (s.dom 1).mark = true ∧ (s.dom 1).attempt = 2) := by
  dsimp only [AtBarrier, SyncWf]; and_intros <;> decide

/-- R161, R165: two marked attempts are replayed, the third aborts. -/
theorem test_attempts :
    ((after (exec (.barrierDecide 1) (sBar true 1 none))).dom 1).attempt = 2 ∧
    ((after (exec (.barrierDecide 1) (sBar true 2 none))).dom 1).state = 4 ∧
    ((after (exec (.barrierDecide 1) (sBar false 0 none))).dom 1).steps = 1 := by decide

/-- The release of domain 1 is on its way to tile 0, after a commit or for a replay. -/
def sRel (replay : Bool) : State :=
  let s := runIn State.reset 0 { wait := .barrier }
  { s with con.doms := [(1, { state := 2, cho := 1, members := [0], routers := [1], await := [0, 1], replaying := replay })] }

theorem witness_ReleaseSavesOrRestoresTheTile :
    ∀ r, SyncWf (sRel r) ∧ ((sRel r).dom 1).state = 2 ∧ 0 ∈ ((sRel r).dom 1).await ∧ 1 ∈ ((sRel r).dom 1).await ∧
      (sRel r).beatDom 1 = false ∧ 0 ∈ ((sRel r).dom 1).members ∧ 1 ∉ ((sRel r).dom 1).members ∧ ((sRel r).dom 1).replaying = r := by
  dsimp only [SyncWf]; decide

/-- Flag 5 and queue 9 belong to domain 1, which is in a state: between two steps in STATE 1, else in its step. -/
def sAsync (st : BitVec 4) (count : BitVec 16) : State :=
  { sFlag count .no none [] with
    con := { (sFlag count .no none []).con with
      doms := [(1, { state := st, cho := 1, members := [0], between := st == 1 })]
      queues := [(9, { cho := some 1, depth := 2, consumer := 0, store := 0x20000, prodDom := 1, consDom := 1, head := 3, free := 3, tail := 3, pub := 3 })] } }

theorem witness_AsynchronousItemsAreHeldDuringAStep :
    SyncWf (sAsync 2 0) ∧ SyncWf (sAsync 1 0) ∧ SyncWf (sAsync 1 65531) ∧
    (((sAsync 2 0).flag 5).cho ≠ none ∧ ((sAsync 2 0).dom ((sAsync 2 0).flag 5).dom.toNat).between = false) ∧
    (((sAsync 2 0).queue 9).cho ≠ none ∧ ((sAsync 2 0).dom ((sAsync 2 0).queue 9).consDom.toNat).between = false) ∧
    (((sAsync 1 65530).flag 5).cho ≠ none ∧ ((sAsync 1 65530).dom 1).between = true ∧ (sAsync 1 65530).con.held = [] ∧
      ((sAsync 1 65530).flag 5).count.toNat + (5 : BitVec 8).toNat ≤ 65535) ∧
    (((sAsync 1 65531).dom 1).between = true ∧ ((sAsync 1 65531).dom 1).state ≠ 0 ∧ (sAsync 1 65531).domInst 1 = none ∧
      65535 < ((sAsync 1 65531).flag 5).count.toNat + (5 : BitVec 8).toNat) ∧
    (((sAsync 1 0).queue 9).cho ≠ none ∧ ((sAsync 1 0).dom ((sAsync 1 0).queue 9).consDom.toNat).between = true ∧ queueFree ((sAsync 1 0).queue 9) ≠ 0 ∧
      (List.replicate 128 (0 : Byte)).length = 128 ∧ ((sAsync 1 0).dom ((sAsync 1 0).domOf ((sAsync 1 0).queue 9).consumer)).loupe = false) := by
  dsimp only [SyncWf]; decide

/-- R159: a signal during a step is held, after a step applied. -/
theorem test_async_held :
    (after (exec (.asyncSignalArrive (.signal 5 3)) (sAsync 2 0))).con.held.length = 1 ∧
    ((after (exec (.asyncSignalArrive (.signal 5 3)) (sAsync 1 0))).flag 5).count = 3 := by decide

theorem witness_StallsAndRepairHoldsEnd :
    (SyncWf sCim ∧ (sCim.dom 1).state = 2 ∧ (sCim.dom 1).waiting = false ∧ (sCim.dom 1).awaitRelease = false ∧
      (sCim.dom 1).remoteHold = false ∧ sCim.holdsRemote (sCim.dom 1) = false ∧ (sCim.dom 1).spans = false ∧ sCim.beatDom 1 = false) ∧
    (sCim.dom 0).state ≠ 2 ∧
    (let s : State := { runIn State.reset 0 { repairPending := true, repairTimes := [0, 0] } with
       con.doms := [(1, { state := 3, cho := 1, members := [0], repairTiles := [0], repairArrays := [(1, 2)] })] }
     (s.dom 1).state = 3 ∧ 0 ∈ (s.dom 1).repairTiles ∧
       ((s.tile 0).repairTimes.filter (fun c => decide (s.clock ≤ c + 86400 * 1000000))).length < 3 ∧ (s.dom 1).repairArrays ≠ []) ∧
    (let s : State := { State.reset with
       wafer.tiles := [(0, { dom := some 1 })], con.doms := [(1, { state := 3, cho := 1, members := [0], repairTiles := [0] })] }
     (s.dom 1).state = 3 ∧ 0 ∈ (s.dom 1).repairTiles ∧ s.mapOf 0 = 0 ∧ (s.tile 0).cho = none) := by
  dsimp only [SyncWf]; decide

/-- A released choreography 7 with one domain and one tile that has a segment to clear. -/
def cho7 : Cho :=
  { image := { choId := 7, beat := false, tiles := [{ tile := 0, tenant := 0, dom := 0, inq := [], code := [] }] }
    doms := [(0, 1)], inst := none, released := true, started := false }
def sFirst : State :=
  { State.reset with
    wafer := { tiles := [(0, { cho := some 1, dom := some 1, clearing := [5] })], scratch := [(5 * 16384 + 3, 9)] }
    con := { chos := [(1, cho7)], doms := [(1, { state := 1, cho := 1, members := [0] })] } }

/-- Stage 0 of instance 3 waits at its barrier, with a record in its IN_Q, queue 0. -/
def sStage (hold : Option Nat) : State :=
  { State.reset with
    wafer.tiles := [(0, { cho := some 1, dom := some 1 })]
    con := { chos := [(1, { cho7 with inst := some 3, started := true })],
             doms := [(1, { state := 2, cho := 1, members := [0], waiting := true, holdAfter := hold })]
             queues := [(0, { cho := some 1, depth := 2, tail := 1, pub := 1 })] }
    load.insts := [(3, { state := 2, cho := some 1, stages := [{ lag := 0, outQ := 0, qstep := 0, dom := 0 }] })] }

/-- Domain 1 in a state, with the register access of the firmware. -/
def sDom (st : BitVec 4) (waiting : Bool) : State :=
  withHost { sCim with con.doms := [(1, { state := st, cho := 1, members := [0], waiting := waiting })] }

theorem witness_DomainsStartStopAndUnload :
    (sFirst.con.chos.find? (fun e => e.2.image.choId == 7 && !e.2.started) = some (1, cho7) ∧ cho7.released = true ∧ cho7.inst = none ∧
      sFirst.beat.cho = none ∧
      ∀ e ∈ cho7.doms, (sFirst.dom e.2.toNat).state = 1 ∧ (sFirst.dom e.2.toNat).spans = false ∧ (sFirst.dom e.2.toNat).cho = 1 ∧
        (sFirst.dom e.2.toNat).holdAfter = none) ∧
    (∀ h ∈ [none, some 0], (sStage h).stageDom 3 0 = some 1 ∧ ((sStage h).dom 1).state = 2 ∧ ((sStage h).dom 1).waiting = true ∧
      ((sStage h).dom 1).repairTiles = [] ∧ ((sStage h).dom 1).repairArrays = []) ∧
    (sStage none).stepReady 1 = true ∧ (sStage (some 0)).stepReady 1 = false ∧
    (∀ p ∈ [Path.host, Path.firmware], (sDom 4 false).reach p (aChoDomCtrl 1) true = .served ∧ (sDom 4 false).frozenAt 2 0 = false ∧
      (sDom 4 false).agentMay (aChoDomCtrl 1) = true) ∧
    (((sDom 4 false).dom 1).state = 4 ∧ ((sDom 4 false).dom 1).retiredRef = false ∧ ((sDom 4 false).dom 1).spans = false ∧
      (sDom 4 false).domInst 1 = none ∧ ((sDom 4 false).dom 1).holdAfter = none ∧ (sDom 4 false).domInCal ((sDom 4 false).dom 1) = false ∧
      ((sDom 4 false).dom 1).repairTiles = [] ∧ ((sDom 4 false).dom 1).repairArrays = [] ∧ (sDom 4 false).beatDom 1 = false) ∧
    (let s : State := { sDom 6 false with trust.frozen := [{ cls := 0, id := 0, tag := 0, reset := false }] }
     (s.dom 1).state = 6 ∧ s.domFrozen (s.dom 1) = true) ∧
    (((sDom 2 false).dom 1).waiting = false ∧ (sDom 2 false).ctrlBarred 1 = false) ∧
    (((sDom 2 true).dom 1).state = 2 ∧ ((sDom 2 true).dom 1).waiting = true ∧ (sDom 2 true).ctrlBarred 1 = false) ∧
    (4 ≤ ((sDom 7 false).dom 1).state.toNat ∧ ((sDom 7 false).dom 1).state = 7 ∧ (sDom 7 false).ctrlBarred 1 = false) ∧
    ((sDom 2 false).dom 1).state.toNat < 4 := by decide

/-! ### Rings and stacks -/

/-- Request ring 0 with 2 entries of 64 bytes in cluster SRAM, 8 windows, tag 0, by POLICY and ENABLE. -/
def ringCfg (policy enable count : Nat) : Nat × Nat :=
  (aRing 0, pack [(0, 1), (2, policy), (4, 6), (16, enable), (17, 7), (32, count)])

/-- A powered module with a ring configured and in a state. -/
def sRing (policy enable count : Nat) (x : Ring) : State :=
  { withRegs (withHost State.reset) [ringCfg policy enable count] with mem.rings := [(0, x)] }

theorem witness_AppendsEnterTheRing :
    windowOf 0x22800000 = some (0, 0, 0) ∧ windowOf 0x22807038 = some (0, 7, 0x38) ∧
    (∀ p ∈ [Path.host, Path.firmware], (sRing 1 1 2 {}).reach p 0x22800000 true = .served) ∧
    ((sRing 1 1 2 {}).frozenAt 2 0 = false ∧ (sRing 1 1 2 {}).agentTag 0 = 0 ∧ (sRing 1 0 0 {}).reach .host 0x22800000 true = .served) ∧
    ((sRing 1 0 0 {}).ringCount 0 = 0 ∧ (sRing 1 1 2 {}).ringCount 0 ≠ 0 ∧ (sRing 1 1 2 {}).ringEsz 0 = 64 ∧ 7 < (sRing 1 1 2 {}).ringWindows 0) ∧
    ((sRing 1 1 2 {}).ringEnabled 0 = true ∧ (sRing 1 1 2 {}).ringFull 0 = false) ∧
    ((sRing 1 0 2 {}).ringEnabled 0 = false) ∧
    ((sRing 1 1 2 { tail := 2 }).ringEnabled 0 = true ∧ (sRing 1 1 2 { tail := 2 }).ringFull 0 = true ∧ (sRing 1 1 2 { tail := 2 }).ringPolicy 0 ≠ 0) ∧
    ((sRing 0 1 2 { tail := 2 }).ringFull 0 = true ∧ (sRing 0 1 2 { tail := 2 }).ringPolicy 0 = 0) ∧
    (let s := sRing 0 1 2 { tail := 3, head := 2, outbox := [List.replicate 64 1] }
     s.ringSpace 0 = true ∧ (s.ring 0).outbox = List.replicate 64 1 :: [] ∧ (List.replicate 64 (1 : Byte)).length = s.ringEsz 0) ∧
    (let s := sRing 0 1 2 { tail := 3, head := 2, waiting := [7], part := [(7, [(0, 5)])] }
     s.ringSpace 0 = true ∧ (s.ring 0).outbox = [] ∧ (7 : BitVec 3).toNat ∈ (s.ring 0).waiting) ∧
    ((sRing 0 1 2 { tail := 2 }).ringEnabled 0 = true ∧ (sRing 0 1 2 { tail := 2 }).ringSpace 0 = false) ∧
    (let s := sRing 0 0 2 { tail := 3, head := 2, outbox := [List.replicate 64 1] }
     s.ringEnabled 0 = false ∧ (s.ring 0).outbox = List.replicate 64 1 :: []) ∧
    (let s := sRing 0 0 2 { tail := 3, head := 2, waiting := [7], part := [(7, [(0, 5)])] }
     s.ringEnabled 0 = false ∧ (s.ring 0).outbox = [] ∧ (7 : BitVec 3).toNat ∈ (s.ring 0).waiting) := by and_intros <;> decide

/-- R129, R131: the write of the last word completes the entry; bytes not written are zero. -/
theorem test_append_completes :
    let t := after (exec (.ringAppendWrite .host 0x22807038 [1, 2, 3, 4, 5, 6, 7, 8]) (sRing 1 1 2 {}))
    (t.ring 0).tail = 1 ∧ (t.slotRead 0 0).drop 55 = [0, 1, 2, 3, 4, 5, 6, 7, 8] ∧ t.resp.status = 0 := by decide

/-- The response ring of queue 0 with 2 entries of 64 bytes in cluster SRAM. -/
def sResp (x : Ring) : State :=
  { withRegs (withHost State.reset) [(aRing 256, pack [(0, 1), (4, 6), (16, 1), (32, 2)])] with mem.rings := [(256, x)] }

theorem witness_ConsumeReadsAndConfiguration :
    consumeAddr 256 = some 0x22400000 ∧
    (∀ off ∈ [0, 120], ∀ x ∈ [({ tail := 1 } : Ring), {}], (sResp x).reach .host (0x22400000 + off) false = .served ∧
      (sResp x).frozenAt 2 0 = false ∧ (sResp x).agentMay (0x22400000 + off) = true ∧ (sResp x).agentTag 0 = 0) ∧
    120 + 8 ≤ 64 + (sResp {}).ringEsz 256 ∧ consumeAddr 0 = none ∧
    (let s : State := { sResp { tail := 1 } with reg.committed := [(aRing 256, BitVec.ofNat 64 (pack [(0, 1), (4, 6), (32, 2)]))] }
     kvFind (aRing 256) s.reg.committed ≠ none ∧ s.committedOf (aRing 256 + 8) = s.reg64 (aRing 256 + 8) ∧
       (s.committedOf (aRing 256) ^^^ s.reg64 (aRing 256)) &&& ~~~0x1000C = 0) ∧
    (let c := BitVec.ofNat 64 (pack [(0, 1), (4, 6), (16, 1), (32, 4)])
     let s : State := { sResp {} with reg.committed := [(aRing 256, c)] }
     let u : State := { sResp { tail := 1 } with reg.committed := [(aRing 256, c)] }
     kvFind (aRing 256) s.reg.committed ≠ none ∧ (s.committedOf (aRing 256) ^^^ s.reg64 (aRing 256)) &&& ~~~0x1000C ≠ 0 ∧
       s.ringHolds 256 = 0 ∧ (s.ring 256).part = [] ∧ (s.ring 256).outbox = [] ∧ u.ringHolds 256 ≠ 0 ∧
       (u.committedOf (aRing 256) ^^^ u.reg64 (aRing 256)) &&& ~~~0x1000C ≠ 0) ∧
    (kvFind (aRing 256) (sResp {}).reg.committed = none ∧ kvFind (aRing 256 + 8) (sResp {}).reg.committed = none) := by and_intros <;> decide

/-- R132: the waiting entry of a HOLD ring that has been disabled is discarded and counted. -/
theorem test_disabled_ring_drops :
    let t := after (exec (.ringHoldAccept (.request 0) 7) (sRing 0 0 2 { tail := 2, waiting := [7] }))
    (t.ring 0).waiting = [] ∧ (t.ring 0).tail = 2 ∧ t.reg64 (aRingDrop 0) = 1 := by decide

/-- R134: only the read of the last word releases the entry. -/
theorem test_consume_releases :
    ((after (exec (.ringConsumeRead .host (.response 0) 0 64) (sResp { tail := 1 }))).ring 256).head = 0 ∧
    ((after (exec (.ringConsumeRead .host (.response 0) 120 8) (sResp { tail := 1 }))).ring 256).head = 1 ∧
    (after (exec (.ringConsumeRead .host (.response 0) 0 8) (sResp { tail := 1 }))).resp.data.take 1 = [1] := by decide

/-- Stack 0 with a request in its mesh queue or for its direct port, and requests that hold tags. -/
def sStack (queue direct busy : List StackReq) (turn : Nat) (waited : Bool) : State :=
  { withRegs State.reset [region0 16 1 0] with
    mem.stackUnits := [(0, { queue := queue, direct := direct, busy := busy, turn := turn, waited := waited })] }
def rd0 : StackReq := { who := .tile 0, addr := 0, flits := 1, data := none }
def wr0 : StackReq := { who := .tile 0, addr := 128, flits := 1, data := some [flit0] }
def wrE : StackReq := { wr0 with who := .engine }

theorem witness_StackRequestsAndReads :
    (((sStack [rd0] [] [] 0 false).stack 0).turn ≠ 4 ∧ ((sStack [rd0] [] [] 0 false).stack 0).queue = rd0 :: [] ∧
      ((sStack [rd0] [] [] 0 false).stack 0).busy.length < 2048 ∧ rd0.data = none) ∧
    (((sStack [] [wr0] [] 4 false).stack 0).turn = 4 ∧ ((sStack [] [wr0] [] 4 false).stack 0).direct = wr0 :: [] ∧
      wr0.data = some [flit0] ∧ ((sStack [] [wrE] [] 4 false).stack 0).direct = wrE :: [] ∧ wrE.who = .engine ∧
      wrE.data = some [flit0] ∧ ∀ f ∈ [flit0], f.bytes.length = 128 ∧ f.bad = []) ∧
    (∀ b, ((sStack [rd0] [] (List.replicate 2048 rd0) 0 b).stack 0).waited = b) ∧
    ((sStack [] [] [rd0] 0 false).stack 0).busy = rd0 :: [] ∧ rd0.who = .tile 0 ∧
    (sStack [] [] [rd0] 0 false).rfld (aMemStackState 0) 1 0 ≠ 2 := by and_intros <;> decide

/-- A stack whose 2,048 tags are all held. -/
theorem witness_stack_full : ∀ b, 2048 ≤ ((sStack [rd0] [] (List.replicate 2048 rd0) 0 b).stack 0).busy.length := fun _ =>
  Nat.le_of_eq List.length_replicate.symm

/-- R210: the flit of a clean read goes to the router, the tag is free. -/
theorem test_stack_read_returns :
    let t := after (exec (.stackReadReturn 0 .clean) (sStack [] [] [rd0] 0 false))
    (t.stack 0).busy = [] ∧ (t.tile (returnPos 0 0)).outbox.length = 1 := by decide

/-! ### Loading -/

/-- A descriptor: OP, POLICY to MODE, INSTANCE 3, GEN, NSHARD, SHADOW_BASE and word 8. -/
def desc (op pol gen nshard shadow w8 : Nat) : List Word :=
  [BitVec.ofNat 64 (pack [(0, op), (8, pol), (24, 3), (48, gen)]), 0xAB, 0, BitVec.ofNat 64 nshard, 0, 0, BitVec.ofNat 64 shadow, 0,
   BitVec.ofNat 64 w8, 0, 0, 0, 0, 0, 0, 0]

/-- A shard record of one block in FORMAT `f`, from host memory, by engine 0. -/
def shard (f kappa : Nat) : List Word :=
  [0, BitVec.ofNat 64 (pack [(0, 132096), (40, f)]), BitVec.ofNat 64 (pack [(28, kappa)]), 0, 0, 0, 0, 0]
def env1 (rs : List (List Word)) (ps : List (List Word)) (st : List (List Word)) : JobEnv :=
  { read := .data, shards := rs, placements := ps, stages := st, image := [] }
/-- The stage table of one stage: domain 0, no following queue. -/
def stage1 : List (List Word) := [[BitVec.ofNat 64 (pack [(32, 0xFFFF)]), 0]]
def envW : JobEnv := env1 [shard 3 0x3800] [[0x10000 * 0x400000]] stage1
def envO : JobEnv := env1 [shard 3 0x3800] [] []

/-- The choreography 7 with its domain record, bound to instance 3 or not. -/
def choL (i : Option (BitVec 10)) : Cho :=
  { cho7 with image := { cho7.image with domains := [{ dom := 0, spans := false, root := 0, parts := 1, x0 := 0, x1 := 0, y0 := 0, y1 := 0 }] }, inst := i }

/-- The load rings in SRAM with a descriptor at the head, jobs, instance 3, regions 0 (of kind `kind`) and 1 (shadow records), and
choreography 1 bound to an instance. -/
def sLoad (d : List Word) (jobs : List Job) (x : Inst) (kind : Nat) (bound : Option (BitVec 10)) : State :=
  { withRegs State.reset [(aRing 512, pack [(0, 1), (4, 7), (16, 1), (32, 2)]), (aRing 513, pack [(0, 1), (4, 6), (16, 1), (32, 2)]),
      (aRing 513 + 8, 0x1000), region0 64 kind 0] with
    mem := { (withRegs State.reset []).mem with sram := memWrite 0 0 (d.flatMap (fun w => natLe 8 w.toNat)) [], rings := [(512, { tail := 1 })] }
    con := { chos := [(1, choL bound)], doms := [(1, { state := 1, cho := 1, members := [0] })] }
    load := { jobs := jobs, insts := if x = {} then [] else [(3, x)] } }

theorem witness_LoadJobsAreCheckedAndStart_malformed :
    let d (op : Nat) := desc op 8 0 0 0 0
    (∀ op ∈ [0, 1, 2, 3, 4, 5, 6, 7, 8, 9], AtLoadRing (sLoad (d op) [] {} 1 none) (d op) ∧ (sLoad (d op) [] {} 1 none).load.jobs = [] ∧
      descOp (d op) = op ∧ descBad (d op) = true) ∧
    (sLoad (d 1) [] {} 1 none).calHolds (jobFor (d 1) envW) = false := by
  unfold AtLoadRing; decide

theorem witness_LoadJobsAreCheckedAndStart_start_model :
    let d := desc 1 0 1 1 0x100000 (pack [(32, 7)])
    let s := sLoad d [] {} 1 none
    let lists := (s.spaceEnv d envW).2
    let j := jobFor d lists
    AtLoadRing s d ∧ s.load.jobs = [] ∧ descBad d = false ∧ descOp d = 1 ∧ listsBad d lists = false ∧ lists.shards ≠ [] ∧
    (s.inst (descInst d)).state = 0 ∧ descGen d ≠ 0 ∧ recFld d 5 31 0 = 0 ∧ s.jobCho j = some (1, (choL none).image) ∧ s.choOf 1 ≠ none ∧
    s.calHolds j = false ∧ s.loadStatus j (choL none).image (placedOf lists.shards lists.placements) = 0 := by
  dsimp only [AtLoadRing]; and_intros <;> decide

theorem witness_LoadJobsAreCheckedAndStart_start_replace : ∀ pol ∈ [0, 4],
    let d := desc 2 pol 1 1 0x100000 0
    let x : Inst := { state := 2, gen := 65535, cho := some 1, shadow := 0, shadowN := 1 }
    let s := sLoad d [] x 1 (some 3)
    let lists := (s.spaceEnv d envW).2
    AtLoadRing s d ∧ s.load.jobs = [] ∧ descBad d = false ∧ descOp d = 2 ∧ listsBad d lists = false ∧ (s.inst (descInst d)).state = 2 ∧
    (s.inst (descInst d)).cho ≠ s.beat.cho ∧ descStream d = (pol == 4) ∧ (∀ m ∈ s.instDoms (descInst d), (s.dom m).state.toNat < 4) ∧
    descGen d = (if (s.inst (descInst d)).gen.toNat = 65535 then 1 else (s.inst (descInst d)).gen.toNat + 1) ∧
    descTenant d = (s.inst (descInst d)).tenant.toNat ∧ s.inTenant (descTenant d) (descShadow d) recordLen = true ∧
    placesBad (match (s.inst (descInst d)).cho.bind s.choOf with | some c => choTiles c | none => []) (placedOf lists.shards lists.placements) = false ∧
    s.inKind 1 (descShadow d) recordLen = true ∧ overlaps (descShadow d) recordLen 0 (1 * recordLen) = false := by
  dsimp only [AtLoadRing]; and_intros <;> decide

theorem witness_LoadJobsAreCheckedAndStart_start_others :
    let x : Inst := { state := 2, gen := 1, cho := some 1 }
    (AtLoadRing (sLoad (desc 5 0 0 0 0 0) [] x 1 (some 3)) (desc 5 0 0 0 0 0) ∧ descBad (desc 5 0 0 0 0 0) = false ∧
      listsBad (desc 5 0 0 0 0 0) noEnv = false ∧ ((sLoad (desc 5 0 0 0 0 0) [] x 1 (some 3)).inst 3).state = 2) ∧
    (AtLoadRing (sLoad (desc 6 0 0 0 0 0) [] {} 1 none) (desc 6 0 0 0 0 0) ∧ descBad (desc 6 0 0 0 0 0) = false ∧
      listsBad (desc 6 0 0 0 0 0) noEnv = false ∧ ((sLoad (desc 6 0 0 0 0 0) [] {} 1 none).inst 3).state = 0 ∧
      ∀ e ∈ (sLoad (desc 6 0 0 0 0 0) [] {} 1 none).arr.recs, e.2.state = 5 → e.2.inst.toNat = 3 → e.2.tenant.toNat ≠ 0) ∧
    (let d := desc 7 0 0 1 0x10000 (pack [(6, 2), (18, 64)])
     let s := sLoad d [] {} 3 none
     AtLoadRing s d ∧ descBad d = false ∧ (s.spaceEnv d envO).2 = envO ∧ listsBad d envO = false ∧ envO.shards ≠ [] ∧
       (s.adapterRec (descObject d)).users = 0 ∧ (s.adapterRec (descObject d)).tuning = false ∧ ∀ r ∈ envO.shards, s.inTenant (descTenant d) (descShadow d + shOffset r) (adapterLen r) = true ∧
         s.inKind 3 (descShadow d + shOffset r) (adapterLen r) = true) ∧
    (let d := desc 8 0 0 1 0x10000 (pack [(6, 63)])
     let s := sLoad d [] {} 4 none
     AtLoadRing s d ∧ descBad d = false ∧ (s.spaceEnv d envO).2 = envO ∧ listsBad d envO = false ∧ envO.shards ≠ [] ∧
       ∀ r ∈ envO.shards, s.inTenant (descTenant d) (descShadow d + shOffset r) (shLength r) = true ∧
         s.inKind 4 (descShadow d + shOffset r) (shLength r) = true) := by
  dsimp only [AtLoadRing]; and_intros <;> decide

/-- The parked job of a REPLACE, one shard of which has failed. -/
def parked : Job :=
  { src := .ring, desc := desc 2 1 2 1 0x100000 0, env := envW, phase := .parked, placed := placedOf envW.shards envW.placements, failed := [0], tries := [(0, 3)] }

theorem witness_JobsParkRollBackAndEnd_parked :
    let x : Inst := { state := 6, gen := 1, cho := some 1 }
    (let d := desc 3 0 0 1 0 0
     let s := sLoad d [parked] x 1 (some 3)
     AtLoadRing s d ∧ s.load.jobs = [parked] ∧ parked.phase = .parked ∧ descInst parked.desc = descInst d ∧ descBad d = false ∧
       (s.inst (descInst d)).state = 6 ∧ descTenant d = (s.inst (descInst d)).tenant.toNat ∧ descOp d = 3 ∧ listsBad d (s.spaceEnv d envW).2 = false ∧
       (s.spaceEnv d envW).2.placements = parked.failed.map (fun k => parked.env.placements.getD k [])) ∧
    (let d := desc 4 0 0 0 0 0
     let s := sLoad d [parked] x 1 (some 3)
     AtLoadRing s d ∧ s.load.jobs = [parked] ∧ descInst parked.desc = descInst d ∧ descBad d = false ∧ (s.inst (descInst d)).state = 6 ∧
       descTenant d = (s.inst (descInst d)).tenant.toNat ∧ descOp d = 4 ∧ listsBad d noEnv = false) := by
  dsimp only [AtLoadRing]; and_intros <;> decide

/-- A running job of an operation. -/
def jobIn (op nshard : Nat) (phase : JobPhase) (fetched todo : List Nat) (tries since : KV Nat) : Job :=
  { src := .ring, desc := desc op 0 1 nshard 0x100000 0, env := envW, phase := phase, placed := placedOf envW.shards envW.placements
    fetched := fetched, todo := todo, tries := tries, since := since, started := 0 }

theorem quant_w4s {r : List Word} {bytes : List Byte} (h : shFormat r = 3) (hr : shRb r = 1) (hc : shCb r = 1) :
    ∃ b, quantShard r bytes = some [b] := by
  obtain ⟨b, hb⟩ : ∃ b, quantBlock r bytes.toArray 0 0 = some b := by
    unfold quantBlock
    have hs : ((List.range 512).map (fun c => colScale r bytes.toArray (512 * 0 + c))).any Option.isNone = false := by
      rw [List.any_eq_false]
      intro x hx
      obtain ⟨c, -, rfl⟩ := List.mem_map.mp hx
      simp [colScale, h]
    simp only [hs]
    exact ⟨_, rfl⟩
  refine ⟨b, ?_⟩
  unfold quantShard
  simp [hr, hc, hb, List.range_succ]

theorem witness_ShardsAreWrittenAndProgrammed_shards_retried :
    let x : Inst := { state := 3, gen := 1, cho := some 1 }
    (∀ n ∈ [2, 3],
      let j := jobIn 2 1 .fetching [] [] [(0, n)] []
      let s := sLoad [] [j] x 1 (some 3)
      Running s 3 j .fetching ∧ descOp j.desc = 2 ∧ (s.inst 3).state = 3 ∧ 0 < j.env.shards.length ∧ 0 ∉ j.fetched ∧ 0 ∉ j.failed ∧
        s.frozenAt 4 (shEngine (shard 3 0x3800)) = false ∧ j.src = .ring ∧ j.env.shards.getD 0 [] = shard 3 0x3800 ∧ kvGet 0 0 j.tries = n ∧
        (List.replicate 1 (0 : Byte)).length ≠ shLength (shard 3 0x3800)) ∧
    (kvGet 0 0 ([] : KV Nat) + 1000 * 250 ≤ ({ sLoad [] [] x 1 none with clock := 250000 } : State).clock ∧
      (sLoad [] [] x 1 none).clock < kvGet 0 0 ([] : KV Nat) + 1000 * 250) := by
  dsimp only [Running]
  and_intros <;> decide

theorem witness_ShardsAreWrittenAndProgrammed_shards_written :
    let x : Inst := { state := 3, gen := 1, cho := some 1 }
    let r := shard 3 0x3800
    (let j := jobIn 2 1 .fetching [] [] [] []
     let s := sLoad [] [j] x 1 (some 3)
     j.placed.filter (fun p => p.shard == 0) = [{ tile := 0, larr := 0, pos := 0, sideOff := 0x10000, k := 0, shard := 0, slot := 0 }] ∧
       j.env.placements.getD 0 [] = [0x10000 * 0x400000] ∧ s.inKind 1 (shadowAt (descShadow j.desc) 0) recordLen = true ∧
       s.inTenant (descTenant j.desc) (shadowAt (descShadow j.desc) 0) recordLen = true) ∧
    shHost r = true ∧ shComp r = 0 ∧ shBytes r = 132096 ∧ shLength r = 132096 ∧ (List.replicate 132096 (0 : Byte)).length = 132096 ∧
    ∃ b, quantShard r (List.replicate 132096 0) = some [b] := by
  refine ⟨by and_intros <;> decide, by decide, by decide, by decide, by decide, List.length_replicate,
    quant_w4s (by decide) (by decide) (by decide)⟩

theorem witness_ShardsAreWrittenAndProgrammed_requests :
    let j := jobIn 2 1 .programming [0] [0] [] []
    let s : State := { sLoad [] [j] { state := 4, gen := 1, cho := some 1 } 1 (some 3) with wafer := (runIn State.reset 0 {}).wafer }
    let e : Placed := { tile := 0, larr := 0, pos := 0, sideOff := 0x10000, k := 0, shard := 0, slot := 0 }
    Running s 3 j .programming ∧ j.placed[0]? = some e ∧ 0 ∈ j.todo ∧
      (∀ x ∈ j.placed, x.shard ∈ j.fetched ∧ s.writeWaits (shadowAt (descShadow j.desc) x.k) recordLen = false) ∧
      s.stageStill (s.domOf 0) = true ∧ (s.tile (groupVector 0)).dom = none ∧ s.recordPoison (shadowAt (descShadow j.desc) 0) = false ∧
      s.physOf 0 0 = some 0 ∧ s.progAsked 0 0 = false ∧ s.sparePending 0 0 = false ∧ (s.arrayRec 0 0).state ≠ 4 ∧
      (s.arrayRec 0 0).cycles.toNat < 100000000 ∧ s.arr.waiting = [] ∧
      (s.arr.running.filter (fun q => q.tile == e.tile)).length < 4 ∧
      (s.arr.running.filter (fun q => fieldOf q.tile == fieldOf e.tile)).length < 768 := by
  dsimp only [Running]
  and_intros <;> decide

/-- A grammar object of its header alone. -/
def grammar0 : List Byte :=
  natLe 8 (pack [(0, 0x4752414D), (32, 1)]) ++ natLe 8 (pack [(0, 1), (38, 1)]) ++ natLe 24 0 ++ natLe 8 64 ++ natLe 16 0

theorem witness_JobsParkRollBackAndEnd_ends :
    (let j := jobIn 2 1 .fetching [0] [] [] []
     let s := sLoad [] [j] { state := 3, gen := 1, cho := some 1, stages := [{ lag := 0, outQ := 0xFFFF, qstep := 0, dom := 0 }] } 1 (some 3)
     Running s 3 j .fetching ∧ descOp j.desc = 2 ∧ (s.inst 3).state = 3 ∧ j.fetched.length = j.env.shards.length ∧
       (∀ e ∈ j.placed, s.writeWaits (shadowAt (descShadow j.desc) e.k) recordLen = false) ∧
       (∀ m ∈ s.instDoms 3, (s.dom m).state.toNat < 4) ∧ s.stageDom 3 0 = some 1 ∧ (s.dom 1).holdAfter = none ∧
       (s.inst 3).stages[0]?.map (fun st => st.lag) = some 0) ∧
    (let j := { jobIn 1 1 .fetching [0] [] [] [] with placed := [] }
     let s := sLoad [] [j] { state := 1, cho := some 1 } 1 (some 3)
     Running s 3 j .fetching ∧ descOp j.desc = 1 ∧ (s.inst 3).state = 1 ∧ j.fetched.length = j.env.shards.length ∧ j.todo = [] ∧
       j.busy = [] ∧ j.ovf = []) ∧
    (let j := jobIn 5 0 .draining [] [] [] []
     let s := sLoad [] [j] { state := 7, cho := some 1 } 1 (some 3)
     Running s 3 j .draining ∧ descOp j.desc = 5 ∧ ∀ d ∈ s.instDoms 3, s.stageStill d = true) ∧
    (let j := { jobIn 8 1 .grammarWait [0] [] [] [] with desc := desc 8 0 0 1 0x10000 (pack [(6, 63)]), env := envO, held := [(0, grammar0)] }
     let s := sLoad [] [j] {} 4 none
     let r := shard 3 0x3800
     Running s 3 j .grammarWait ∧ descOp j.desc = 8 ∧ descObject j.desc = (63 : BitVec 6).toNat ∧ (s.gramRec 63).users = 0 ∧
       j.env.shards = [r] ∧ j.fetched = [0] ∧ kvFind 0 j.held = some grammar0 ∧ shOffset r = 0 ∧ grammarOk grammar0 = true ∧
       s.frozenAt 4 (shEngine r) = false ∧ s.inKind 4 (descShadow j.desc) grammar0.length = true ∧
       s.inTenant (descTenant j.desc) (descShadow j.desc) grammar0.length = true) := by
  dsimp only [Running]; and_intros <;> decide

/-- The write of a grammar waits at the direct port of stack 0. -/
def grammarReq : StackReq :=
  { who := .engine, addr := 0x10000, flits := 1, data := some [{ bytes := grammar0, bad := [] }] }

theorem witness_JobsParkRollBackAndEnd_ends_written :
    let j := { jobIn 8 1 .writing [0] [] [] [] with desc := desc 8 0 0 1 0x10000 (pack [(6, 63)]), env := envO }
    let s : State := { sLoad [] [j] {} 4 none with mem := { (sLoad [] [] {} 4 none).mem with stackUnits := [(0, { queue := [grammarReq] })] } }
    Running s 3 j .writing ∧ descOp j.desc = 8 ∧ descObject j.desc = (63 : BitVec 6).toNat ∧ j.fetched.length = j.env.shards.length ∧
      kvWf {} s.mem.stackUnits = true ∧ grammarReq.who = .engine ∧ grammarReq.data = some [{ bytes := grammar0, bad := [] }] ∧
      (s.stack 0).busy.length < 2048 ∧ (∀ m, (s.stack m).direct = [] ∧ (s.stack m).queue = if m = 0 then [grammarReq] else []) ∧
      (∀ e ∈ s.con.doms, e.2.loupe = false) := by
  dsimp only [Running]
  refine ⟨by and_intros <;> decide, by decide, by decide, by decide, by decide, rfl, rfl, by decide, ?_, by decide⟩
  intro m
  cases m <;> exact ⟨rfl, rfl⟩
/-! ### Serving -/

/-- A NEW or TUNE of instance 3 to response ring 0, of KIND `kind` with word 2, TEMP and TOP_P or the sequence counts, word 5 and word 6. -/
def entry (kind w2 w3 w5 w6 : Nat) : List Byte :=
  [pack [(0, kind), (16, 3)], 0x1234, w2, w3, 0, w5, w6, 0].flatMap (natLe 8)

/-- A NEW of one prompt token, given later by CONT, with MAX_TOKENS, TOP_P 1.0 and TOP_K 1. -/
def newEntry (max : Nat) : List Byte := entry 0 (max * 2 ^ 32) (0x3F800000 * 2 ^ 32) 1 1
def tuneEntry (nseq : Nat) : List Byte := entry 4 0 (pack [(0, nseq), (32, 1), (48, 1)]) 0 0

/-- SRV.IFACE of instance 3: B 1, IN_Q 9, home cluster 0, notice ring 1, TS 1, enabled; N_CTX 64; RES_BASE 0, depth 2. -/
def iface3 : List (Nat × Nat) :=
  [(aSrvIface 3, pack [(16, 9), (43, 1), (51, 1), (63, 1)]), (aSrvIface 3 + 8, pack [(48, 1)]), (aSrvIface 3 + 16, pack [(18, 63)])]

/-- A powered module that serves instance 3 from request ring 0, whose head is an entry; stack region 0 has a kind. -/
def sSrv (bs : List Byte) (kind : Nat) (srv : Serving) : State :=
  { withRegs (withHost State.reset) (ringCfg 0 1 2 :: region0 8 kind 0 :: (aSrvCtrl, pack [(0, 250), (16, 3600)]) ::
      (aRing 256, pack [(0, 1), (4, 6), (16, 1), (32, 2)]) :: (aRing 256 + 8, 0x1000) :: (aRing 257, pack [(0, 1), (4, 6), (16, 1), (32, 2)]) ::
      (aRing 257 + 8, 0x2000) :: iface3) with
    mem.sram := memWrite 0 0 bs [], mem.rings := [(0, { tail := 1 })], mem.stack := memWrite 0 0 [2] []
    load.insts := [(3, { state := 2, gen := 7 })], srv := srv }

def adapters0 : Serving := { adapters := [(0, { present := true, rank := 8 })] }

theorem witness_RequestsAreAdmittedWaitOrEnd_requests :
    (∀ m ∈ [0, 1], Asked (sSrv (newEntry m) 2 {}) 0 (newEntry m)) ∧
    (let bs := newEntry 0; let u := (((sSrv bs 2 {}).headTouch 0).ringPop 0).bump aSrvReqCnt
     recFld (wordsOf bs) 0 3 0 = 0 ∧ u.newFail 0 bs ≠ none) ∧
    (let bs := entry 5 0 0 0 0
     Asked (sSrv bs 2 {}) 0 bs ∧ 5 ≤ recFld (wordsOf bs) 0 3 0) ∧
    (let bs := newEntry 1; let u := (((sSrv bs 2 {}).headTouch 0).ringPop 0).bump aSrvReqCnt
     recFld (wordsOf bs) 0 3 0 = 0 ∧ u.newFail 0 bs = none) ∧
    (let bs := tuneEntry 0; let u := (((sSrv bs 6 adapters0).headTouch 0).ringPop 0).bump aSrvReqCnt
     Asked (sSrv bs 6 adapters0) 0 bs ∧ recFld (wordsOf bs) 0 3 0 = 4 ∧ u.tuneFail 0 (wordsOf bs) ≠ none) ∧
    (let bs := tuneEntry 1; let u := (((sSrv bs 6 adapters0).headTouch 0).ringPop 0).bump aSrvReqCnt
     Asked (sSrv bs 6 adapters0) 0 bs ∧ recFld (wordsOf bs) 0 3 0 = 4 ∧ u.tuneFail 0 (wordsOf bs) = none) := by
  dsimp only [Asked]; and_intros <;> decide

/-- A CONT of one token with LAST, a CANCEL, and a RELEASE of a handle with its check count. -/
def contEntry : List Byte := [pack [(0, 1), (4, 1), (48, 1)], 0x1234].flatMap (natLe 8) ++ natLe 4 77 ++ List.replicate 44 0
def cancelEntry : List Byte := [2, 0x1234].flatMap (natLe 8) ++ List.replicate 48 0
def releaseEntry (check h : Nat) : List Byte := [3, 0x1234, check * 2 ^ 20 + h].flatMap (natLe 8) ++ List.replicate 40 0

/-- Sequence record 0 of request 0x1234. -/
def seq0 : SeqRec := { state := 1, inst := 3, reqId := 0x1234, promptLen := 1, maxTokens := 4 }
def hand (refs : Nat) : Handle := { state := 1, check := 9, inst := 3, refs := refs, client := true }

theorem witness_ContinueCancelAndRelease :
    (let s := sSrv contEntry 2 { seqs := [(0, seq0)] }; let w := wordsOf contEntry
     let toks := (List.range 1).map (fun m => leNat ((contEntry.drop (16 + 4 * m)).take 4))
     Asked s 0 contEntry ∧ recFld w 0 3 0 = 1 ∧ s.findSeq 0 (wordAt w 1) (fun z => !z.complete && !z.tune) = some 0 ∧ s.seqRec 0 = seq0 ∧
       recFld w 0 47 5 = 0 ∧ recFld w 0 63 48 = 1 ∧ 1 ≤ (s.ringEsz 0 - 16) / 4 ∧ (∀ t ∈ toks, t < 2 ^ 18) ∧
       bit (wordAt w 0).toNat 4 = true ∧ seq0.prompt.length + 1 = seq0.promptLen) ∧
    (∀ x ∈ [seq0, { seq0 with state := 2 }], let s := sSrv cancelEntry 2 { seqs := [(0, x)] }; let w := wordsOf cancelEntry
     Asked s 0 cancelEntry ∧ recFld w 0 3 0 = 2 ∧ s.findSeq 0 (wordAt w 1) (fun z => z.tenant.toNat == recFld w 0 15 8) = some 0 ∧
       s.seqRec 0 = x ∧ x.ending = none) ∧
    (∀ n ∈ [1, 2], let bs := releaseEntry 9 5; let s := sSrv bs 2 { handles := [(5, hand n)] }; let w := wordsOf bs
     let y := s.handle (recFld w 2 31 0 % 2 ^ 20)
     Asked s 0 bs ∧ recFld w 0 3 0 = 3 ∧ y.state ≠ 0 ∧ y.client = true ∧ y.check.toNat = recFld w 2 31 0 / 2 ^ 20 ∧
       y.tenant.toNat = recFld w 0 15 8 ∧ recFld w 0 15 8 = s.reqTenant 0 w ∧ y.refs = n) := by
  dsimp only [Asked]; and_intros <;> decide

/-- A request of record 0 that waits, with all of its prompt or without. -/
def sWait (complete : Bool) (kind clock : Nat) : State :=
  { sSrv [] kind { seqs := [(0, { seq0 with complete := complete, prompt := [77] })], waits := [(0, [0])] } with clock := clock }

theorem witness_RequestsAreAdmittedWaitOrEnd_admission :
    (let s := sWait true 2 0
     s.homeOn 0 = true ∧ s.nextAdmit [] (kvGet [] 0 s.srv.waits) = some 0 ∧ (s.kvGive 0).isSome = true ∧ s.srv.kvUsed.Pairwise (· < ·)) ∧
    (∀ b, let s := sWait b 2 250000
     (s.seqRec 0).state = 1 ∧ (s.seqRec 0).ending = none ∧ (s.seqRec 0).since + 1000 * s.rfld aSrvCtrl 15 0 ≤ s.clock ∧
       (s.seqRec 0).complete = b) ∧
    (sWait true 1 250000).kvGive 0 = none ∧ (sWait true 2 250000).kvGive 0 ≠ none ∧
    (sWait true 2 249999).clock < ((sWait true 2 249999).seqRec 0).since + 1000 * (sWait true 2 249999).rfld aSrvCtrl 15 0 ∧
    (∀ n ∈ [1, 2], let s : State := { sSrv [] 2 { handles := [(5, hand n)] } with clock := 3600000000 }
     (s.handle 5).state ≠ 0 ∧ (s.handle 5).client = true ∧ (s.handle 5).used + 1000000 * s.rfld aSrvCtrl 47 16 ≤ s.clock ∧
       (s.handle 5).refs = n) ∧
    (let s : State := { sSrv [] 2 { handles := [(5, hand 1)] } with clock := 3599999999 }
     s.clock < (s.handle 5).used + 1000000 * s.rfld aSrvCtrl 47 16) := by
  and_intros <;> decide

/-- R257, R258: only a handle that nothing else holds is freed, with its check count advanced. -/
theorem test_release :
    let bs := releaseEntry 9 5
    (after (exec (.release 0) (sSrv bs 2 { handles := [(5, hand 1)] }))).handle 5 = { check := 10 } ∧
    (after (exec (.release 0) (sSrv bs 2 { handles := [(5, hand 2)] }))).handle 5 = { hand 2 with client := false, refs := 1 } := by decide

/-- Stage 0 of instance 3 runs in domain 1, which is in a step; IN_Q 9 has room; a token step is issued and not yet read. -/
def sSlots (seqs : KV SeqRec) : State :=
  { sSrv [] 2 { seqs := seqs } with
    con := { chos := [(1, { cho7 with inst := some 3, started := true })], doms := [(1, { state := 2, cho := 1, members := [0], steps := 2, between := false })]
             queues := [(9, { cho := some 1, depth := 2, consDom := 1 })] }
    load.insts := [(3, { state := 2, gen := 7, cho := some 1, stages := [{ lag := 1, outQ := 0xFFFF, qstep := 0, dom := 0 }], readN := 1
                         issued := [(1, { gen := 7, slots := [{ kind := 2, seq := 0, order := 0, n := 1, update := false }] })] })] }

/-- The same with B 2 and TS 1: slot 0 decodes and slot 1 trains; stack region 0 holds the training set. -/
def sSlots2 (seqs : KV SeqRec) : State :=
  withRegs (sSlots seqs) [(aSrvIface 3, pack [(0, 1), (16, 9), (43, 1), (51, 1), (63, 1)]), region0 8 6 0]

/-- A tuning job at the only sequence of its training set, and a running sequence with its prompt fed or not. -/
def seqTune : SeqRec := { state := 2, tune := true, inst := 3, nseq := 1, epochs := 1, every := 1, complete := true }
def seqFed (fed : Nat) : SeqRec := { seq0 with state := 2, complete := true, prompt := [77], fed := fed, tokIdx := 1, order := 1 }

theorem witness_SlotRecordsAreIssuedForEverySlot :
    (let s := sSlots2 []
     s.stopping = false ∧ s.homeOn (s.ifaceHome 3) = true ∧ s.feeds 3 = true ∧ (s.endCancelled 3).seqsInOrder 3 seqFeeds = [] ∧
       (s.endCancelled 3).instSeqs 3 = []) ∧
    (∀ fed ∈ [0, 1],
     let s := sSlots2 [(0, seqFed fed), (1, seqTune), (2, { seqFed 1 with cancel := true })]
     let u := s.endCancelled 3
     let q := s.queue (s.ifaceInQ 3)
     s.stopping = false ∧ s.homeOn (s.ifaceHome 3) = true ∧ s.feeds 3 = true ∧ u.seqsInOrder 3 seqFeeds = [0] ∧
       u.seqsInOrder 3 (fun y => y.tune && y.state == 2 && decide (y.epoch < y.epochs)) = [1] ∧
       (q.pub + 2 * q.depth - q.head) % (2 * q.depth) + s.con.held.length + s.ifaceB 3 ≤ q.depth ∧ q.cho ≠ none ∧
       (s.dom q.consDom.toNat).between = false ∧ s.ifaceB 3 - s.ifaceTs 3 = 1 ∧ u.seqRec 0 = seqFed fed ∧ u.seqRec 1 = seqTune ∧
       u.hdmHalf seqTune.cur = some 2 ∧ 0 < min (min 15 (s.ifacePmax 3)) (2 - 1 - seqTune.fed) ∧
       2 ∈ s.instSeqs 3 ∧ (s.seqRec 2).cancel = true ∧ (s.seqRec 2).inFlight = false ∧ (s.seqRec 2).state = 2 ∧ (s.seqRec 2).ending = none) := by
  and_intros <;> decide

/-- The result record of slot 0 in the result region of step `n`: sequence 0 of generation 7 at token index 2, and word 2. -/
def sResult (readN : Nat) (w2 : Nat) (q : SeqRec) : State :=
  let s := sSlots [(0, q)]
  { s with
    mem.stack := memWrite 0 0 (natLe 8 (pack [(16, 7), (32, 2)]) ++ natLe 8 0 ++ natLe 8 w2) []
    load.insts := [(3, { s.inst 3 with readN := readN })] }
def seqRun : SeqRec := { seq0 with state := 2, inFlight := true, stop0 := 0x3FFFF, stop1 := 0x3FFFF }

theorem witness_ResultsReachTheResponseRing_results :
    (let s := sResult 0 0 seqRun
     s.homeOn (s.ifaceHome 3) = true ∧ (s.inst 3).state ≠ 0 ∧ (s.inst 3).state ≠ 1 ∧
       (s.inst 3).readN + 1 ≤ s.stageSteps 3 ((s.inst 3).stages.length - 1) ∧
       (s.inst 3).stages[(s.inst 3).stages.length - 1]?.map (fun e => e.lag) = some 1 ∧ (s.inst 3).readN + 1 ≤ 1) ∧
    (∀ st, st < 3 → ∀ q ∈ [seqRun, { seqRun with state := 3 }],
     let s := sResult 1 (pack [(0, 77), (18, st)]) q
     let n := (s.inst 3).readN + 1
     let w := s.stkWords (s.ifaceBase 3 + n % s.ifaceDepth 3 * s.ifaceB 3 * 128) 16
     let m := recFld w 0 15 0
     n ≤ s.stageSteps 3 ((s.inst 3).stages.length - 1) ∧ 1 < n ∧
       kvFind (n - 1) (s.inst 3).issued = some { gen := 7, slots := [{ kind := 2, seq := 0, order := 0, n := 1, update := false }] } ∧
       s.ifaceB 3 = 1 ∧ s.mem.zeroFill = [] ∧ recFld w 0 31 16 = 7 ∧ (s.seqRec m).order = 0 ∧ (s.seqRec m).state = q.state ∧
       (s.seqRec m).keep = false ∧ (s.seqRec m).ending = none ∧ recFld w 2 19 18 = st ∧ recFld w 2 17 0 ≠ q.stop0.toNat ∧
       (s.seqRec m).generated + 1 ≠ (s.seqRec m).maxTokens.toNat ∧ recFld w 0 63 32 + 1 < s.ifaceCtx (s.seqRec m).inst.toNat ∧
       (s.seqRec m).out.length < 63) ∧
    (∀ q ∈ [{ seqRun with stop0 := 77 }, { seqRun with maxTokens := 1 }],
     let w := (sResult 1 (pack [(0, 77)]) q).stkWords 0 16
     recFld w 2 19 18 = 0 ∧ (recFld w 2 17 0 = q.stop0.toNat ∨ (q.maxTokens.toNat ≠ 0xFFFFFFFF ∧ q.generated + 1 = q.maxTokens.toNat))) := by
  dsimp only; and_intros <;> decide

/-- Response ring 0 as it is, disabled or full. -/
def respRing0 (k : Nat) (s : State) : State :=
  match k with
  | 0 => s
  | 1 => withRegs s [(aRing 256, pack [(0, 1), (4, 6), (32, 2)])]
  | _ => { s with mem.rings := kvPut {} 256 { (s.ring 256) with tail := 2 } s.mem.rings }

theorem witness_ResultsReachTheResponseRing_responses :
    (∀ k ∈ [0, 1, 2], ∀ q ∈ [{ seqRun with handleOut := some 5 }, { seqRun with out := [(77, 7, 2, false)] },
        { seqRun with state := 3, out := [(77, 7, 2, true)] }, { seqRun with state := 5, ending := some 2 }],
     let s := respRing0 k (sSlots [(0, q)])
     (s.seqRec 0).state ≠ 0 ∧ s.homeOn (s.ifaceHome 3) = true ∧ s.ringCount 256 ≠ 0 ∧ s.ringEnabled 256 = (k != 1) ∧
       s.ringFull 256 = (k == 2) ∧ (s.ring 256).outbox = [] ∧ q.progress = [] ∧
       (q.handleOut = none → (q.out = [] ↔ q.ending = some 2))) ∧
    (let s := sSlots []
     let y : Cho := { cho7 with image := { cho7.image with slots := [{ slot := 5, cluster := 0, lthr := 0 }] }, inst := some 3 }
     let s : State := { s with con := { s.con with chos := [(1, y)], notices := [(5, 3)], numSlot := [(5, 1)] } }
     s.ifaceNotice 3 = 1 ∧ kvFind 5 s.con.notices = some 3 ∧ s.con.chos.find? (fun e => e.2.image.slots.any (fun k => k.slot == 5)) = some (1, y) ∧
       s.ifaceOn 3 = true ∧ s.homeOn (kvGet 0 5 s.con.numSlot - 1) = true ∧ s.ringSpace (256 + s.ifaceNotice 3) = true ∧
       (s.ring 257).outbox = []) := by
  dsimp only; and_intros <;> decide

/-! ### Tensor ports, windows and the rack -/

/-- Port 0 in a state. -/
def sPort (p : Port) : State := { State.reset with fab.ports := [(0, p)] }
def frameOf (seq ack : BitVec 12) (nak : Bool) (m : Option CtrlMsg) : Frame :=
  sealFrame { fecCorr := 3, valid := 1, credit := 5, lanes := 0xFF, msgs := (Vector.replicate 7 none).set 0 m
              slots := Vector.replicate 63 { bytes := Vector.replicate 128 1 }, seq := seq, ack := ack, nak := nak, crc := 0 }
def frame0 : Frame := frameOf 0 0xFFF false none
/-- R278: the CRC of the nine digits that the standard gives as its check. -/
theorem test_crc32 : crc32 [0x31, 0x32, 0x33, 0x34, 0x35, 0x36, 0x37, 0x38, 0x39] = 0xCBF43926 := by decide
theorem seal_crc (f : Frame) : (sealFrame f).crc = frameCrc (sealFrame f) := rfl
theorem bad_crc (f : Frame) : ({ f with crc := frameCrc f + 1 } : Frame).crc ≠ frameCrc { f with crc := frameCrc f + 1 } := by
  show frameCrc f + 1 ≠ frameCrc f
  generalize frameCrc f = x
  bv_omega
/-- A trained port that has sent frame 0. -/
def port0 : Port := { state := 2, lanes := 0xFF, rxSeq := 0xFFF, txSeq := 1, sent := [frame0] }
def port1 : Port := { port0 with sent := [] }
/-- The window close acknowledgement to module 0 or another. -/
def ack0 (dest : BitVec 10) : CtrlMsg :=
  .winCloseAck { src := 1, dest := dest, tile := 0, tenant := 0, window := 2, edge := 0, reason := 0, closeId := 1 }

theorem witness_PortsCarryFramesAndTrain_frames :
    (portCarries port0 = true ∧ portCarries { port0 with state := 4 } = true) ∧
    (∃ f : Frame, f.crc ≠ frameCrc f) ∧
    (∀ seq ack nak m, (frameOf seq ack nak m).crc = frameCrc (frameOf seq ack nak m)) ∧
    (frame0.seq = port0.rxSeq + 1 ∧ (frameOf 7 0 false none).seq ≠ port0.rxSeq + 1 ∧ frame0.msgs.toList = List.replicate 7 none) ∧
    -- a NAK that frees the frame or leaves it, after 0, 14 and 15 retries in succession
    (port0.sent.filter (fun g => decide (2048 ≤ ((frameOf 0 0 true none).ack - g.seq).toNat))).length = 0 ∧
    (port0.sent.filter (fun g => decide (2048 ≤ ((frameOf 0 0xFFF true none).ack - g.seq).toNat))).length = port0.sent.length ∧
    (∀ n ∈ [0, 14, 15], ({ port0 with retried := n } : Port).retried = n) ∧
    (∀ i : Fin 1, frame0.valid.getLsbD i = true) ∧
    ((frameOf 0 0xFFF false (some (ack0 1))).msgs.toList.filterMap id = [ack0 1] ∧ msgDest (ack0 1) ≠ (sPort port0).modNumber ∧
      (sPort port0).isManager = false) ∧
    ({ port0 with resend := [frame0] } : Port).resend = frame0 :: [] ∧
    64 ≤ ({ port0 with sent := List.replicate 64 frame0 } : Port).sent.length ∧
    (port0.resend = [] ∧ port0.sent.length < 64 ∧ (sPort port0).fab.stalled = []) := by
  refine ⟨by decide, ⟨_, bad_crc frame0⟩, fun _ _ _ _ => seal_crc _, by decide, by decide, by decide, by decide, by decide, by decide, rfl, by decide, by decide⟩

theorem witness_PortsCarryFramesAndTrain_training :
    (portLanes port1 = 8 ∧ portLanes { port1 with badTx := 1 } = 7 ∧ portLanes { port1 with badTx := 3 } < 7) ∧
    (((sPort { state := 1 }).port 0).state = 1 ∧ 7 ≤ portLanes { state := 1 } ∧ (sPort { state := 1 }).fab.stalled = []) ∧
    ((1 : BitVec 10).toNat = (sPort {}).modNumber / 16 * 16 + ((sPort {}).modNumber % 16 + 1 + 0 % 24) % 16 ∧ (14 : BitVec 7).toNat = 0 / 24 * 24 + (14 - 0 % 24)) ∧
    (¬ 15 ≤ 0 % 24 ∧ (2 : BitVec 10).toNat ≠ (sPort {}).modNumber / 16 * 16 + ((sPort {}).modNumber % 16 + 1 + 0 % 24) % 16) ∧
    (∀ n ∈ [0, 1, 2], let s := sPort { port1 with state := 5, retrains := n }; (s.port 0).state = 5 ∧ (s.port 0).retrains = n ∧ 7 ≤ portLanes (s.port 0)) ∧
    (∀ n ∈ [1, 2], let s := sPort { port1 with state := 5, retrains := n, badRx := 3 }; (s.port 0).state = 5 ∧ portLanes (s.port 0) < 7) ∧
    (∀ st ∈ [2, 3, 4], let s := sPort { port1 with state := st }; portCarries (s.port 0) = true ∧ (s.port 0).class1.length < 64) ∧
    (∀ b, let s := sPort { port1 with state := 3, spareReady := b, badTx := 1 }; (s.port 0).state = 3 ∧ (s.port 0).spareReady = b ∧
      (s.port 0).spare = false ∧ (s.port 0).class1.length < 64) ∧
    ((sPort { port1 with state := 4, faultLane := some 3 }).port 0).state = 4 := by
  and_intros <;> decide

/-- R277, R278: a frame with its CRC in sequence gives its flits, and its ACK frees the frame it covers; one out of sequence, or
with another CRC, sets NAK. -/
theorem test_frame_taken : let p := (after (exec (.frameReceive 0 (frameOf 0 0 false none)) (sPort port0))).port 0
    p.sent.length = 0 ∧ p.rx.length = 1 ∧ p.nak = false := by
  dsimp only [exec, execFrameReceive]
  rw [if_neg (by decide), if_neg (fun h => h (seal_crc _))]
  decide
theorem test_frame_order : ((after (exec (.frameReceive 0 (frameOf 7 0 false none)) (sPort port0))).port 0).nak = true := by
  dsimp only [exec, execFrameReceive]
  rw [if_neg (by decide), if_neg (fun h => h (seal_crc _))]
  decide
theorem test_frame_crc (f : Frame) (h : f.crc ≠ frameCrc f) :
    ((after (exec (.frameReceive 0 f) (sPort port0))).port 0).nak = true := by
  dsimp only [exec, execFrameReceive]
  rw [if_neg (by decide), if_pos h]
  rfl

/-- An RWR, RRD, RFLAG or MSG of module 1 for a window of edge group 0 of module 0. -/
def head0 (op : BitVec 4) (window : BitVec 12) (tenant : BitVec 8) : Header :=
  { op := op, dest := 0, src := 1, tenant := tenant, window := window, edge := 0, len := 0, offset := 0, tag := 5, srcTile := 9, status := 0, value := 3, flag := 0 }
def data1 : List Flit := [{ bytes := List.replicate 128 7, bad := [3], kind := .remote }]

/-- Windows 2, 3, 4 and 5 of edge group 0, open to module 1: 128 bytes of scratch of tile 0, 128 bytes of stack, one flag, and
scratch that may be neither read nor written; port 0 has received flits. -/
def sWin (h : Header) (data : List Flit) : State :=
  let w (kind rights : Nat) := pack [(0, 1), (2, kind), (4, rights), (16, 1)]
  { withRegs (sFlag 0 .no none []) [(aFabWin 0 2, w 0 3), (aFabWin 0 2 + 8, 0x20000), (aFabWin 0 2 + 16, 128), (aFabWin 0 3, w 1 3),
      (aFabWin 0 3 + 16, 128), (aFabWin 0 4, w 2 3), (aFabWin 0 4 + 8, 5), (aFabWin 0 4 + 16, 1), (aFabWin 0 5, w 0 0), (aFabWin 0 5 + 16, 128),
      (aRing 514, pack [(0, 1), (4, 6), (16, 1), (32, 2)])] with
    fab.ports := [(0, { port0 with rx := { bytes := headerBytes h } :: data })] }

theorem sWin_first {h : Header} {fs : List Flit} {op : Nat} (ho : h.op.toNat = op)
    (hn : fs.length = if op = 1 ∨ op = 4 ∨ op = 6 then h.len.toNat + 1 else 0)
    (hb : ∀ f ∈ fs, f.bytes.length = 128 ∧ ∀ j ∈ f.bad, j < 128) :
    FirstOp ((sWin h fs).port 0) op h (fs.map (fun f => f.bytes)) fs := by
  refine ⟨ho, ⟨{ bytes := headerBytes h }, [], ?_, rfl⟩, rfl, hn, hb⟩
  rw [List.append_nil]; rfl

theorem witness_RemoteOperationsAndWindows_owner_first :
    (∀ op ∈ [(1 : BitVec 4), 6], ∀ w t, FirstOp ((sWin (head0 op w t) data1).port 0) op.toNat (head0 op w t) (data1.map (fun f => f.bytes)) data1) ∧
    (∀ op ∈ [(2 : BitVec 4), 3], ∀ w t, FirstOp ((sWin (head0 op w t) []).port 0) op.toNat (head0 op w t) [] []) ∧
    ((sWin (head0 1 2 0) data1).port 1).rx = [] := by
  refine ⟨?_, ?_, rfl⟩
  · intro op ho w t
    refine sWin_first rfl ?_ (by decide)
    simp only [List.mem_cons, List.mem_nil_iff, or_false] at ho
    rcases ho with rfl | rfl <;> rfl
  · intro op ho w t
    refine sWin_first (fs := []) rfl ?_ (by decide)
    simp only [List.mem_cons, List.mem_nil_iff, or_false] at ho
    rcases ho with rfl | rfl <;> rfl

theorem witness_RemoteOperationsAndWindows_owner :
    (∀ op ∈ [1, 2, 3], ∀ w ∈ [(2 : BitVec 12), 3, 4, 5], let h := head0 op w 0; let s := sWin h data1
      h.dest.toNat = s.modNumber ∧
        (s.winState 0 w.toNat ≠ 0 ∧ (0 : BitVec 2).toNat = 0 / 24) ∧ h.src.toNat = s.winPeer 0 w.toNat ∧ h.tenant.toNat = s.winPeerTenant 0 w.toNat ∧
        (s.winKind 0 w.toNat ≠ 2 → h.offset.toNat + 128 * 1 ≤ s.winLen 0 w.toNat) ∧ h.flag.toNat < s.winLen 0 w.toNat) ∧
    (let s := sWin (head0 1 2 0) data1
     s.winWrite 0 2 = true ∧ s.winRead 0 2 = true ∧ s.winKind 0 2 = 0 ∧ bits (s.winBase 0 2) 37 24 = 0 ∧ (s.dom (s.domOf 0)).loupe = false ∧
       s.winKind 0 3 = 1 ∧ s.winWrite 0 3 = true ∧ s.winRead 0 3 = true ∧ (∀ e ∈ s.con.doms, e.2.loupe = false) ∧ s.winKind 0 4 = 2 ∧
       s.winWrite 0 5 = false ∧ s.winRead 0 5 = false ∧ s.winState 0 6 = 0 ∧ s.ringSpace 514 = true ∧ s.ringSpace 515 = false) ∧
    (∀ b, let s : State := { sWin (head0 3 4 0) [] with con := { (sWin (head0 3 4 0) []).con with doms := [(1, { state := 2, cho := 1, members := [0], between := b })] } }
     s.inStep (s.flag 5).dom.toNat = !b ∧ (s.flag 5).cho ≠ none ∧ s.con.held = [] ∧ (s.flag 5).count.toNat + (3 : BitVec 8).toNat ≤ 65535 ∧
       kvWf {} s.con.flags = true) ∧
    (head0 1 2 9).tenant.toNat ≠ (sWin (head0 1 2 9) data1).winPeerTenant 0 2 ∧
    ¬ ({ head0 1 2 0 with offset := 1 } : Header).offset.toNat + 128 * 1 ≤ (sWin (head0 1 2 0) data1).winLen 0 2 ∧
    (sWin (head0 1 2 0) data1).winLen 0 4 ≤ ({ head0 1 2 0 with flag := 1 } : Header).flag.toNat := by
  and_intros <;> decide

/-- A remote operation of tile 0 outstanding to module 1 under tag 5, in a domain that runs. -/
def ctab0 (op : BitVec 4) : Ctab := { tile := 0, op := op, owner := 1, window := 2, edge := 0, tenant := 0, since := 0, limit := 10, kept := false }
def sIssuer (op : BitVec 4) (l : Bool) (h : Header) (fs : List Flit) : State :=
  { runIn State.reset 0 { seq := { remoteOut := 1 } } with
    clock := 10000, fab := { ctab := [(5, { ctab0 op with live := l })], ports := [(0, { port0 with rx := { bytes := headerBytes h } :: fs })] } }

theorem sIssuer_first {h : Header} {fs : List Flit} {op : Nat} (e : BitVec 4) (l : Bool) (ho : h.op.toNat = op)
    (hn : fs.length = if op = 1 ∨ op = 4 ∨ op = 6 then h.len.toNat + 1 else 0)
    (hb : ∀ f ∈ fs, f.bytes.length = 128 ∧ ∀ j ∈ f.bad, j < 128) :
    FirstOp ((sIssuer e l h fs).port 0) op h (fs.map (fun f => f.bytes)) fs := by
  refine ⟨ho, ⟨{ bytes := headerBytes h }, [], ?_, rfl⟩, rfl, hn, hb⟩
  rw [List.append_nil]; rfl

/-- Window 2 of edge group 0 in a state, over scratch of tile 0; port 0 is up; what this module waits for. -/
def sWinCmd (state : Nat) (closing : KV Closing) (watches : List Watch) (ctab : KV Ctab) : State :=
  { withRegs (withHost State.reset) [(aFabWin 0 2, pack [(0, state), (16, 1)]), (aFabWin 0 2 + 8, 0x20000), (aFabWin 0 2 + 16, 128)] with
    clock := 10000, fab := { ports := [(0, port0)], closing := closing, watches := watches, ctab := ctab } }
def win0 (id : Half) : WinMsg := { src := 1, dest := 0, tile := 0, tenant := 0, window := 2, edge := 0, reason := 3, closeId := id }
def watch0 : Watch := { owner := 1, edge := 0, window := 2, closeId := 4 }

theorem witness_RemoteOperationsAndWindows_issuer :
    (∀ op ∈ [(1 : BitVec 4), 3, 6, 2], ∀ l, let s := sIssuer op l (head0 5 2 0) []
      kvFind (head0 5 2 0).tag.toNat s.fab.ctab = some { ctab0 op with live := l } ∧ (ctab0 op).owner = (head0 5 2 0).src ∧
        (ctab0 op).kept = false ∧ (head0 5 2 0).dest.toNat = s.modNumber) ∧
    (let s := sIssuer 1 true (head0 5 2 0) []
     kvFind (0 * 32768 + 5) s.fab.ctab = some (ctab0 1) ∧ (ctab0 1).since + 1000 * (ctab0 1).limit ≤ s.clock ∧ (s.tile 0).dom ≠ none ∧
       (s.dom (s.domOf 0)).state = 2 ∧ s.domInst (s.domOf 0) = none ∧ 0 * 32768 + 5 ∉ s.meshTags (s.domOf 0)) ∧
    (let s : State := { State.reset with fab := { ctab := [(5, ctab0 1)] } }
     (s.tile (ctab0 1).tile).dom = none ∧ s.clock < (ctab0 1).since + 1000 * (ctab0 1).limit) ∧
    (let s := sIssuer 1 true (head0 5 2 0) []
     (win0 1).dest.toNat = s.modNumber ∧ (win0 1).tile ≠ 0x3FFF ∧ (s.tile (win0 1).tile.toNat).dom ≠ none ∧
       s.domInst (s.domOf (win0 1).tile.toNat) = none ∧ (s.dom (s.domOf (win0 1).tile.toNat)).state ≠ 0) ∧
    (∀ p ∈ [Path.host, Path.firmware], ∀ st ∈ [0, 1, 2], Reaches (sWinCmd st [] [] []) p aFabWinCmd true ∧ (sWinCmd st [] [] []).winState 0 2 = st) ∧
    ((sWinCmd 0 [] [] []).openOk 0 2 = true ∧ (sWinCmd 0 [] [] []).winKind 0 2 = 0 ∧ (sWinCmd 0 [] [] []).openOk 0 3 = false) ∧
    (Routes (sWinCmd 1 [] [] []) 0 (.winClose { win0 1 with src := 0, dest := BitVec.ofNat 10 ((sWinCmd 1 [] [] []).winPeer 0 2), reason := 0 })) ∧
    (let s := sWinCmd 0 [] [watch0] []
     s.fab.watches = [watch0] ∧ watch0.owner = 1 ∧ watch0.edge = 0 ∧ watch0.window = 2 ∧
       (∀ e ∈ s.fab.ctab, ¬ (e.2.owner = 1 ∧ e.2.edge = 0 ∧ e.2.window = 2)) ∧
       Routes s 0 (.winCloseAck { win0 4 with src := BitVec.ofNat 10 s.modNumber, dest := 1, reason := 0 })) ∧
    (∀ e ∈ [(5, ctab0 1)], e ∈ (sWinCmd 0 [] [watch0] [(5, ctab0 1)]).fab.ctab ∧ e.2.owner = 1 ∧ e.2.edge = 0 ∧ e.2.window = 2) ∧
    (let c : Closing := { closeId := 4, since := 0, limit := 10 }; let s := sWinCmd 2 [(winKey 0 2, c)] [] []
     kvFind (winKey 0 2) s.fab.closing = some c ∧ (win0 4).dest.toNat = s.modNumber ∧ c.closeId = (win0 4).closeId ∧ c.closeId ≠ (win0 5).closeId ∧
       s.winState 0 2 = 2 ∧ s.winPeer 0 2 = (win0 4).src.toNat ∧ c.since + 1000 * c.limit ≤ s.clock ∧ State.reset.clock < c.since + 1000 * c.limit) := by
  dsimp only [Reaches, Routes]; and_intros <;> decide

theorem witness_RemoteOperationsAndWindows_issuer_first (e : BitVec 4) (l : Bool) :
    FirstOp ((sIssuer e l (head0 5 2 0) []).port 0) 5 (head0 5 2 0) [] [] ∧
    FirstOp ((sIssuer e l (head0 4 2 0) data1).port 0) 4 (head0 4 2 0) (data1.map (fun f => f.bytes)) data1 :=
  ⟨sIssuer_first (fs := []) e l rfl rfl (by decide), sIssuer_first e l rfl rfl (by decide)⟩

/-- A module with ROLE (0 none, 1 manager, 2 standby) of module 0, TERM 5 and manager 2; directory entry 0 has choreography 7's
domain 0 with slots 1 and `n` in its MASK; port 0 (toward slot 1) is up. -/
def sRack (role n : Nat) (arr : KV (List Arrival)) (x : Domain) : State :=
  { withRegs State.reset [(aFabModId, role * 2 ^ 10), (aFabMgrState, pack [(0, 1), (2, 2), (12, 5)]), (aFabRdir 0, pack [(0, 7), (38, 1)]), (aFabRdir 0 + 8, 2 ||| 2 ^ n)] with
    clock := 100000, fab := { ports := [(0, port0)], arrivals := arr }
    con := { chos := [(1, { cho7 with image := { cho7.image with domains := [{ dom := 0, spans := true, root := 0, parts := 3, x0 := 0, x1 := 0, y0 := 0, y1 := 0 }] }, started := true })]
             doms := [(1, x)] } }
def arrive (slot : BitVec 10) (mark : BitVec 2) : BarMsg := { src := slot, dest := 0, choId := 7, locDom := 0, mark := mark, attempt := 0, step := 4 }
def part0 (state : BitVec 4) : Domain := { state := state, cho := 1, spans := true, awaitRelease := true }

theorem witness_TheManagerCombinesBarriers :
    (∀ n ∈ [1, 3], let s := sRack 1 n [] {}
     (arrive 1 0).dest.toNat = s.modNumber ∧ s.isManager = true ∧ (arrive 1 0).src.toNat / 16 = s.modNumber / 16 ∧
       s.rdirFind (arrive 1 0).choId.toNat (arrive 1 0).locDom.toNat 0 = some 0 ∧ s.rdirUpper 0 = false ∧
       kvFind (aFabRdir 0) s.reg.committed = none ∧ kvFind (aFabRdir 0 + 8) s.reg.committed = none) ∧
    (let l (s : State) := (kvGet [] 0 s.fab.arrivals).filter (fun b => b.slot != 1) ++ [({ slot := 1, src := 1, mark := 0, attempt := 0, step := 4 } : Arrival)]
     (∃ i ∈ (sRack 1 3 [] {}).rdirMask 0, ∀ b ∈ l (sRack 1 3 [] {}), b.slot ≠ i) ∧
       ∀ i ∈ (sRack 1 1 [] {}).rdirMask 0, (∃ b ∈ l (sRack 1 1 [] {}), b.slot = i) ∧ i < 16 ∧ i ≠ (sRack 1 1 [] {}).modNumber % 16) ∧
    Routes (sRack 1 1 [] {}) 0 (.barRelease { arrive 1 0 with src := 0, dest := 1 }) ∧
    (∃ l : List Arrival, l ≠ [] ∧ ∃ b ∈ l, b.mark = 3) ∧
    (let l : List Arrival := [{ slot := 1, src := 1, mark := 1, attempt := 2, step := 4 }]
     l ≠ [] ∧ (∀ b ∈ l, b.mark ≠ 3) ∧ ∃ b ∈ l, b.mark = 2 ∨ (b.mark = 1 ∧ b.attempt = 2)) ∧
    (∀ mark ∈ [(0 : BitVec 2), 1], let l : List Arrival := [{ slot := 1, src := 1, mark := mark, attempt := 1, step := 4 }]
     (∀ b ∈ l, b.mark = 0 ∨ (b.mark = 1 ∧ b.attempt ≠ 2)) ∧ ∀ b ∈ l, ∀ c ∈ l, b.step = c.step) ∧
    (∃ l : List Arrival, ∃ b ∈ l, ∃ c ∈ l, b.step ≠ c.step) ∧
    (∀ st ∈ [(1 : BitVec 4), 2], let s := sRack 0 1 [] (part0 st)
     (arrive 1 1).dest.toNat = s.modNumber ∧ s.isManager = false ∧ s.msgDom 7 0 = some 1 ∧ (s.dom 1).awaitRelease = true ∧ (s.dom 1).state = st ∧
       (s.dom 1).holdAfter = none ∧ s.domInst 1 = none ∧ SyncWf s) ∧
    (let s := sRack 0 1 [] {}
     (∀ src ∈ [(1 : BitVec 10), 2], src.toNat / 16 = s.modNumber / 16) ∧ s.term ≤ (5 : Half).toNat ∧ (4 : Half).toNat < s.term ∧ s.isManager = false ∧
       (¬ ∃ e ∈ s.con.doms, e.2.spans = true ∧ e.2.awaitRelease = true) ∧ s.rfld aFabMgrState 1 0 ≠ 2 ∧ s.fab.lastBeat + 100000 ≤ s.clock ∧
       s.clock < (s.clock + 1) + 20000 ∧ ∀ e ∈ s.con.doms, e.2.spans = false) ∧
    (let s := sRack 0 1 [] (part0 2)
     (∃ e ∈ s.con.doms, e.2.spans = true ∧ e.2.awaitRelease = true) ∧ s.con.doms = [(1, part0 2)] ∧ s.domInst 1 = none ∧ s.managerNo = (2 : BitVec 10).toNat) ∧
    (∀ c, kvFind 5 (sRack 1 1 [] {}).keep.lastAt = some c → c + 1000 ≤ (sRack 1 1 [] {}).clock) ∧
    ((sRack 1 1 [] {}).isManager = true ∧ (sRack 1 1 [] {}).term < (6 : Half).toNat ∧
      Routes (sRack 1 1 [] {}) 0 (.heartbeat 0 1 (BitVec.ofNat 32 (sRack 1 1 [] {}).term) 1)) ∧
    (let s := sRack 2 1 [] {}
     s.rfld aFabModId 11 10 = 2 ∧ s.fab.lastBeat + 20000 ≤ s.clock ∧ (¬ ∃ e ∈ s.con.doms, e.2.spans = true ∧ e.2.awaitRelease = true) ∧
       Routes s 0 (.heartbeat 0 1 (BitVec.ofNat 32 ((s.term + 1) % 2 ^ 32)) 1)) ∧
    ((0 : BitVec 10).toNat = (sRack 1 1 [] {}).modNumber ∧ (3 : BitVec 10).toNat ≠ (sRack 1 1 [] {}).modNumber ∧ (3 : BitVec 10).toNat ∉ (sRack 1 1 [] {}).fab.joined) := by
  dsimp only [Routes, SyncWf]
  and_intros <;> first | decide | exact (fun c h => by cases h) | exact ⟨[{ slot := 1, src := 1, mark := 0, attempt := 0, step := 4 }, { slot := 2, src := 2, mark := 0, attempt := 0, step := 5 }], by decide⟩ | exact ⟨[{ slot := 1, src := 1, mark := 3, attempt := 0, step := 4 }], by decide⟩

/-- A follower, or a module whose counter starts new epochs by edges, with FCOUNT, and the last exchange at a time. -/
def sTime (mode fcount last : Nat) (sync : Option Nat) : State :=
  { withRegs State.reset [(aFabTimeCfg, mode), (aFabFcount, fcount), (aKeepState, 32)] with
    clock := 2000000, fab := { ports := [(0, port0)], lastSync := last, syncPort := sync } }

theorem witness_TimeFollowsCrystalAndParent :
    ((sTime 1 9 0 none).timeMode = 1 ∧ (sTime 1 9 0 none).isRoot = false ∧ ((sTime 1 9 0 none).port 0).class2.length < 64 ∧ portUp ((sTime 1 9 0 none).port 0) = true ∧
      ((sTime 1 9 0 none).port 0).class2.length < 63) ∧
    (∀ l ∈ [0, 5], (sTime 1 9 l (some 0)).timeMode = 1 ∧ (sTime 1 9 l (some 0)).isRoot = false ∧ (sTime 1 9 l (some 0)).fab.syncPort = some 0 ∧
      (sTime 1 9 l (some 0)).fab.lastSync = l) ∧
    ((sTime 1 9 5 none).rbit aFabTimeCfg 12 = false ∧ (sTime 1 9 5 none).fab.lastSync + 1000000 ≤ (sTime 1 9 5 none).clock) ∧
    ((sTime 0 1000001 0 none).timeMode = 0 ∧ (sTime 0 1000001 0 none).fcount.toNat + 999999 < 2 ^ 64) ∧
    ((sTime 0 0 0 none).keep.calOrder ≠ 4 ∧ (sTime 0 0 0 none).isReady = true ∧ (sTime 0 0 0 none).inRecovery = false) ∧
    -- no command waits
    State.reset.pending = [] ∧ State.reset.load.jobs = [] ∧ kvRising sVec.con.doms = true ∧ State.reset.anyCluster = false ∧ (withHost State.reset).pending = [] ∧ (withHost State.reset).anyCluster = true ∧
    (∀ h ∈ [0, 3], let s : State := { withHost State.reset with clock := 999999, keep := { (withHost State.reset).keep with ledger := { calHold := h } } }
     s.pending = [] ∧ (s.clock + 1) % 1000000 = 0 ∧ s.keep.pins.keep12v = true ∧ s.keep.ledger.calHold = h) ∧
    (State.reset.clock + 1) % 1000000 ≠ 0 := by
  and_intros <;> decide

/-- R304: an epoch edge takes the counter to the next multiple of 1,000,000 ns, or to the epoch that the manager gives. -/
theorem test_epoch_edge : (after (exec (.rackEpochEdge none) (sTime 0 1000001 0 none))).reg64 aFabFcount = 2000000 ∧
    (after (exec (.rackEpochEdge (some 7)) (sTime 0 1000001 0 none))).reg64 aFabFcount = 7000000 := by decide
/-! ### The host port and the service ports -/

/-- The host link in a STATE, with PERST_N released or held, and KEEP.STATE. -/
def sLinkSt (st keep : Nat) (perst : Bool) (rs : List (Nat × Nat)) : State :=
  let s := withRegs (withHost State.reset) ((aHostLinkState, st) :: (aKeepState, keep) :: rs)
  { s with keep.pins := { s.keep.pins with perstN := perst } }

/-- A shard that the host feeds, its job in FETCHING, and the host link up. -/
def hostShard : List Word := [0, BitVec.ofNat 64 (pack [(0, 132096), (40, 3)]), 0, 0, 0, 0, 0, 0]
def hostJob : Job := { jobIn 2 1 .fetching [] [] [] [] with env := env1 [hostShard] [[0]] stage1 }
def sHostFed : State :=
  let s := withHost State.reset
  { s with load := { jobs := [hostJob], insts := [(3, { state := 3, gen := 1, cho := some 1 })] } }

theorem witness_TheHostAndServicePorts_host :
    (let s := sLinkSt 2 16 true []
     s.hostFetches = [] ∧ kvWf {} s.mem.rings = true ∧ s.hostUp = true ∧ s.keep.pins.perstN = true) ∧
    ((sLinkSt 2 16 true []).hostUp = true ∧ (sLinkSt 3 16 true []).hostUp = true ∧ (sLinkSt 2 16 true []).rfld aHostLinkState 2 0 = 2) ∧
    (∀ st ∈ [0, 1], ∀ k ∈ [13, 12, 64], (sLinkSt st k false []).hostUp = false ∧ (sLinkSt st k true []).rfld aHostLinkState 2 0 = st ∧
      (((sLinkSt st k false []).domainOn 62 = true ∧ (13 ≤ (sLinkSt st k false []).rfld aKeepState 4 0 ∨ (sLinkSt st k false []).inRecovery = true)) ↔ k ≠ 12)) ∧
    (sLinkSt 2 64 true []).inRecovery = true ∧
    (let s := sLinkSt 2 16 true [region0 16 7 0]
     s.hostUp = true ∧ s.outputsReleased = false ∧ s.ideLost.getLsbD 1 = false ∧ (∀ e ∈ s.con.doms, e.2.loupe = false) ∧
       s.stkBad 65472 = false ∧ s.stkBad (65472 + 32) = false ∧ s.inRecovery = false ∧ s.frozenAt 2 1 = false ∧ s.hdmAt (65535 / 64 * 64) = some (7, 65472) ∧
       s.hdmAt (0x100000 / 64 * 64) = none ∧ s.agentTag 1 = 0 ∧ (List.replicate 64 (1 : Byte)).length = 64 ∧ 65472 / 65536 ∉ s.mem.zeroFill ∧
       s.stackOffline (stackOf 65472) = false ∧ 65472 / 32 ∉ s.mem.stackBad ∧ 65472 / 32 + 1 ∉ s.mem.stackBad) ∧
    ((sLinkSt 2 16 true [region0 16 6 0]).hdmAt 0 = some (6, 0)) ∧
    (let s := sLinkSt 2 16 true [region0 16 7 3, (aHostAgent, 5 * 256)]
     s.agentTag 1 ≠ 0 ∧ s.pageTag (0 / 65536) ≠ some (s.agentTag 1)) ∧
    (let s := sLinkSt 2 16 true [region0 16 7 5, (aHostAgent, 5 * 256)]
     s.agentTag 1 ≠ 0 ∧ s.pageTag (0 / 65536) = some (s.agentTag 1)) ∧
    (({ sLinkSt 2 16 true [] with trust.frozen := [{ cls := 2, id := 1, tag := 0, reset := false }] } : State).frozenAt 2 1 = true) ∧
    (Running sHostFed 3 hostJob .fetching ∧ 0 < hostJob.env.shards.length ∧ 0 ∉ hostJob.fetched ∧ 0 ∉ hostJob.failed ∧
      shHost (hostJob.env.shards.getD 0 []) = true ∧ kvGet 0 0 hostJob.tries < 3 ∧ sHostFed.clock < kvGet 0 0 hostJob.since + 50000 ∧
      kvGet 0 0 hostJob.since + 50000 ≤ ({ sHostFed with clock := 50000 } : State).clock ∧ sHostFed.hostFetches = [(3, 0)] ∧ (3, 1) ∉ sHostFed.hostFetches) := by
  dsimp only [Running]; and_intros <;> decide

/-- Service port 0 with its link in a STATE, profile 0 of a tag (request ring 0, message ring 514, response ring 256; every source), and
queue pair 0 in a state, connected by it, with SENDS_OUT. -/
def profile0 (tag en : Nat) : Nat := pack [(0, tag), (19, en), (28, en), (33, en), (34, 1), (37, 1)]
def sSvc (link qp tag en sends : Nat) (rs : List (Nat × Nat)) (rings : KV Ring) : State :=
  { withRegs (withHost State.reset) ([(aSvcPortState 0, pack [(0, link), (16, b2n (qp == 1))]), (aSvcProfile 0, profile0 tag en),
      (aSvcQp 0 0, qp), (aSvcQp 0 0 + 8, sends)] ++ rs) with
    srv.conns := if qp = 0 then [] else [(0, BitVec.ofNat 64 (profile0 tag en))], srv.rkeys := if qp = 0 then [] else [(0, 7)], mem.rings := rings }
def respCfg : Nat × Nat := (aRing 256, pack [(0, 1), (4, 6), (16, 1), (32, 2)])
def msgCfg (enable : Nat) : Nat × Nat := (aRing 514, pack [(0, 1), (4, 6), (16, enable), (32, 2)])

theorem witness_TheHostAndServicePorts_service :
    (∀ en ∈ [0, 1], let s := sSvc 2 0 0 en 0 [] []
     let a := aSvcProfile 0
     let u := (((s.applyReg a).applyReg (a + 8)).applyReg (a + 16)).applyReg (a + 24)
     u.reg64 a = s.reg64 a ∧ u.inPrefix 0 0 = true ∧ u.respBound (connResp (u.reg64 a)) = false ∧ s.rfld (aSvcPortState 0) 1 0 = 2 ∧ bit (s.reg64 (aSvcProfile 0)).toNat 37 = true ∧ bit (s.reg64 (aSvcProfile 0)).toNat 34 = true ∧
       s.inPrefix 0 0 = true ∧ s.respBound (connResp (s.reg64 (aSvcProfile 0))) = false ∧ s.qpState 0 0 = 0) ∧
    (bit ((sSvc 2 0 0 1 0 [] []).reg64 (aSvcProfile 1)).toNat 37 = false) ∧
    (∀ n ∈ [64, 128], let s := sSvc 2 1 0 1 0 [ringCfg 1 1 2] []; let r := connReq (s.connWord 0 0)
     s.qpState 0 0 = 1 ∧ kvFind (4096 * 0 + 0) s.srv.rkeys = some 7 ∧ r = 0 ∧ connReqEn (s.connWord 0 0) = true ∧ n % s.ringEsz r = 0 ∧ 0 < n / s.ringEsz r ∧ n / s.ringEsz r ≤ 64 ∧
       s.connMay 0 0 r = true ∧ s.ringEnabled r = true ∧ 0 < s.ringCount r ∧ (s.ring r).head < 2 * s.ringCount r ∧
       (s.ring r).tail < 2 * s.ringCount r ∧ s.ringHolds r + n / s.ringEsz r ≤ s.ringCount r) ∧
    ((sSvc 2 1 5 1 0 [ringCfg 1 1 2] []).connMay 0 0 0 = false) ∧
    ((sSvc 2 1 0 1 0 [ringCfg 1 0 2] []).ringEnabled 0 = false ∧ (sSvc 2 1 0 1 0 [ringCfg 1 1 0] []).ringCount 0 = 0) ∧
    ((sSvc 2 1 0 1 0 [ringCfg 1 1 2] [(0, { tail := 2 })]).ringFull 0 = true ∧ (sSvc 2 1 0 1 0 [ringCfg 1 1 2] [(0, { tail := 2 })]).ringPolicy 0 ≠ 0) ∧
    (connReqEn ((sSvc 2 1 0 0 0 [] []).connWord 0 0) = false ∧ connMsgEn ((sSvc 2 1 0 0 0 [] []).connWord 0 0) = false ∧
      connRespEn ((sSvc 2 1 0 0 0 [] []).connWord 0 0) = false) ∧
    (let s (e : Nat) := sSvc 2 1 0 1 0 [msgCfg e] []; let r := connMsg ((s 1).connWord 0 0)
     r = 514 ∧ connMsgEn ((s 1).connWord 0 0) = true ∧ (s 1).ringEsz r = 64 ∧ (s 1).connMay 0 0 r = true ∧ (s 1).ringSpace r = true ∧
       (s 0).ringSpace r = false ∧ (s 0).connMay 0 0 r = true) ∧
    ((sSvc 2 1 5 1 0 [msgCfg 1] []).connMay 0 0 514 = false) ∧
    (let s := sSvc 2 1 0 1 1 [respCfg] [(256, { tail := 2 })]; let r := connResp (s.connWord 0 0)
     r = 256 ∧ connRespEn (s.connWord 0 0) = true ∧ s.sendsOut 0 0 = 1 ∧ 1 < s.ringHolds r ∧ s.connMay 0 0 r = true) ∧
    ((sSvc 2 1 0 1 16 [respCfg] [(256, { tail := 2 })]).sendsOut 0 0 = 16) ∧
    (∀ q ∈ [0, 2], (sSvc 2 q 0 1 0 [] []).qpState 0 0 = q) ∧
    (kvFind (4096 * 0 + 0) (sSvc 2 1 0 1 0 [] []).srv.conns ≠ none) ∧
    (∀ p ∈ [Path.host, Path.firmware], ∀ q ∈ [1, 2], Reaches (sSvc 2 q 0 1 0 [] []) p aSvcQpCmd true) := by
  dsimp only [Reaches]; and_intros <;> decide

/-- R321, R322: a WRITE of two entries enters the ring; a response leaves and its ACK frees it. -/
theorem test_service :
    ((after (exec (.rdmaWrite 0 0 { va := 0, rkey := 7 } (List.replicate 128 1)) (sSvc 2 1 0 1 0 [ringCfg 1 1 2] []))).ring 0).tail = 2 ∧
    (after (exec (.responseSend 0 0) (sSvc 2 1 0 1 1 [respCfg] [(256, { tail := 2 })]))).sendsOut 0 0 = 2 ∧
    ((after (exec (.responseSendAck 0 0) (sSvc 2 1 0 1 1 [respCfg] [(256, { tail := 2 })]))).ring 256).head = 1 := by decide
/-! ### The sideband, images and trust -/

/-- The module in the recovery state with the host link up: what RECOVERY_HOST needs, and an image session of a length or none. -/
def sRecov (session : Bool) (len : Nat) (rs : List (Nat × Nat)) : State :=
  { withRegs (withHost State.reset) ([(aKeepState, 64), (aNvmStatus, b2n session), (aSecProvision, 2)] ++ rs) with trust.length := len }
def sRamp : State := withRegs State.reset [(aKeepState, 64), (aPwrDomain 0, 2 ^ 20)]

theorem witness_TheSidebandAnswersWithKeeperPower :
    State.reset.keep.pins.keep12v = false ∧ (sRecov false 0 []).keep.pins.keep12v = true ∧ (withHost State.reset).keep.pins.keep12v = true ∧
    (withHost State.reset).inRecovery = false ∧
    (let s : State := { sRamp with keep.pins := { sRamp.keep.pins with keep12v := true } }
     s.inRecovery = true ∧ s.domainOn 0 = true ∧ s.domainOn 7 = false ∧ s.domainOn 62 = false ∧ s.keep.thermal.ramping = [] ∧ s.keep.thermal.rampQueue = []) ∧
    ((0 : BitVec 8) = 0 ∧ 5 < (6 : BitVec 8).toNat) := by
  and_intros <;> decide

/-- The answers of the image verification: all steps pass. -/
def verifyAll : Verify := { flash := { answers := true, mib := 512, read8d := true, program8d := true, erase8d := true }, edOk := true, mlOk := true, fwOk := true }

theorem witness_ImageSessionsProgramVerifyAndBind :
    (∀ p ∈ [Path.host, Path.sideband], Reaches (sRecov false 0 []) p aNvmCtrl true ∧ Reaches (sRecov true 16 []) p aNvmCtrl true) ∧
    ((sRecov false 0 []).inRecovery = true ∧ (sRecov false 0 []).inSession = false ∧ (0x10000000 : BitVec 32).toNat ≤ 0x10000000) ∧
    (¬ (0x10000001 : BitVec 32).toNat ≤ 0x10000000) ∧
    (sRecov true 16 []).inSession = true ∧
    (∀ off ∈ [0, 8], Reaches (sRecov true 16 []) .host (0x7001000 + off) true ∧ 8 ∈ [8, 16, 32, 64, 128, 256] ∧ off % 8 = 0 ∧ off + 8 ≤ 0x1000 ∧
      (((sRecov true 16 []).reg64 aNvmWoff).toNat + off) + (List.replicate 8 (1 : Byte)).length ≤ (sRecov true 16 []).trust.length) ∧
    (∀ i, (sRecov true 16 []).writtenAt i = false) ∧
    (¬ ((sRecov true 16 []).reg64 aNvmWoff).toNat + 16 + 8 ≤ (sRecov true 16 []).trust.length) ∧
    ((List.replicate 1024 (1 : Byte)).length ≤ 1024 ∧ 1024 < (List.replicate 1025 (1 : Byte)).length) ∧
    (∀ p ∈ [Path.host, Path.firmware], Reaches (withRegs (withHost State.reset) [(aKeepState, 16 + 9)]) p aSecAttestCtrl true ∧
      Reaches (withRegs (withHost State.reset) [(aKeepState, 16 + 9)]) p aKeepCmd true) ∧
    Reaches (sRecov false 0 []) .host aKeepCmd true ∧
    ((withHost State.reset).inRecovery = false ∧ (withHost State.reset).keep.stop = none ∧ (withHost State.reset).keep.calOrder = 0) := by
  dsimp only [Reaches]; and_intros <;> first | decide | exact fun _ => rfl

/-- R348: a session opens in the recovery state only. -/
theorem test_nvm_begin :
    (after (exec (.nvmAbort .host) (sRecov true 16 []))).resp.status = 0 ∧
    (after (exec (.nvmBegin .host 16) (withHost State.reset))).resp.status = 1 ∧
    (after (exec (.imageData 8 [1, 2]) (sRecov true 16 []))).trust.flash = [(8, 1), (9, 2)] := by decide

/-- Values waiting in staging or committed, and CFG.STATUS.GEN. -/
def sStaged (gen : Nat) (staged committed : KV Word) : State :=
  { withRegs (withHost State.reset) [(aCfgStatus, gen)] with reg.staged := staged, reg.committed := committed }
def ctrl9 : Word := BitVec.ofNat 64 (pack [(0, 250), (16, 3600)])

theorem witness_CommitsAndTenantResets_commits :
    (∀ p ∈ [Path.host, Path.firmware], Reaches (sStaged 0 [(aSrvCtrl, ctrl9)] []) p aCfgCommit true) ∧
    (let s := sStaged 0 [(aSrvCtrl, ctrl9)] []
     (1 : BitVec 16).toNat = (s.rfld aCfgStatus 15 0 + 1) % 65536 ∧ s.commitFails = none ∧ kvRising s.reg.staged = true ∧
       s.stagedOf aSrvCtrl ≠ s.reg64 aSrvCtrl) ∧
    ((0 : BitVec 16).toNat = ((sStaged 65535 [] []).rfld aCfgStatus 15 0 + 1) % 65536 ∧ (0 : BitVec 16).toNat ≠ ((sStaged 0 [] []).rfld aCfgStatus 15 0 + 1) % 65536) ∧
    ((sStaged 0 [(aSrvCtrl, 0)] []).commitFails = some (aSrvCtrl, 2)) ∧
    (ringAt aPwrCap = none ∧ (∀ e ∈ (sStaged 0 [] []).reg.committed, objectOf e.1 ≠ objectOf aPwrCap)) ∧
    (ringAt aThmFlowCfg = none ∧ (∃ e ∈ (sStaged 0 [] [(aThmFlowCfg, 1)]).reg.committed, objectOf e.1 = objectOf aThmFlowCfg) ∧ aThmFlowCfg ≠ aRepCtrl ∧
      objectOf aThmFlowCfg ≠ aMemRegion 0 ∧ ¬ aSrvIface 0 ≤ aThmFlowCfg ∧ objectOf aThmFlowCfg = aPwrCap ∧
      fld ((sStaged 0 [] [(aThmFlowCfg, 1)]).committedOf aHkcCfg) 9 1 = (sStaged 0 [] [(aThmFlowCfg, 1)]).rfld aHkcCfg 9 1) ∧
    (let s := sStaged 0 [] [(aHkcCfg, 2)]
     fld (s.committedOf aHkcCfg) 9 1 ≠ s.rfld aHkcCfg 9 1) ∧
    (ringAt aSrvCtrl = none ∧ (∃ e ∈ (sStaged 0 [] [(aSrvCtrl, 5)]).reg.committed, objectOf e.1 = objectOf aSrvCtrl) ∧ aSrvCtrl ≠ aRepCtrl ∧
      objectOf aSrvCtrl ≠ aMemRegion 0 ∧ ¬ (aSrvIface 0 ≤ aSrvCtrl ∧ aSrvCtrl < aSrvIface 1024) ∧ objectOf aSrvCtrl ≠ aPwrCap) ∧
    (let s : State := { sStaged 0 [] [(aSrvIface 3, 5)] with load.insts := [(3, { state := 2 })] }
     ringAt (aSrvIface 3) = none ∧ (∃ e ∈ s.reg.committed, objectOf e.1 = objectOf (aSrvIface 3)) ∧ aSrvIface 0 ≤ aSrvIface 3 ∧
       aSrvIface 3 < aSrvIface 1024 ∧ aSrvIface 3 ≠ aRepCtrl ∧ objectOf (aSrvIface 3) ≠ aMemRegion 0 ∧
       (s.inst ((aSrvIface 3 - aSrvIface 0) / 0x20)).state ≠ 0) := by
  dsimp only [Reaches]; and_intros <;> decide

theorem witness_CommitsAndTenantResets_commits_kinds :
    (let s : State := { sStaged 0 [] [(aFabRdir 3, 5)] with fab := { entryRuns := [3] } }
     ringAt (aFabRdir 3) = none ∧ (aFabRdir 3 - aFabRdir 0) / 0x10 ∈ s.fab.entryRuns ∧ ∃ e ∈ s.reg.committed, objectOf e.1 = objectOf (aFabRdir 3)) ∧
    (isLthr (aNumLthr 0) = true ∧ ∃ e ∈ (sStaged 0 [] [(aNumLthr 0, 5)]).reg.committed, objectOf e.1 = objectOf (aNumLthr 0)) ∧
    (∀ n ∈ [2000, 3000], let s : State := { sStaged 0 [] [(aChoStallLimit, 3000)] with con := { doms := [(1, { state := 2, cho := 1, limit := n })] } }
     LimitNow s = 3000 ∧ ((∀ e ∈ s.con.doms, e.2.limit = LimitNow s) ↔ n = 3000)) ∧
    (∀ n ∈ [0, 1], let s : State := withRegs (sStaged 0 [] [(aRepCtrl, BitVec.ofNat 64 n)]) [(aRepCtrl, 1)]
     s.rbit aRepCtrl 0 = true ∧ (s.committedOf aRepCtrl).getLsbD 0 = (n == 1)) ∧
    (∃ e ∈ (sStaged 0 [] [(aMemRegion 0, 5)]).reg.committed, objectOf e.1 = aMemRegion 0) := by
  dsimp only; and_intros <;> decide

/-- Frozen masters of tag 5, and tile 0 of tag 5 in a domain that runs or none. -/
def sTenant (fr : List Frozen) (runs : Bool) : State :=
  let s := withHost (if runs then runIn State.reset 0 { tenant := 5 } else State.reset)
  { s with trust.frozen := fr }
def fr5 (cls : BitVec 3) (r : Bool) : Frozen := { cls := cls, id := 0, tag := 5, reset := r }

theorem witness_CommitsAndTenantResets_tenants :
    (∀ p ∈ [Path.host, Path.firmware], ∀ c ∈ [(0 : BitVec 3), 1, 3], ∀ b, Reaches (sTenant [fr5 c b] false) p aCfgFrzCmd true) ∧
    (let s := sTenant [{ fr5 2 false with id := 1 }] false
     Reaches s .host aCfgFrzCmd true ∧ (5 : BitVec 8) ≠ 0 ∧ (∀ e ∈ s.srv.seqs, e.2.tenant ≠ 5) ∧ s.liveWindows = [] ∧ s.trust.resets = [] ∧
       (∀ e ∈ s.con.doms, e.2.state ≠ 2 ∧ e.2.state ≠ 3) ∧ ∀ f ∈ s.trust.frozen, f.tag = 5 → 2 ≤ f.cls.toNat) ∧
    (∀ c ∈ [(0 : BitVec 3), 1], (sTenant [fr5 c false] false).trust.frozen = [fr5 c false] ∧ (fr5 c false).tag = 5 ∧ (fr5 c false).id.toNat < positions) ∧
    (let s := sTenant [] true
     s.con.doms = [(1, { state := 2, cho := 1, members := [0] })] ∧ s.liveWindows = [] ∧ s.trust.frozen = [] ∧ (∃ k ∈ [0], (s.tile k).tenant = 5)) ∧
    (∀ c ∈ [(1 : BitVec 3), 3], let s := sTenant [fr5 c true] false
     s.trust.resets = [] ∧ fr5 c true ∈ s.trust.frozen ∧ (fr5 c true).reset = true ∧ (∀ g ∈ s.trust.frozen, (g.cls = c ∧ g.id = 0) → g = fr5 c true)) ∧
    (∀ f ∈ (sTenant [fr5 1 false] false).trust.frozen, f.reset = false) := by
  dsimp only [Reaches]; and_intros <;> decide

/-- R355: a master that no reset has covered stays frozen. -/
theorem test_unfreeze :
    (after (exec (.unfreeze .host 1 0) (sTenant [fr5 1 true] false))).trust.frozen = [] ∧
    (after (exec (.unfreeze .host 1 0) (sTenant [fr5 1 false] false))).resp.status = 1 := by decide
/-! ### Registers and the ledger -/

/-- A READY module, or one before READY, with the host link up. -/
def sReg (ready : Bool) (rs : List (Nat × Nat)) : State := withRegs (withHost State.reset) ((aKeepState, 16 + 32 * b2n ready) :: (aCfgStatus, 2 ^ 17 * b2n ready) :: rs)
def rowAt (a : Nat) : RegRow := (rowOf a).getD { base := 0, stride := 0, count := 0 }

theorem witness_RegistersTakeTheirFields_types :
    -- an ST register, and one with LK fields before and after READY
    (∀ a ∈ [aThmFlowCfg, aFabTimeCfg, aThmPumpAuto], PlainReg a (rowAt a)) ∧
    (∀ p ∈ [Path.host, Path.sideband, Path.firmware], ∀ b, Reaches (sReg b []) p aThmFlowCfg true ∧ Reaches (sReg b []) p aThmFlowCfg false) ∧
    (∀ b, Reaches (sReg b []) .host aFabTimeCfg true) ∧
    ((rowAt aThmFlowCfg).st ≠ 0 ∧ (rowAt aFabTimeCfg).lk ≠ 0) ∧
    ((sReg true []).rbit aCfgStatus 17 = true ∧ ((1 : Word) ^^^ (sReg true []).reg64 aFabTimeCfg) &&& BitVec.ofNat 64 (rowAt aFabTimeCfg).lk ≠ 0 ∧
      (sReg false []).rbit aCfgStatus 17 = false) ∧
    [(1 : Byte)].length ≠ 8 ∧
    (rowOf 0x300FFF8 = none ∧ 0x300FFF8 < 0x10000000000 ∧ 0x300FFF8 % 8 = 0 ∧ windowOf 0x300FFF8 = none ∧ consumeOf 0x300FFF8 = none ∧
      inWriteWindow 0x300FFF8 = false ∧ inReadWindow 0x300FFF8 = false ∧ Reaches (sReg true []) .host 0x300FFF8 true ∧
      Reaches (sReg true []) .sideband 0x300FFF8 false ∧ Reaches (sReg true []) .host 0x300FFF8 false) ∧
    State.reset.keep.pins.keep12v = false ∧
    Reaches (sReg true []) .host aHkcData false := by
  dsimp only [PlainReg, Reaches]; and_intros <;> decide

/-- The host link is up and no domain of the wafer is on. -/
def sDark : State :=
  let s := withRegs State.reset [(aHostLinkState, 2), (aKeepState, 16)]
  { s with keep.pins := { s.keep.pins with keep12v := true, perstN := true } }

theorem witness_RegistersTakeTheirFields_types_dark :
    (∀ a ∈ [aSrvCtrl, aDbgTraceSel], PlainReg a (rowAt a) ∧ (∀ b, sDark.reach .host a b = .dark)) ∧
    (sReg true [(aPwrDomain 63, 0)]).reach .sideband aDbgTraceSel true = .dark ∧
    sDark.frozenAt 2 0 = false ∧ isTraceAddr aSrvCtrl = false ∧ isTraceAddr aDbgTraceSel = true := by
  dsimp only [PlainReg]; and_intros <;> decide

/-- R350, R11: an ST field is staged and read back, an LK field is refused after READY. -/
theorem test_register_write :
    (after (exec (.registerWrite .host aThmFlowCfg (natLe 8 5)) (sReg true []))).reg64 aThmFlowCfg = (sReg true []).reg64 aThmFlowCfg ∧
    (after (exec (.registerWrite .host aThmFlowCfg (natLe 8 5)) (sReg true []))).stagedOf aThmFlowCfg = 5 ∧
    (after (exec (.registerWrite .host aFabTimeCfg (natLe 8 1)) (sReg true []))).resp.status = 1 ∧
    (after (exec (.registerWrite .host aFabTimeCfg (natLe 8 1)) (sReg false []))).reg64 aFabTimeCfg = 1 := by decide

/-- Tiles 0 and 4 with their apertures over a segment, and host agent 0 with a tag. -/
def sAper (seg : BitVec 8) (tag : Nat) : State :=
  { sReg true [(aHostAgent, tag)] with wafer.tiles := [(0, { aper := seg }), (4, { aper := seg, clearing := if seg = 9 then [9] else [] })] }

theorem witness_RegistersTakeTheirFields_commands :
    (∀ p ∈ [Path.host, Path.firmware], Reaches (sReg true []) p (aNumLflag 5) true ∧ Reaches (sReg true []) p aDbgTraceCtrl true ∧
      Reaches (sReg true []) p aPwrCap true ∧ Reaches (sReg true []) p aLedgFlogAck true) ∧
    (∀ w, 4 < positions ∧ tileKind 4 ≠ 3 ∧ 0x3FF8 < 0x4000 ∧ Reaches (sAper 4 0) .host (0x10000000000 + 4 * 0x10000 + 0x4000 + 0x3FF8) w ∧
      Reaches (sAper 4 0) .firmware (0x10000000000 + 4 * 0x10000 + 0x4000) w) ∧
    (8 ∈ [8, 16, 32, 64] ∧ 0x3FF8 % 8 = 0 ∧ 0x3FF8 + 8 ≤ 0x4000 ∧ 7 ∉ [8, 16, 32, 64]) ∧
    (∀ t ∈ [0, 5], 4 < kindSegments (tileKind 4) ∧ ((sAper 4 t).tile 4).aper = 4 ∧ 4 ∉ ((sAper 4 t).tile 4).clearing ∧ (sAper 4 t).agentTag 0 = t ∧
      (t = 5 → (sAper 4 t).agentTag 0 ≠ (sAper 4 t).segTag 4 4) ∧ ((sAper 4 t).dom ((sAper 4 t).domOf 4)).loupe = false) ∧
    (kindSegments (tileKind 0) ≤ ((sAper 255 0).tile 0).aper.toNat ∧ (((sAper 9 0).tile 4).aper.toNat ∈ ((sAper 9 0).tile 4).clearing) ∧ ((sAper 3 0).tile 4).aper.toNat < 4) ∧
    (let v : Word := BitVec.ofNat 64 (pack [(0, 4000), (16, 750)])
     4000 ≤ fld v 15 0 ∧ fld v 15 0 ≤ 15500 ∧ 620 ≤ fld v 25 16 ∧ fld v 25 16 ≤ 750 ∧ ¬ 4000 ≤ fld (0 : Word) 15 0) ∧
    (((sReg true []).rfld aLedgFlogPtr 31 0 + 2 ^ 32 - (0 : Half).toNat) % 2 ^ 32 ≤ 1024 ∧
      ¬ ((sReg true []).rfld aLedgFlogPtr 31 0 + 2 ^ 32 - (1 : Half).toNat) % 2 ^ 32 ≤ 1024) := by
  dsimp only [Reaches]; and_intros <;> decide

/-- The loop command register with the wafer on or off, and the valve open. -/
def sLoop (on : Bool) : State :=
  let s := withRegs State.reset ([(aHostLinkState, 2), (aKeepState, 16), (aThmFlow, 2 ^ 20)] ++ (if on then [(aPwrDomain 1, 2 ^ 20)] else []))
  { s with keep.pins := { s.keep.pins with keep12v := true } }

theorem witness_TheValveCannotCloseOnAPoweredWafer :
    ((sLoop true).waferOn = true ∧ (sLoop true).rbit aThmFlow 20 = true ∧ (sLoop false).waferOn = false) ∧
    (∀ b, Reaches (sLoop b) .host aThmLoopCmd true) ∧ (0x800 : Word).toNat.testBit 11 = true ∧ (0x7FF : Word).toNat.testBit 11 = false := by
  dsimp only [Reaches]; decide

/-- R399: the command to close the valve is refused on a powered wafer, and taken without one. -/
theorem test_valve :
    (after (exec (.loopCmdWrite .host 0x800) (sLoop true))).rbit aThmFlow 20 = true ∧
    (after (exec (.loopCmdWrite .host 0x800) (sLoop true))).resp.status = 1 ∧
    (after (exec (.loopCmdWrite .host 0x800) (sLoop false))).rbit aThmFlow 20 = false := by decide

/-- A READY module with a calendar, a calibration at an order with fields pending, and the reference in range. -/
def sCal (order pend : Nat) (inRack root : Bool) : State :=
  { sReg true [(aLedgCalendar, 1000), (aCalStatus, pend * 2 ^ 15), (aFabModId, b2n root * 2 ^ 12)] with
    keep := { (sReg true []).keep with calOrder := order, thermal := { codes := [(124, 32768)] } }
    fab := { inRack := inRack } }

theorem witness_CalendarCalibrationAndLedger_calendar :
    (∀ p ∈ [Path.host, Path.firmware], Reaches (sCal 0 0 false false) p aLedgCalSet true ∧ Reaches (sCal 0 0 false false) p aCalCmd true) ∧
    ((sCal 0 0 false false).maySetCal = true ∧ (sCal 0 0 true false).maySetCal = false ∧ (sCal 0 0 true false).isReady = true ∧
      (sCal 0 0 true false).fab.inRack = true ∧ (sCal 0 0 true false).isRoot = false ∧ (sCal 0 0 true true).isRoot = true) ∧
    ((939 : Word).toNat + 60 < (sCal 0 0 false false).calendar ∧ ¬ (940 : Word).toNat + 60 < (sCal 0 0 false false).calendar) ∧
    (let s := sCal 0 0 false false
     s.isReady = true ∧ s.stopping = false ∧ s.keep.calOrder = 0 ∧ s.rbit aCalStatus 3 = false ∧ s.vrefOk = true ∧
       (calFields (1 : BitVec 49).toNat).all (fun f => s.calField f) = true ∧ (calFields (1 : BitVec 49).toNat).all (fun f => s.calFree f) = true ∧
       (calFields (BitVec.ofNat 49 (2 ^ 21)).toNat).all (fun f => s.calField f) = false) ∧
    (∀ o ∈ [2, 3, 4, 5], (sCal o 1 false false).keep.calOrder = o ∧ (sCal o 1 false false).load.jobs = [] ∧ (sCal o 1 false false).keep.calWait = []) ∧
    (let s := sCal 4 1 false false
     (s.rfld aCalStatus 63 15).testBit 0 = true ∧ fieldIsMem 0 = false ∧ s.rfld (aRepFieldState 0) 2 0 = 0 ∧ s.calFree 0 = true) ∧
    (∀ g, g < 49 → ¬ ((sCal 4 0 false false).rfld aCalStatus 63 15).testBit g = true) ∧
    (let s := sCal 5 3 false false
     (s.rfld aCalStatus 63 15).testBit (s.rfld aCalStatus 9 4) = true ∧ s.rfld aCalStatus 9 4 = 0 ∧ (s.rfld aCalStatus 63 15).testBit 1 = true ∧
       fieldIsMem 1 = false ∧ s.rfld (aRepFieldState 1) 2 0 = 0 ∧ s.calFree 1 = true) := by
  dsimp only [Reaches]; and_intros <;> decide

/-- A READY manager, its port 0 up or not, with joined modules and its last broadcast. -/
def sManager (up : Bool) (joined : List Nat) (last : KV Nat) : State :=
  let s := sReg true [(aFabModId, 2 ^ 10)]
  { s with fab := { joined := joined, ports := if up then [(0, { state := 2, lanes := 0xFF })] else [] }
           keep := { s.keep with lastAt := last }, clock := 59999999 }

theorem witness_CalendarCalibrationAndLedger_calendar_broadcast :
    (∀ l ∈ [([] : List Nat), [1]], let s := sManager true l []; s.isReady = true ∧ s.isManager = true ∧ s.due 6 60000000 = true ∧ s.fab.joined = l) ∧
    ((sManager false [1] []).portFor 1 = none ∧ (sManager true [1] []).portFor 1 = some 0 ∧
      ((sManager true [1] []).ctabOf (0 / 24)).length < 32768 ∧ kvRising (sManager true [1] []).fab.ctab = true) ∧
    (sManager true [1] [(6, 0)]).due 6 60000000 = false := by decide

theorem witness_CalendarCalibrationAndLedger_calendar_swap :
    let s := sCal 5 1 false false
    let x := s.arrayRec 0 2
    s.keep.calOrder = 5 ∧ s.load.jobs = [] ∧ s.keep.calWait = [] ∧ fieldOf 0 = s.rfld aCalStatus 9 4 ∧ tileKind 0 = 0 ∧ x.state ≠ 4 ∧
      x.colSwaps.length < 2 ∧ convServes x.colSwaps 7 = some 7 ∧ convServes [7] 64 = some 7 ∧ convServes [7] 7 = none := by decide

/-- A module whose keeper runs, at a clock, with a journal and the next sequence number. -/
def sLedg (clock : Nat) (l : Ledger) : State := { sReg true [] with clock := clock, keep := { (sReg true []).keep with ledger := l } }
def entry17 : Entry := { kind := 0x1C, time := 0, payload := 5 }

theorem witness_CalendarCalibrationAndLedger_ledger :
    ((sLedg 0 {}).keep.pins.keep12v = true ∧ 6 ≤ (sLedg 0 {}).rfld aKeepState 4 0 ∧ (sLedg 0 {}).keeperRuns = true ∧ State.reset.keeperRuns = false) ∧
    ((sLedg 600000000 { journal := [entry17] }).keep.ledger.flushAt + 600000000 ≤ (sLedg 600000000 { journal := [entry17] }).clock ∧
      (sLedg 599999999 {}).clock < (sLedg 599999999 {}).keep.ledger.flushAt + 600000000) ∧
    (∀ l ∈ [([] : List Entry), [entry17]], (sLedg 600000000 { journal := l }).keep.ledger.journal.length ≤ 252) ∧
    (∃ e ∈ (sLedg 0 { journal := [entry17] }).keep.ledger.journal, 0x10 ≤ e.kind ∧ e.kind ≤ 0x21) ∧
    ((sLedg 0 {}).keep.ledger.journal = [] ∧ (sLedg 0 {}).keep.ledger.repairs = []) ∧
    ((sLedg 86400000000 {}).keep.ledger.ckptAt + 86400000000 ≤ (sLedg 86400000000 {}).clock ∧ (sLedg 86400000000 {}).keep.ledger.nextSeq < 2 ^ 64) ∧
    ((sLedg 0 {}).clock < (sLedg 0 {}).keep.ledger.ckptAt + 86400000000 ∧ (sLedg 0 {}).keep.ledger.nextSeq < ((sLedg 0 {}).reg64 aLedgCkptSeq).toNat + 15360) ∧
    (((sLedg 0 { nextSeq := 15360 }).reg64 aLedgCkptSeq).toNat + 15360 ≤ (sLedg 0 { nextSeq := 15360 }).keep.ledger.nextSeq) ∧
    ((sLedg 0 {}).keeperRuns = true ∧ (sLedg 0 {}).due 4 1000000 = true) := by
  and_intros <;> decide
/-! ### Housekeeping, regulators and failing parts -/

/-- A module whose keeper runs, with registers and thermal state. -/
def sHot (rs : List (Nat × Nat)) (th : Thermal) : State :=
  let s := sReg true rs
  { s with keep := { s.keep with thermal := th } }

/-- Channel 4 where its factory ideality is 1.008, with codes of 43, 93, 99 and 112 °C. The ideality is a free value (R408). -/
theorem witness_ConversionsSetLevelsAndTrip_diode (h : Config.diodeEta 4 = 16515) :
    let s := sHot [] {}
    let lim (hi lo : Nat) : Int := s.rfld aThmJctLimits hi lo * 128
    s.keeperRuns = true ∧ s.keeperWaits = false ∧ s.chanOn 4 = true ∧ kvFind 4 s.keep.thermal.staleSince = none ∧ 3 ∉ s.keep.thermal.ramping ∧ s.chanBroken 4 = false ∧ fieldDomain (4 / 2) = 3 ∧
    (∀ code ∈ [(16000 : Int), 18500, 18800, 19500], -32768 ≤ code ∧ code ≤ 32767 ∧ 0 ≤ s.diodeTemp 4 code + 7680 ∧ s.diodeTemp 4 code ≤ 25600) ∧
    (s.diodeTemp 4 16000 < lim 7 0 ∧ lim 7 0 ≤ s.diodeTemp 4 18500 ∧ s.diodeTemp 4 18500 < lim 23 16 ∧ lim 23 16 ≤ s.diodeTemp 4 18800 ∧
      s.diodeTemp 4 18800 < lim 39 32 ∧ lim 39 32 ≤ s.diodeTemp 4 19500) ∧
    (s.domainOn 3 = true ∧ fieldIsMem (4 / 2) = false ∧ s.needers 3 = [] ∧ Quiet s) := by
  dsimp only [Quiet]
  simp only [State.diodeTemp, h]
  and_intros <;> decide

/-- Channels 112 to 119 enabled, THERM_CFG(4) of a 10 kΩ thermistor with β 3,950, HKC.CFG, and coolant warnings. -/
def sCool (cfg : Nat) (w : KV (Option Nat)) : State :=
  { sHot [(aThmChanEn, 0xFF), (aHkcThermCfg 4, 10000 + 3950 * 65536), (aHkcCfg, cfg)] { coolWarn := w } with clock := 20000000 }

theorem witness_ConversionsSetLevelsAndTrip_others :
    (131 ≤ (131 : BitVec 9).toNat ∧ State.reset.keeperRuns = false ∧ (sHot [] {}).chanOn 112 = false) ∧
    (let s := sCool 0 []
     s.keeperRuns = true ∧ s.chanBroken 112 = false ∧ s.chanBroken 119 = false ∧ Quiet s ∧ s.chanOn 112 = true ∧ s.chanOn 119 = true ∧
       s.keep.thermal.staleSince = []) ∧
    (∀ w ∈ [([] : KV (Option Nat)), [(116, none)]], ∀ code ∈ [5000, 60000], ((sCool 0 w).thermTemp (116 - 112) code).isSome = true ∧
      kvFind 116 (sCool 0 w).keep.thermal.coolWarn = kvFind 116 w) ∧
    (let warn : Int := (sCool 0 []).rfld aThmAuxLimits 7 0 * 128; let stop : Int := (sCool 0 []).rfld aThmAuxLimits 39 32 * 128
     ((sCool 0 []).thermTemp 4 5000).any (fun T => decide (stop < T)) = true ∧
       ((sCool 0 []).thermTemp 4 60000).any (fun T => decide (T ≤ stop) && decide (T ≤ warn)) = true) ∧
    (∀ i ∈ [125, 128, 130], (sCool (2 ^ 10 + 2 * i) []).chanOn i = true ∧ (sCool (2 ^ 10 + 2 * i) []).rbit aHkcCfg 10 = true ∧
      (i < 128 → (sCool (2 ^ 10 + 2 * i) []).rfld aHkcCfg 9 1 = i)) ∧
    (sCool 0 []).rbit aHkcCfg 10 = false ∧ (sCool 0 []).keeperWaits = false ∧
    (∀ i ∈ [125, 130], let s := { sCool (2 ^ 10 + 2 * i) [] with reg.committed := [(aHkcCfg, BitVec.ofNat 64 (2 ^ 10 + 2 * 126))] }
     s.keeperRuns = true ∧ s.chanOn i = true ∧ s.keeperWaits = true ∧ fld (s.committedOf aHkcCfg) 9 1 ≠ s.rfld aHkcCfg 9 1) ∧
    (kvFind 116 (sCool 0 [(116, some 10000000)]).keep.thermal.coolWarn = some (some 10000000) ∧ 10000000 + 10000000 ≤ (sCool 0 []).clock ∧
      (sCool 0 []).clock < 10000001 + 10000000) ∧
    (kvFind 116 (sCool 0 [(116, none)]).keep.thermal.coolWarn = some none) := by
  dsimp only [Quiet]
  and_intros <;> decide

/-- Domain 1 at a setpoint of 750 mV, diode 0 at a temperature in °C (the other diode of the field at 20), a throttle setpoint, and the cap's. -/
def sThr (temp : Nat) (mv : KV Nat) (thr : List Nat) (cap : Nat) : State :=
  sHot [(aThmSensor 0, temp * 128), (aThmSensor 1, 20 * 128), (aPwrPower, cap * 2 ^ 16)] { throttleMv := mv, throttled := thr }

theorem witness_RegulatorsFollowTheLowestSetpoint :
    (let s := sThr 97 [] [] 850
     (s.rfld aThmJctLimits 23 16 : Int) * 128 ≤ s.sensorTemp 0 ∧ s.domainOn 1 = true ∧ 620 < s.rfld (aPwrDomain 1) 9 0 ∧ domainField 1 = 0) ∧
    (∀ mv ∈ [620, 740], let s := sThr 80 [(1, mv)] [1] 850
     (∀ i ∈ [2 * domainField 1, 2 * domainField 1 + 1], s.sensorTemp i ≤ (s.rfld aThmJctLimits 31 24 : Int) * 128 ∧
       ¬ (s.rfld aThmJctLimits 23 16 : Int) * 128 ≤ s.sensorTemp i) ∧ 1 ∈ s.keep.thermal.throttled ∧
       (min (s.throttleOf 1) (s.rfld (aPwrDomain 1) 9 0) + 10 < s.rfld (aPwrDomain 1) 9 0 ↔ mv = 620)) ∧
    (¬ (sThr 93 [] [] 850).sensorTemp 0 ≤ ((sThr 93 [] [] 850).rfld aThmJctLimits 31 24 : Int) * 128 ∧
      ∀ i ∈ [0, 1], ¬ ((sThr 93 [] [] 850).rfld aThmJctLimits 23 16 : Int) * 128 ≤ (sThr 93 [] [] 850).sensorTemp i) ∧
    (sRamp.domainOn 1 = false) ∧
    (∀ c ∈ [620, 700], let s := sThr 20 [] [] c
     s.rfld aPwrCap 15 0 < (15501 : BitVec 16).toNat ∧ (s.rfld aPwrCap 25 16 < s.rfld aPwrPower 25 16 ↔ c = 700)) ∧
    (let s := sThr 20 [] [] 700
     (15035 : BitVec 16).toNat ≤ s.rfld aPwrCap 15 0 ∧ s.rfld aPwrCap 15 0 * 97 ≤ (15035 : BitVec 16).toNat * 100 ∧
       (15034 : BitVec 16).toNat * 100 < s.rfld aPwrCap 15 0 * 97 ∧ s.keep.thermal.capBelow = none) ∧
    (let s : State := { sHot [(aPwrPower, 700 * 2 ^ 16)] { capBelow := some 0 } with clock := 100000 }
     s.keep.thermal.capBelow = some 0 ∧ 0 + 100000 ≤ s.clock ∧ s.keep.thermal.capRise + 10000 ≤ s.clock ∧ s.rfld aPwrPower 25 16 < 850) ∧
    (let s : State := { sHot [] { capBelow := some 1 } with clock := 100000 }
     s.keep.thermal.capBelow = some 1 ∧ s.clock < 1 + 100000) ∧
    (State.reset.running = false ∧ State.reset.due 2 100000 = true) ∧
    (∀ d ∈ [1, 2, 3, 101], (sHot [] {}).due d 1000 = true ∧ ({ sHot [] {} with keep := { (sHot [] {}).keep with lastAt := [(d, 0)] } } : State).due d 1000 = false) ∧
    ((sHot [] {}).rfld aThmFlowCfg 15 0 = 0 ∨ (sHot [(aThmFlowCfg, 0)] {}).rfld aThmFlowCfg 15 0 = 0) ∧
    ((sHot [(aThmFlowCfg, 450)] {}).keeperRuns = true ∧ (sHot [(aThmFlowCfg, 450)] {}).rfld aThmFlowCfg 15 0 ≠ 0) ∧
    (∀ n ∈ [4, 5], (sHot [] { flowLowFor := n }).keep.thermal.flowLowFor = n ∧ (sHot [] { flowLowFor := n }).waferOn = true ∧
      Quiet (sHot [] { flowLowFor := n })) := by
  dsimp only [Quiet]; and_intros <;> decide

/-- A running module whose outlet thermistor (channel 114) reads a temperature, with the loop command, pump settings and status. -/
def sPump (temp cmd status : Nat) : State :=
  sHot [(aThmChanEn, 4), (aThmSensor 114, temp * 128), (aThmLoopCmd, cmd), (aThmStatus, status), (aThmPumpAuto, pack [(0, 300), (10, 40), (18, 60)])] {}

theorem witness_ThePumpFollowsTheHottestOutlet :
    (∀ t ∈ [40, 50, 60], ∀ st ∈ [0, 1, 8, 16], (sPump t 0 st).running = true ∧ (sPump t 0 st).due 2 100000 = true ∧
      (((sPump t 0 st).rbit aThmStatus 0 = true ∨ (sPump t 0 st).rbit aThmStatus 3 = true ∨ (sPump t 0 st).rbit aThmStatus 4 = true) ↔ st ≠ 0) ∧
      (sPump t 0 st).outletTemp = t * 128 ∧ (sPump t 0 st).rfld aThmPumpAuto 17 10 = 40 ∧ (sPump t 0 st).rfld aThmPumpAuto 25 18 = 60) ∧
    ((sPump 40 0 0).rbit aThmLoopCmd 0 = false ∧ (sPump 40 0 0).rfld aThmPumpAuto 9 0 ≤ 1000) ∧
    (let s := sPump 40 (1 + 2 * 1000) 0
     s.running = true ∧ s.rbit aThmLoopCmd 0 = true ∧ s.rfld aThmLoopCmd 10 1 ≤ 1000) := by
  and_intros <;> decide

/-- R398: the duty of manual mode, but at least PUMP_MIN on a powered wafer. -/
theorem test_pump_manual :
    (after (exec .pumpDemandUpdate (sPump 40 (1 + 2 * 500) 0))).rfld aThmFlow 19 10 = 500 ∧
    (after (exec .pumpDemandUpdate (sPump 40 1 0))).rfld aThmFlow 19 10 = 300 := by decide

/-- A READY module where fields have states, a domain has bad phases, and pair 0 of cluster 0 has mismatched before. -/
def sFail (rs : List (Nat × Nat)) (bad : Nat) (fields : Nat) (pair : KV Nat) (doms : KV Domain) : State :=
  let s := sHot (((List.range fields).map (fun f => (aRepFieldState f, 0))) ++ rs) { phasesBad := if bad = 0 then [] else [(3, bad)] }
  { s with clock := 1000000, keep := { s.keep with pairErr := pair }, con.doms := doms }

theorem witness_FailingPartsAreRetired :
    (sRamp.domainOn 1 = false) ∧
    (∀ d ∈ [57, 60, 62], (sFail [] 0 0 [] []).domainOn d = true ∧ d ∉ (sFail [] 0 0 [] []).keep.thermal.ramping ∧ (sFail [] 0 0 [] []).hostFetches = [] ∧ (sFail [] 0 0 [] []).con.doms = []) ∧
    (let s := sFail ((List.range 49).map (fun f => (aRepFieldState f, 0))) 0 0 [] []
     s.domainOn 3 = true ∧ s.needers 3 = [] ∧ 3 ∉ s.keep.thermal.ramping ∧ s.rfld (aRepFieldState (domainField 3)) 2 0 = 0 ∧ s.con.doms = [] ∧ (∀ g, g < 49 → s.rfld (aRepFieldState g) 2 0 ≠ 1)) ∧
    (let s := sFail [] 4 0 [] []
     s.domainOn 3 = true ∧ (kvGet 0 3 s.keep.thermal.phasesBad).testBit (2 : BitVec 4).toNat = true ∧
       (kvGet 0 3 s.keep.thermal.phasesBad).testBit (5 : BitVec 4).toNat = false ∧ s.rfld (aRepDomainHealth 3) 1 0 < 2) ∧
    (let s := sFail [(aRepDomainHealth 3, 2)] 4 0 [] [(1, { state := 2, cho := 1, members := [0] })]
     2 ≤ s.rfld (aRepDomainHealth 3) 1 0 ∧ (∃ e ∈ s.con.doms, e.2.state = 2 ∨ e.2.state = 3)) ∧
    (∀ e ∈ [([] : KV Nat), [(0, 0)]], let s := sFail [] 0 0 e []
     s.domainOn 50 = true ∧ s.rfld (aRepClusterState 0) 1 0 = 0 ∧ kvFind 0 s.keep.pairErr = kvFind 0 e ∧ s.clock ≤ 0 + 1000000 ∧
       s.rfld (aRepClusterState 0) 7 6 = 1 ∧ s.rfld (aRepClusterState 0) 3 2 ≠ 1 ∧ s.rfld (aRepClusterState 0) 5 4 ≠ 1) ∧
    (∀ st ∈ [0, 2], (sFail [(aMemStackState 0, st)] 0 0 [] []).domainOn 43 = true ∧
      ((sFail [(aMemStackState 0, st)] 0 0 [] []).stackOffline 0 = true ↔ st = 2)) ∧
    (let s := sFail ((List.range 49).map (fun f => (aRepFieldState f, if f = 2 then 1 else 0))) 0 0 [] []
     s.rfld (aRepFieldState 2) 2 0 = 1 ∧ s.fieldOn 2 = true ∧ s.needers (fieldDomain 2) = [] ∧ fieldDomain 2 ∉ s.keep.thermal.ramping ∧ s.con.doms = [] ∧
       (∀ g, g < 49 → s.rfld (aRepFieldState g) 2 0 = 1 → g = 2 ∨ s.fieldOn g = true)) ∧
    (State.reset.anyCluster = false ∧ (sHot [] {}).anyCluster = true) := by
  and_intros <;> decide

/-- R366: the second mismatch of a pair within 1 s brings in the spare pair 3. -/
theorem test_pair_swap :
    let t := after (exec (.pairLockstepMismatch 0 0) (sFail [] 0 0 [(0, 0)] []))
    t.rfld (aRepClusterState 0) 1 0 = 2 ∧ t.rfld (aRepClusterState 0) 7 6 = 0 := by decide
/-! ### Start, stop and recovery -/

/-- A module at an order of the start sequence, its domains off or on, with straps, an owner or none, and an image or none. -/
def sOrder (order : Nat) (on : Bool) (rs : List (Nat × Nat)) (owned : Bool) (flash : Memory) : State :=
  let s := withRegs (if on then withHost State.reset else State.reset) ((aKeepState, order) :: rs)
  { s with
    keep.pins := { keep12v := true, modResetN := true, pwrGood := true, holdupOk := true, perstN := false, slot := 0 }
    trust := { flash := flash, fuses := { owned := owned } } }

/-- An image header of one empty section. -/
def header0 : Memory := memWrite 0xFF 0 (natLe 4 0x49564346 ++ natLe 2 1 ++ natLe 2 0 ++ natLe 8 5472 ++ natLe 8 96 ++ natLe 2 0 ++ natLe 2 1 ++
  natLe 4 0 ++ natLe 32 0 ++ natLe 8 1 ++ natLe 8 96 ++ natLe 8 0 ++ natLe 8 0) []

def env0 : StartEnv :=
  { verify := verifyAll, changed := false, failFields := [], failSupply := [], failStacks := [], pairsFail := false, refsOk := true, joined := true }
def withPins (s : State) (f : Pins → Pins) : State := { s with keep.pins := f s.keep.pins }

theorem witness_StartAndOrderlyStop_start_keeper :
    (∀ b, (withPins (sOrder 0 false [] false []) (fun p => { p with modResetN := b })).keep.pins.modResetN = b) ∧
    ((sOrder 0 false [] false []).keep.pins.keep12v = true ∧ (sOrder 0 false [] false []).order = 0 ∧ (sOrder 5 false [] false []).order ≠ 0) ∧
    (State.reset.keep.pins.keep12v = false ∧ State.reset.keep.ledger.records = []) ∧
    (let e : Record := { type := 1, seq := 0, ckpt := 0, time := 77, body := [] }
     let s : State := { State.reset with keep.ledger := { records := [(0, e)] } }
     s.keep.pins.keep12v = false ∧ s.keep.ledger.records = [(0, e)]) := by
  and_intros <;> decide

theorem witness_StartAndOrderlyStop_start_unsound : (sOrder 5 false [] true header0).verifyCause { verifyAll with edOk := false } true ≠ 0 := by
  unfold State.verifyCause
  split <;> simp

theorem witness_StartAndOrderlyStop_start :
    ((sRecov false 0 []).inRecovery = true) ∧
    (∀ o ∈ [1, 2, 3, 10], (sOrder o false [] false []).order = o ∧ (sOrder o false [] false []).stopping = false ∧ (sOrder o false [] false []).inRecovery = false) ∧
    (∀ b, (sOrder 4 false [] b []).trust.fuses.owned = b) ∧
    ((sOrder 4 false [] true []).headerOk = false ∧ (sOrder 4 false [] true header0).headerOk = true) ∧
    (let s := withPins (sOrder 6 false [(aKeepStraps, 32)] true []) (fun p => { p with debug := true })
     s.order = 6 ∧ s.rbit aKeepStraps 5 = true ∧ s.keep.pins.debug = true) ∧
    (let s := withPins (sOrder 6 false [] true []) (fun p => { p with pwrGood := false })
     s.rbit aKeepStraps 5 = false ∧ s.mayPower = false) ∧
    (({ sOrder 6 false [] true [] with keep := { (sOrder 6 false [] true []).keep with thermal := { flowOkSince := some 0 } } } : State).mayPower = true) ∧
    (∀ l ∈ [([] : List Nat), [7]], let s : State := { sOrder 7 false [] true [] with keep.thermal := { ramping := l } }
     s.order = 7 ∧ s.keep.thermal.rampQueue = [] ∧ s.keep.thermal.ramping = l) ∧
    ((sOrder 8 false [] true []).order = 8 ∧ (sOrder 8 false [] true []).domainOn 43 = false ∧ (sOrder 8 true [] true []).order = 8 ∧
      (∀ i, i < 7 → (sOrder 8 true [] true []).domainOn (43 + i) = true ∧ (sOrder 8 true [] true []).rbit (aRepDomainHealth (43 + i)) 2 = false ∧ (sOrder 8 true [] true []).chanBroken (42 + 2 * i) = false ∧
        (sOrder 8 true [] true []).chanBroken (43 + 2 * i) = false)) ∧
    ((sOrder 8 true [(aRepDomainHealth 49, 4)] true []).rbit (aRepDomainHealth (43 + 6)) 2 = true) ∧
    ((sOrder 9 true [] true []).order = 9 ∧ Quiet (sOrder 9 true [] true [])) ∧
    (let s : State := { sOrder 11 true [] true [] with keep.thermal := { codes := [(125, 32768), (126, 31457)] } }
     s.order = 11 ∧ s.refCodeOk 125 32768 = true ∧ s.refCodeOk 126 31457 = true) ∧
    (let s := sOrder 12 true [] true header0
     s.order = 12 ∧ s.imgEntries = [] ∧ s.sectsOf 3 = [] ∧ s.sectsOf 4 = [] ∧ s.domainOn 62 = true) ∧
    (flashPresent verifyAll.flash = true ∧ flashPresent { verifyAll.flash with mib := 256 } = false) ∧
    (∀ b, let s := withPins (sOrder 13 true [(aHostLinkState, 1)] true []) (fun p => { p with perstN := b })
     s.order = 13 ∧ s.keep.pins.perstN = b ∧ s.domainOn 62 = true ∧ s.domainOn 57 = true ∧ s.rfld aHostLinkState 2 0 = 1) ∧
    (∀ k ∈ [0, 1], (sOrder 14 true [(aKeepStraps, k)] true []).order = 14 ∧ ((sOrder 14 true [(aKeepStraps, k)] true []).rbit aKeepStraps 0 = true ↔ k = 1)) ∧
    ((sOrder 15 true [] true []).order = 15 ∧ (sOrder 15 true [] true []).rfld aFabModId 3 0 = 0) ∧
    ((sOrder 16 true [] true []).order = 16 ∧ (sOrder 16 true [] true []).load.left = [] ∧ ({ sOrder 16 true [] true [] with load.left := [0] } : State).load.left ≠ []) ∧
    (∀ d ∈ [1, 43, 62], d ∈ ({ sOrder 7 false [] true [] with keep.thermal := { ramping := [d] } } : State).keep.thermal.ramping) ∧
    (1 ∉ (sOrder 7 false [] true []).keep.thermal.ramping) := by
  dsimp only [Quiet]; and_intros <;> decide

/-- R345: order 4 without an owner ends in the recovery state with cause 10, order 1 goes on. -/
theorem test_start :
    (after (exec (.startSequenceAdvance env0) (sOrder 4 false [] false []))).rfld aKeepState 11 8 = 10 ∧
    (after (exec (.startSequenceAdvance env0) (sOrder 1 false [] false []))).order = 2 := by decide

/-- An orderly stop at a stage, with domain 1 running or not. -/
def sStop (stage : Nat) (toReset : Bool) (recovery : Option (BitVec 4)) (runs : Bool) : State :=
  { sOrder 17 true [] true [] with
    keep := { (sOrder 17 true [] true []).keep with stop := some { cause := 4, deadline := 1000, since := 0, stage := stage, recovery := recovery, toReset := toReset } }
    con.doms := if runs then [(1, { state := 2, cho := 1, members := [0] })] else [] }

theorem witness_StartAndOrderlyStop_stops :
    (let s := sOrder 17 true [] true []
     s.waferOn = true ∧ s.keep.pins.keep12v = true ∧ s.order ≠ 0 ∧ Quiet s ∧ s.keep.pins.modResetN = true) ∧
    ((sOrder 0 false [] true []).waferOn = false ∧ (sOrder 0 false [] true []).order = 0 ∧ State.reset.keep.pins.modResetN = false ∧
      State.reset.keep.stop = none) ∧
    (∀ n ∈ [1, 2, 3, 4, 5, 6], ∀ b, (sStop n b none false).keep.stop = some { cause := 4, deadline := 1000, since := 0, stage := n, recovery := none, toReset := b } ∧
      (sStop n b none false).anyRuns = false ∧ (sStop n b none false).order ≠ 0 ∧ (sStop n b none false).keep.pins.keep12v = true ∧
      (sStop n b none false).keep.pins.modResetN = true ∧ (sStop n b none false).waferOn = true) ∧
    -- the bounds of the first and the last stage, from both sides; a later cause that ends sooner, and one that does not
    (∀ n ∈ [(1, 100), (5, 1000000)], 0 + ([100, 900000, 950000, 960000, 1000000] : List Nat).getD (n.1 - 1) 0 = n.2 ∧
      (sStop n.1 false none false).clock < n.2 ∧ n.2 ≤ ({ sStop n.1 false none false with clock := n.2 } : State).clock) ∧
    ((sStop 1 false none false).clock + 1000 * 20 < 0 + 1000 * 1000 ∧
      ¬ ({ sStop 1 false none false with clock := 980000 } : State).clock + 1000 * 20 < 0 + 1000 * 1000) ∧
    ((sStop 1 false none true).con.doms = [(1, { state := 2, cho := 1, members := [0] })] ∧ (sStop 2 false none true).anyRuns = true) ∧
    ((sStop 3 false none false).ledgerRuns = true ∧ (sStop 3 false none false).keep.ledger.journal = []) ∧
    (∃ x, (sStop 5 false (some 6) false).keep.stop = some x ∧ x.toReset = false ∧ x.recovery = some 6) := by
  dsimp only [Quiet]; and_intros <;> first | decide | exact ⟨_, rfl, by decide, by decide⟩

/-- R402: the stages of a stop follow one another; the last leaves the module stopped. -/
theorem test_stop :
    ((after (exec (.stopStageEnd true) (sStop 1 false none false))).keep.stop.map (fun x => x.stage)) = some 2 ∧
    ((after (exec (.stopStageEnd false) (sStop 1 false none false))).keep.stop.map (fun x => x.stage)) = some 1 ∧
    ((after (exec (.stopStageEnd true) (sStop 4 false none false))).rfld aThmFlow 19 10) = 1000 := by decide

/-! ### Beat mode -/

/-- Tiles 0 and 4 in the beat domain 1, at a horizon; what tile 0 has reported; reports of tile 0 on their way; frame ends. -/
def sBeat (horizon : Nat) (mark : Bool) (reported : KV Nat) (reports : KV (List (Bool × Bool))) (ends : KV (List Nat)) (members : List Nat) : State :=
  { State.reset with
    wafer.tiles := [(0, { cho := some 1, dom := some 1, wait := .barrier }), (4, { cho := some 1, dom := some 1 })]
    con := { chos := [(1, { cho7 with image := { cho7.image with beat := true }, started := true })]
             doms := [(1, { state := 2, cho := 1, members := members, mark := mark })] }
    beat := { cho := some 1, horizon := horizon, reported := reported, reports := reports, ends := ends, hold := [(0, false)] } }

theorem witness_BeatsAdvanceCommitAndReplay :
    (let s := sBeat 63 false [] [] [] [0, 4]
     s.beatDomain = some 1 ∧ (s.dom 1).state = 2 ∧ s.domInst 1 = none ∧ (s.dom 1).mark = false ∧
       (∀ t ∈ (s.dom 1).members, s.beat.horizon + 1 ≤ kvGet 0 t s.beat.reported + 64) ∧
       (0 ∈ (s.dom 1).members ∧ kvFind 0 s.beat.hold = some false ∧ kvGet 0 0 s.beat.done ≤ s.beat.horizon)) ∧
    (let s := sBeat 64 false [(0, 1)] [] [] [0, 4]
     s.beatDomain = some 1 ∧ ∃ t ∈ (s.dom 1).members, kvGet 0 t s.beat.reported + 64 < s.beat.horizon + 1) ∧
    (let s := sBeat 64 true [] [] [] [0, 4]
     (s.dom 1).mark = true ∧ s.beat.markedAt ≠ s.beat.committed + 1 ∧ (∀ t ∈ (s.dom 1).members, (s.tile t).exhausted = false) ∧
       (s.dom 1).repairTiles = [] ∧ (s.dom 1).repairArrays = []) ∧
    (let s := sBeat 64 true [] [(0, [(false, false)])] [] [0, 4]
     kvGet [] (0 : TileIx).toNat s.beat.reports = (false, false) :: [] ∧ (s.dom 1).mark = true ∧ s.beat.markedAt ≠ s.beat.committed + 1 ∧
       (∀ v ∈ (s.dom 1).members, (s.tile v).exhausted = false) ∧ (s.dom 1).repairTiles = [] ∧ (s.dom 1).repairArrays = [] ∧
       ∀ v ∈ (s.dom 1).members, v ≠ 0 → kvGet 0 0 s.beat.reported + 1 ≤ kvGet 0 v s.beat.reported → (v ∈ kvGet [] 1 s.beat.ends ↔ false = true)) ∧
    (State.reset.beatDomain = none) ∧
    (let s := sBeat 64 false [] [(0, [(false, false)])] [] [0, 4]
     kvGet [] (0 : TileIx).toNat s.beat.reports = (false, false) :: [] ∧ kvGet [] (kvGet 0 0 s.beat.reported + 1) s.beat.ends = [] ∧
       (∃ v ∈ (s.dom 1).members, v ≠ 0 ∧ kvGet 0 v s.beat.reported < s.beat.committed + 1) ∧ kvGet [] (4 : TileIx).toNat s.beat.reports = []) ∧
    (let s := sBeat 64 false [] [(0, [(false, false)])] [] [0]
     (s.dom 1).members = [(0 : TileIx).toNat] ∧ kvGet 0 0 s.beat.reported + 1 = s.beat.committed + 1 ∧ s.beatDomain = some 1) ∧
    (let s := sBeat 64 false [(4, 1)] [(0, [(false, true)])] [] [0, 4]
     4 ∈ (s.dom 1).members ∧ kvGet 0 0 s.beat.reported + 1 ≤ kvGet 0 4 s.beat.reported ∧ (4 ∈ kvGet [] 1 s.beat.ends ↔ true = false)) := by
  and_intros <;> decide

/-! ### Words, steps and reset -/

theorem witness_WordsOfTheSpecDecode : wScl.tile.toNat < positions ∧ (0x3F00_0000_0000_0000 : Nat) / 2 ^ 56 % 256 ∉
    [0x00, 0x01, 0x02, 0x08, 0x0C, 0x10, 0x20, 0x21, 0x28, 0x30, 0x38, 0x3C, 0x40] := by decide

/-- A well-formed instruction of every unit, with its word. -/
theorem witness_TileWordsDecodeToTheirInstruction :
    ∀ i ∈ [Instr.bar wCim true 1, .loopPset wCim 15 0x3FFFFF (-1), .queueTake wVec 2 3 0x3FFF],
      wellFormed i = true ∧ (encodeTile i).isSome = true := by decide

theorem witness_EveryStepKeepsTheMemoriesCanonical :
    MemoriesCanonical State.reset ∧ MemoriesCanonical (sRing 1 1 2 {}) ∧
    (∃ t, step { sRing 1 1 2 {} with pending := [.ringAppendWrite .host 0x22807038 [1, 2, 3, 4, 5, 6, 7, 8]] } = .next t ∧
      (t.ring 0).tail = 1) := by
  dsimp only [MemoriesCanonical]
  and_intros <;> first | decide | exact ⟨_, rfl, by decide⟩
/-! ### Ill-formed commands, each refused by its check -/

/-- Well-formed fields, which each test below breaks in one place. -/
def prod0 : ProdOps := { lslot := 1, arr := 3, nch := 12, gsel := 4, gain := 0, autoSplit := false, ofmt := 0, inP := 0, outP := 0 }
def fetch0 : FetchOps := { arr := 3, listP := 0, ca := 64, nblk := 12, queue := BitVec.ofNat 16 (48 * 1024) }
def enc0 : EncOps := { srcP := 0, outP := 0, listP := 0, sfmt := false, nblk := 0, ca := 64, ta := 0x4FC0, lslot := 0 }
def wadd0 : WaddOps := { yP := 0, wP := 0, inP := 0, actP := 0, cw := 1024, ca := 64, nch := 0, lslot := 0 }
def aadd0 : AaddOps := { yP := 0, actP := 0, wP := 0, ca := 64, nblk := 0, queue := 0, lslot := 0 }
def vec0 : VecOps := { fmt := 0, dst := 0, srcA := 0, srcB := 0, srcC := 0, lslot := 0, dfmt := 0, elems := 127 }
def dot0 : DotOps := { ofmt := 0, wfmt := 3, clr := true, srcA := 0, srcB := 0, dst := 0, lslot := 0, kc := 0 }
def sample0 : SampleOps := { logP := 0, maskP := 0, parP := 0, resP := 0, lfmt := true, mmode := 2, v := 0, lslot := 0 }

theorem test_wellFormed :
    ∀ i ∈ [Instr.nop wCim, .loopBegin wCim 0 8190 0, .flagWait wCim (BitVec.ofNat 18 (48 * 4096)) 1, .flagSignal wCim 0 255, .movePut wCim 0 0 0,
      .mvm wCim prod0, .sideFetch wCim fetch0, .sideEnc wVec enc0, .sideWadd wVec wadd0, .sideAadd wVec aadd0, .vecAdd wVec vec0,
      .vecCvt wVec { vec0 with dfmt := 1 }, .vecEnc wVec { vec0 with dfmt := 3 }, .vecDec wVec { vec0 with fmt := 3 }, .dot wVec dot0, .sample wVec sample0],
      wellFormed i = true := by decide

theorem test_illFormed_tile :
    ∀ i ∈ [Instr.nop { tile := 12544, fault := false }, .loopBegin wCim 0 0 0, .loopBegin wCim 0 8191 0,
      .flagWait wCim (BitVec.ofNat 18 (49 * 4096)) 1, .flagWait wCim 0 0, .flagSignal wCim 0 0, .flagSignal wCim 0 256,
      .movePut wCim 0 0 (BitVec.ofNat 16 (49 * 1024)), .queueTake wCim 0 0 (BitVec.ofNat 16 (49 * 1024))], wellFormed i = false := by decide

theorem test_illFormed_engines :
    ∀ i ∈ [Instr.mvm wCim { prod0 with arr := 4 }, .tmvm wCim { prod0 with gsel := 5 }, .sideFetch wCim { fetch0 with nblk := 13 },
      .sideFetch wCim { fetch0 with ca := 65 }, .sideFetch wCim { fetch0 with queue := BitVec.ofNat 16 (49 * 1024) }, .sideEnc wVec { enc0 with ca := 65 },
      .sideEnc wVec { enc0 with ta := 0x3BFF }, .sideEnc wVec { enc0 with ta := 0x4FC1 }, .sideWadd wVec { wadd0 with cw := 1025 },
      .sideWadd wVec { wadd0 with ca := 65 }, .sideAadd wVec { aadd0 with ca := 65 }, .sideAadd wVec { aadd0 with queue := BitVec.ofNat 16 (49 * 1024) }],
      wellFormed i = false := by decide

theorem test_illFormed_vector :
    ∀ i ∈ [Instr.vecAdd wVec { vec0 with elems := 128 }, .vecAdd wVec { vec0 with dfmt := 1 }, .vecAdd wVec { vec0 with fmt := 3, dfmt := 3 },
      .vecCopy wVec { vec0 with fmt := 3, dfmt := 3, elems := 30 }, .vecCopy wVec { vec0 with fmt := 5, dfmt := 5, elems := 0 },
      .vecExp2 wVec { vec0 with fmt := 1, dfmt := 1 }, .vecCvt wVec { vec0 with dfmt := 3 }, .vecEnc wVec { vec0 with dfmt := 0 },
      .vecDec wVec vec0, .dot wVec { dot0 with ofmt := 3 }, .dot wVec { dot0 with ofmt := 1 }, .sample wVec { sample0 with mmode := 3 }],
      wellFormed i = false := by decide

theorem test_illFormed_numbers :
    ∀ i ∈ [Instr.arrayProgramDone 0 17 true, .routerOutputTurn 0 5, .laneSwap 12544 0, .stackReadReturn 28 .clean, .admission 7,
      .laneRestripe 96, .wavelengthFault 0 9, .pairLockstepMismatch 7 0, .fieldSelfTestDone 49 true, .beatReport 12544, .calPartDone [(0, 17, { kind := .column, number := 0 })]],
      wellFormed i = false := by decide

/-! ### Words of the spec -/

/-- R185, R187 to R190: the fields stand where the tables put them. -/
theorem test_decode_control :
    decodeTile wCim (pack [(56, 0x01), (55, 1), (42, 8191)]) = some (.bar wCim true 8191) ∧
    decodeTile wCim (pack [(56, 0x02), (52, 0), (32, 65535), (19, 7), (3, 0x8001)]) = some (.loopBegin wCim 65535 7 0x8001) ∧
    decodeTile wCim (pack [(56, 0x02), (52, 1), (48, 15), (26, 0x20000), (4, 0x3FFFFF)]) = some (.loopPset wCim 15 0x20000 0x3FFFFF) ∧
    decodeTile wCim (pack [(56, 0x02), (52, 2), (48, 9), (26, 5)]) = some (.loopPadd wCim 9 5) ∧
    decodeTile wCim (pack [(56, 0x08), (52, 0), (34, 4097), (18, 65535)]) = some (.flagWait wCim 4097 65535) ∧
    decodeTile wCim (pack [(56, 0x08), (52, 1), (34, 4097), (18, 255)]) = some (.flagSignal wCim 4097 255) ∧
    decodeTile wCim (pack [(56, 0x0C), (52, 1), (48, 2), (36, 4095), (20, 0x2005)]) = some (.queuePeek wCim 2 4095 0x2005) ∧
    decodeTile wCim (pack [(56, 0x0C), (52, 2), (36, 4), (20, 0x2005)]) = some (.queueRelease wCim 4 0x2005) ∧
    decodeTile wCim (pack [(56, 0x10), (52, 0), (48, 6), (22, 9)]) = some (.moveSend wCim 6 9) ∧
    decodeTile wCim (pack [(56, 0x10), (52, 5), (48, 6), (44, 7), (22, 9)]) = some (.moveSwr wCim 6 7 9) ∧
    decodeTile wCim (pack [(56, 0x10), (52, 8), (44, 7)]) = some (.moveRflag wCim 7) := by decide

/-- R192, R193, R195 to R198. -/
theorem test_decode_engines :
    decodeTile wCim (pack [(56, 0x21), (44, 17), (40, 3), (36, 12), (33, 4), (30, 5), (29, 1), (27, 2), (23, 6), (19, 7)]) =
      some (.tmvm wCim { lslot := 17, arr := 3, nch := 12, gsel := 4, gain := 5, autoSplit := true, ofmt := 2, inP := 6, outP := 7 }) ∧
    decodeTile wCim (pack [(56, 0x28), (52, 0), (48, 3), (44, 4), (37, 64), (33, 2), (17, 0x2005)]) =
      some (.sideFetch wCim { arr := 3, listP := 4, ca := 64, nblk := 2, queue := 0x2005 }) ∧
    decodeTile wVec (pack [(56, 0x28), (52, 1), (48, 3), (44, 4), (40, 5), (39, 1), (35, 2), (28, 9), (12, 0x4000), (0, 17)]) =
      some (.sideEnc wVec { srcP := 3, outP := 4, listP := 5, sfmt := true, nblk := 2, ca := 9, ta := 0x4000, lslot := 17 }) ∧
    decodeTile wVec (pack [(56, 0x28), (52, 2), (48, 3), (44, 4), (40, 5), (36, 6), (25, 1024), (18, 9), (14, 2), (0, 17)]) =
      some (.sideWadd wVec { yP := 3, wP := 4, inP := 5, actP := 6, cw := 1024, ca := 9, nch := 2, lslot := 17 }) ∧
    decodeTile wVec (pack [(56, 0x28), (52, 3), (48, 3), (44, 4), (40, 5), (33, 9), (29, 2), (13, 0x2005), (0, 17)]) =
      some (.sideAadd wVec { yP := 3, actP := 4, wP := 5, ca := 9, nblk := 2, queue := 0x2005, lslot := 17 }) ∧
    decodeTile wVec (pack [(56, 0x30), (50, 0x04), (47, 1), (43, 3), (39, 4), (35, 5), (31, 6), (19, 17), (16, 1), (6, 255)]) =
      some (.vecFma wVec { fmt := 1, dst := 3, srcA := 4, srcB := 5, srcC := 6, lslot := 17, dfmt := 1, elems := 255 }) ∧
    decodeTile wVec (pack [(56, 0x38), (54, 0), (52, 3), (51, 1), (47, 3), (43, 4), (39, 5), (27, 17), (16, 2047)]) =
      some (.dot wVec { ofmt := 0, wfmt := 3, clr := true, srcA := 3, srcB := 4, dst := 5, lslot := 17, kc := 2047 }) ∧
    decodeTile wVec (pack [(56, 0x3C), (52, 3), (48, 4), (44, 5), (40, 6), (39, 1), (37, 2), (17, 262143), (5, 17)]) =
      some (.sample wVec { logP := 3, maskP := 4, parP := 5, resP := 6, lfmt := true, mmode := 2, v := 262143, lslot := 17 }) ∧
    decodeTile wScl (pack [(56, 0x40), (50, 0x01), (45, 31), (40, 2), (35, 3)]) = some (.sclSub wScl 31 2 3) ∧
    decodeTile wScl (pack [(56, 0x40), (50, 0x10), (45, 31), (40, 2), (0, 0xFFFFFFFF)]) = some (.sclAddi wScl 31 2 0xFFFFFFFF) ∧
    decodeTile wScl (pack [(56, 0x40), (50, 0x1D), (40, 2), (35, 3), (0, 8)]) = some (.sclSw wScl 2 3 8) ∧
    decodeTile wScl (pack [(56, 0x40), (50, 0x29), (45, 31), (40, 2)]) = some (.sclFromp wScl 31 2) := by decide

/-- R180: a word with a nonzero reserved bit, or an undefined SUB or FUNC, stands for nothing. -/
theorem test_decode_refuses :
    decodeTile wCim (pack [(56, 0x01), (55, 1), (42, 1), (41, 1)]) = none ∧ decodeTile wCim (pack [(56, 0x02), (52, 3)]) = none ∧
    decodeTile wCim (pack [(56, 0x08), (52, 2), (18, 1)]) = none ∧ decodeTile wVec (pack [(56, 0x30), (50, 0x09), (6, 31)]) = none ∧
    decodeTile wScl (pack [(56, 0x40), (50, 0x0E)]) = none ∧ decodeTile wCim (pack [(56, 0x10), (52, 1)]) = none := by decide
end Sys2Proof.Tests
end

section
/-! SUPPORT. The frame of a tile instruction that meets no violation (R114, R115, R137, R175, R181): its access checks are clear,
its reads find good parity, what it writes is stored, and it retires. -/

namespace Sys2Proof.Machine

variable {s : State} {k : Nat}

/-! ### Memories and lists -/

/-- Bytes read out of a range that was written as a whole. -/
theorem memRead_memWrite_slice (d : Byte) (a i n : Nat) (bs : List Byte) (m : Memory) (h : i + n ≤ bs.length) :
    memRead d (a + i) n (memWrite d a bs m) = (bs.drop i).take n := by
  induction n generalizing i with
  | zero => rfl
  | succ n ih =>
    have hi : i < bs.length := by omega
    rw [memRead, memGet_memWrite_inside d a bs m i hi, Nat.add_assoc, ih (i + 1) (by omega), List.drop_eq_getElem_cons hi,
      List.take_succ_cons]

theorem getD_memRead (d : Byte) (m : Memory) {n i : Nat} (h : i < n) (a : Nat) :
    (memRead d a n m).getD i 0 = memGet d (a + i) m := by
  induction n generalizing a i with
  | zero => omega
  | succ n ih =>
    cases i with
    | zero => rfl
    | succ i =>
      rw [memRead, List.getD_cons_succ, ih (by omega)]
      congr 1
      omega

theorem drop_take_flatten_replicate {α : Type} (l : List α) {n c : Nat} (h : c < n) :
    (((List.replicate n l).flatten.drop (l.length * c)).take l.length) = l := by
  induction c generalizing n with
  | zero =>
    obtain ⟨n, rfl⟩ := Nat.exists_eq_succ_of_ne_zero (by omega : n ≠ 0)
    simp [List.replicate_succ]
  | succ c ih =>
    obtain ⟨n, rfl⟩ := Nat.exists_eq_succ_of_ne_zero (by omega : n ≠ 0)
    rw [List.replicate_succ, List.flatten_cons, Nat.mul_succ, Nat.add_comm, List.drop_length_add_append, ih (by omega)]

theorem chunks_succ_of_ne_nil {α : Type} (n fuel : Nat) {l : List α} (h : l ≠ []) :
    chunks n (fuel + 1) l = l.take n :: chunks n fuel (l.drop n) := by
  cases l with
  | nil => exact absurd rfl h
  | cons x r => rfl

theorem chunks_replicate {α : Type} (x : α) {n : Nat} (hn : 0 < n) {m fuel : Nat} (h : m < fuel) :
    chunks n fuel (List.replicate (n * m) x) = List.replicate m (List.replicate n x) := by
  induction fuel generalizing m with
  | zero => omega
  | succ fuel ih =>
    cases m with
    | zero => rfl
    | succ m =>
      have hne : List.replicate (n * (m + 1)) x ≠ [] := by
        rw [ne_eq, List.replicate_eq_nil_iff]
        exact Nat.ne_of_gt (Nat.mul_pos hn m.succ_pos)
      rw [chunks_succ_of_ne_nil n fuel hne, Nat.mul_succ, Nat.add_comm, ← List.replicate_append_replicate, List.take_left' List.length_replicate,
        List.drop_left' List.length_replicate, ih (by omega), List.replicate_succ]

/-! ### Checks of accesses -/

theorem tagClash_eq_none {tenant last : Nat} (fuel seg : Nat) (h : ∀ g, seg ≤ g → g ≤ last → s.segTag k g = tenant) :
    s.tagClash k tenant seg last fuel = none := by
  induction fuel generalizing seg with
  | zero => rfl
  | succ fuel ih =>
    rw [State.tagClash]
    split
    · rfl
    · rename_i hlast
      rw [h seg (Nat.le_refl seg) (by omega), bne_self_eq_false, if_neg Bool.false_ne_true]
      exact ih (seg + 1) (fun g hg => h g (by omega))

theorem allocFind_of_not_loupe (h : (s.dom (s.domOf k)).loupe = false) (a : Access) : s.allocFind k a = .clear := by
  simp [State.allocFind, h]

theorem loupeFind_of_not_loupe (h : (s.dom (s.domOf k)).loupe = false) (before : List Nat) (a : Access) :
    s.loupeFind k before a = .clear := by
  simp [State.loupeFind, h]

theorem loupeTouch_of_not_loupe (h : (s.dom (s.domOf k)).loupe = false) (a : Access) : s.loupeTouch k a = s := by
  simp [State.loupeTouch, h]

theorem recipeGuard_of_not_loupe (h : (s.dom (s.domOf k)).loupe = false) (bad : Bool) (t : State) :
    s.recipeGuard k bad t = t := by
  simp [State.recipeGuard, h]

theorem loupe_of_allowed {a n : Nat} (h : Allowed s k a n) : (s.dom (s.domOf k)).loupe = false := by
  obtain ⟨_, _, _, hloupe⟩ := h
  exact hloupe

/-- An allowed access meets no check. -/
theorem findAcc_of_allowed {a : Access} (h : Allowed s k a.addr a.len) (before : List Nat) : s.findAcc k before a = .clear := by
  obtain ⟨hlo, hhi, htag, hloupe⟩ := h
  have hclash : (if (s.tile k).tenant.toNat = 0 then none
      else s.tagClash k (s.tile k).tenant.toNat (a.addr / 16384) ((a.addr + a.len - 1) / 16384) 257) = none := by
    split
    · rfl
    · rename_i htenant
      rcases htag with h0 | hsegs
      · simp [h0] at htenant
      · exact tagClash_eq_none 257 _ hsegs
  unfold State.findAcc
  split
  · rfl
  · have hhigh : decide (a.addr < 0x10000) = false := decide_eq_false (by omega)
    rw [hhigh, Bool.and_false, if_neg Bool.false_ne_true, if_neg (by omega)]
    simp only [hclash, allocFind_of_not_loupe hloupe, loupeFind_of_not_loupe hloupe]

/-- A read of good bytes and a write, both allowed, take place without any effect of their own. -/
theorem guarded_read_write {a n b m : Nat} (hr : Readable s k a n) (hw : Allowed s k b m) (f : State → State) :
    s.guarded k [rdAcc a n, wrAcc b m] f = f s := by
  obtain ⟨ha, hgood⟩ := hr
  have hloupe := loupe_of_allowed hw
  have hread : ∀ before, s.findAcc k before (rdAcc a n) = .clear := findAcc_of_allowed ha
  have hwrite : ∀ before, s.findAcc k before (wrAcc b m) = .clear := findAcc_of_allowed hw
  have htouch : s.touch k [rdAcc a n, wrAcc b m] = s := by
    simp [State.touch, rdAcc, wrAcc, hgood, State.parityError, loupeTouch_of_not_loupe hloupe]
  simp only [State.guarded, State.findAll, hread, hwrite, htouch]

/-! ### Instructions that run -/

theorem onTile_of_ready {w : At} {kinds : List Nat} (h : Ready s w kinds) (f : State → State) : s.onTile w kinds f = f s := by
  obtain ⟨hruns, hkind, hfault⟩ := h
  simp [State.onTile, hruns, hkind, hfault]

/-- A running tile is a member of a replay domain. -/
theorem dom_ne_none_of_runs (h : s.runs k = true) : (s.tile k).dom ≠ none := by
  simp only [State.runs, Bool.and_eq_true] at h
  obtain ⟨⟨⟨hmember, _⟩, _⟩, _⟩ := h
  exact Option.isSome_iff_ne_none.mp hmember

/-! ### What the small updates leave -/

section
variable (s : State) (k : Nat)

@[simp] theorem scrWrite_con (a : Nat) (bs : List Byte) : (s.scrWrite k a bs).con = s.con := rfl
@[simp] theorem scrWrite_reg (a : Nat) (bs : List Byte) : (s.scrWrite k a bs).reg = s.reg := rfl
@[simp] theorem scrWrite_watch (a : Nat) (bs : List Byte) : (s.scrWrite k a bs).watch = s.watch := rfl
@[simp] theorem tile_scrWrite (a : Nat) (bs : List Byte) (j : Nat) : (s.scrWrite k a bs).tile j = s.tile j := rfl

@[simp] theorem modSeq_con (f : Seq → Seq) : (s.modSeq k f).con = s.con := rfl
@[simp] theorem modSeq_reg (f : Seq → Seq) : (s.modSeq k f).reg = s.reg := rfl
@[simp] theorem modSeq_watch (f : Seq → Seq) : (s.modSeq k f).watch = s.watch := rfl
@[simp] theorem modSeq_wafer_scratch (f : Seq → Seq) : (s.modSeq k f).wafer.scratch = s.wafer.scratch := rfl
@[simp] theorem modSeq_wafer_scratchBad (f : Seq → Seq) : (s.modSeq k f).wafer.scratchBad = s.wafer.scratchBad := rfl
@[simp] theorem tile_modSeq_same (f : Seq → Seq) : (s.modSeq k f).tile k = { s.tile k with seq := f (s.tile k).seq } :=
  tile_setTile_same ..
theorem tile_modSeq_other {j : Nat} (hj : j ≠ k) (f : Seq → Seq) : (s.modSeq k f).tile j = s.tile j :=
  tile_setTile_other _ hj _

@[simp] theorem progress_con (d : Nat) : (s.progress d).con = s.con := rfl
@[simp] theorem progress_reg (d : Nat) : (s.progress d).reg = s.reg := rfl
@[simp] theorem progress_wafer (d : Nat) : (s.progress d).wafer = s.wafer := rfl
@[simp] theorem progress_watch (d : Nat) : (s.progress d).watch = kvDel d s.watch := rfl
@[simp] theorem tile_progress (d j : Nat) : (s.progress d).tile j = s.tile j := rfl

@[simp] theorem numEvent_zero (slot : BitVec 12) (kind : Nat) : s.numEvent k slot kind 0 = s := rfl

theorem numEvent_of_ne_zero (slot : BitVec 12) (kind : Nat) {n : Nat} (h : n ≠ 0) :
    s.numEvent k slot kind n = s.setDom (s.domOf k) { s.dom (s.domOf k) with
      events := (s.dom (s.domOf k)).events ++ [{ slot := slot, kind := kind, amount := n, beat := s.beatOf k }] } :=
  if_neg h

@[simp] theorem numEvent_reg (slot : BitVec 12) (kind n : Nat) : (s.numEvent k slot kind n).reg = s.reg := by
  unfold State.numEvent
  split <;> rfl

@[simp] theorem numEvent_watch (slot : BitVec 12) (kind n : Nat) : (s.numEvent k slot kind n).watch = s.watch := by
  unfold State.numEvent
  split <;> rfl

@[simp] theorem numEvent_wafer (slot : BitVec 12) (kind n : Nat) : (s.numEvent k slot kind n).wafer = s.wafer := by
  unfold State.numEvent
  split <;> rfl

theorem events_numEvent (slot : BitVec 12) (kind : Nat) {n : Nat} (h : n ≠ 0) :
    Events s (s.numEvent k slot kind n) k slot [(kind, n)] := by
  simp [Events, numEvent_of_ne_zero s k slot kind h, h]

@[simp] theorem tile_numEvent (slot : BitVec 12) (kind n j : Nat) : (s.numEvent k slot kind n).tile j = s.tile j := by
  unfold State.numEvent
  split <;> rfl

end

/-- What a tile unit writes is stored (R114). -/
theorem stored_scrWrite (s : State) (k a : Nat) (bs : List Byte) : Stored s (s.scrWrite k a bs) k a bs := by
  refine ⟨fun i hi => ?_, fun x hx => memGet_memWrite_outside 0 bs _ hx, fun x => ?_⟩
  · rw [List.getD_eq_getElem?_getD, List.getElem?_eq_getElem hi, Option.getD_some]
    exact memGet_memWrite_inside 0 (scrKey k a) bs _ i hi
  · simp only [State.scrWrite, List.mem_filter, Bool.not_eq_true', Bool.and_eq_false_iff, decide_eq_false_iff_not, Nat.not_le,
      Nat.not_lt]

/-- Bytes read back out of a larger write. -/
theorem scr_scrWrite_slice (s : State) (k a : Nat) {i n : Nat} {bs : List Byte} (h : i + n ≤ bs.length) :
    (s.scrWrite k a bs).scr k (a + i) n = (bs.drop i).take n := by
  have hkey : scrKey k (a + i) = scrKey k a + i := (Nat.add_assoc ..).symm
  rw [State.scr, hkey]
  exact memRead_memWrite_slice 0 (scrKey k a) i n bs _ h

/-! ### Retiring -/

theorem domOf_eq_of_dom_eq {t : State} (h : (t.tile k).dom = (s.tile k).dom) : t.domOf k = s.domOf k := by
  rw [State.domOf, h, State.domOf]

theorem retire_of_member (hdom : (s.tile k).dom ≠ none) (hkind : tileKind k ≠ 2) :
    s.retire k = (s.modSeq k seqNext).progress (s.domOf k) := by
  obtain ⟨d, hd⟩ := Option.ne_none_iff_exists'.mp hdom
  have hmod : ((s.modSeq k seqNext).tile k).dom = some d := by simp [hd]
  simp only [State.retire, State.retireCount, State.progressOf, hmod, hkind, if_false, State.domOf, hd]

/-- Dropping the count of a domain makes its watchdog count anew and leaves the others (R170). -/
theorem progressed_of_watch {t : State} (hdom : (s.tile k).dom ≠ none) (hw : t.watch = kvDel (s.domOf k) s.watch) :
    Progressed s t k := by
  intro d
  rw [hw]
  by_cases hd : d = s.domOf k
  · simp [hd, hdom, kvGet, kvFind_kvDel_same]
  · simp [hd, kvGet, kvFind_kvDel_other hd]

/-- A tile that is no scalar pair retires without a change of any register. -/
theorem retired_of_watch {t : State} (hdom : (s.tile k).dom ≠ none) (hkind : tileKind k ≠ 2) (hreg : t.reg = s.reg)
    (hw : t.watch = kvDel (s.domOf k) s.watch) : Retired s t k :=
  ⟨fun x => by simp [hkind, State.reg64, hreg], progressed_of_watch hdom hw⟩

end Sys2Proof.Machine
end

section
/-! SUPPORT. Products with a poison block in the input (R47): the bytes of 512 poison outputs in every format, and the state in which
such a product ends. -/

namespace Sys2Proof.Machine

variable {s : State} {k : Nat}

/-! ### Poison outputs (R66, R86, R93) -/

/-- One unit of a poison output: a poison block of A4B or A8B, or one quiet NaN of BF16 or FP32. -/
def poisonUnit (ofmt : Nat) : List Byte :=
  match ofmt with
  | 2 => natLe 2 0x7FC0
  | 3 => natLe 4 0x7FC00000
  | f => 0xFF :: List.replicate (16 * f + 16) 0

/-- The units of 512 outputs: 16 blocks or 512 values. -/
def poisonUnits (ofmt : Nat) : Nat := if ofmt < 2 then 16 else 512

/-- The bytes of 512 poison outputs. -/
def poisonOutput (ofmt : Nat) : List Byte := (List.replicate (poisonUnits ofmt) (poisonUnit ofmt)).flatten

theorem length_poisonOutput {f : Nat} (h : f < 4) : (poisonOutput f).length = outLen f := by
  rw [poisonOutput, List.length_flatten, List.map_replicate, List.sum_replicate_nat]
  obtain rfl | rfl | rfl | rfl : f = 0 ∨ f = 1 ∨ f = 2 ∨ f = 3 := by omega
  all_goals rfl

theorem poisonUnit_of_lt_two {f : Nat} (h : f < 2) : poisonUnit f = 0xFF :: List.replicate (16 * f + 16) 0 := by
  obtain rfl | rfl : f = 0 ∨ f = 1 := by omega
  all_goals rfl

/-- A run of 512 NaNs encodes as 16 poison blocks (R89). -/
theorem encodeRun_nan (a8 : Bool) : encodeRun a8 (List.replicate 512 .nan) = List.replicate 16 poisonBlock := by
  have hcut : chunks 32 512 (List.replicate (32 * 16) Fv.nan) = List.replicate 16 (List.replicate 32 .nan) :=
    chunks_replicate Fv.nan (by decide) (by decide)
  have hblock : encodeBlock a8 (List.replicate 32 .nan) = poisonBlock := by cases a8 <;> rfl
  rw [encodeRun, List.length_replicate, hcut, List.map_replicate, hblock]

/-- The blocks of 512 NaNs as a product stores them: their poison adds no event (R104). -/
theorem encodeRun_nan_noPoison (a8 : Bool) :
    (encodeRun a8 (List.replicate 512 .nan)).map noPoison = List.replicate 16 (noPoison poisonBlock) := by
  rw [encodeRun_nan, List.map_replicate]

/-- Blocks marked by `noPoison` that are neither zero nor saturated count no event. -/
theorem encEvents_noPoison (slot : BitVec 12) (n : Nat) :
    s.encEvents k slot (List.replicate n (noPoison poisonBlock)) = s := by
  simp [State.encEvents, noPoison, poisonBlock, List.countP_replicate]

/-! ### What a product stores (R66, R192) -/

/-- The bytes of a product's outputs. -/
def outputBytes (ofmt : Nat) (ys : List Fv) : List Byte :=
  match ofmt with
  | 2 => ys.flatMap (fun y => natLe 2 (fenc bf16 y))
  | 3 => ys.flatMap (fun y => natLe 4 (fenc fp32 y))
  | f => runBytes (f == 1) ((encodeRun (f == 1) ys).map noPoison)

theorem outputBytes_nan {f : Nat} (h : f < 4) : outputBytes f (List.replicate 512 .nan) = poisonOutput f := by
  have hvalues (g : Fv → List Byte) : (List.replicate 512 Fv.nan).flatMap g = (List.replicate 512 (g .nan)).flatten :=
    List.flatMap_replicate
  have hunits (a8 : Bool) (e : Encoded) :
      runBytes a8 (List.replicate 16 e) = (List.replicate 16 (blkBytes a8 e.exp e.codes)).flatten := by
    rw [runBytes, List.map_replicate]
  obtain rfl | rfl | rfl | rfl : f = 0 ∨ f = 1 ∨ f = 2 ∨ f = 3 := by omega
  · simp only [outputBytes, encodeRun_nan_noPoison, hunits]
    rfl
  · simp only [outputBytes, encodeRun_nan_noPoison, hunits]
    rfl
  · exact hvalues _
  · exact hvalues _

/-- A product whose blocks count no event of their own counts whether a column is poison, writes its outputs and is done. -/
theorem productStore_eq {o : ProdOps} {ys : List Fv}
    (hquiet : ∀ s : State, s.encEvents k o.lslot ((encodeRun (o.ofmt == 1) ys).map noPoison) = s) (s : State) :
    s.productStore k o ys =
      (((s.numEvent k o.lslot 5 (b2n (ys.any isNan))).scrWrite k (s.ptr16 k o.outP) (outputBytes o.ofmt.toNat ys)).setTile k
        { s.tile k with wait := .no, product := none }).retire k := by
  have ha8 : (o.ofmt == 1) = (o.ofmt.toNat == 1) := by
    rw [Bool.eq_iff_iff, beq_iff_eq, beq_iff_eq, ← BitVec.toNat_inj]
    rfl
  have hformats : o.ofmt.toNat = 0 ∨ o.ofmt.toNat = 1 ∨ o.ofmt.toNat = 2 ∨ o.ofmt.toNat = 3 := by omega
  rw [ha8] at hquiet
  simp only [State.productStore, ha8, hquiet]
  rcases hformats with h | h | h | h <;> simp only [h, outputBytes, tile_scrWrite, tile_numEvent]

/-! ### The input (R47, R85) -/

/-- The exponent of a block of the input is its first byte. -/
theorem blkExp_scr (s : State) (k a : Nat) {n b : Nat} (h : 17 * b < n) :
    blkExp (((s.scr k a n).drop (17 * b)).take 17) = leNat (s.scr k (a + 17 * b) 1) := by
  have hbyte := getD_memRead 0 s.wafer.scratch h (scrKey k a)
  have hkey : scrKey k (a + 17 * b) = scrKey k a + 17 * b := (Nat.add_assoc ..).symm
  simp only [blkExp, State.scr, hkey, memRead, leNat, Nat.mul_zero, Nat.add_zero, ← hbyte]
  simp [List.getD_eq_getElem?_getD, List.getElem?_drop]

theorem inputBlocks_any_poison {a m : Nat} (h : ∃ b, b < 16 * m ∧ leNat (s.scr k (a + 17 * b) 1) = 255) :
    (inputBlocks (s.scr k a (272 * m)) (16 * m)).any (fun b => b.1 == 255) = true := by
  obtain ⟨b, hb, hexp⟩ := h
  rw [List.any_eq_true]
  refine ⟨_, List.mem_map_of_mem (List.mem_range.mpr hb), ?_⟩
  simp only [beq_iff_eq]
  rw [blkExp_scr s k a (by omega), hexp]

/-! ### The product -/

theorem exec_product (tr : Bool) (w : At) (o : ProdOps) (s : State) :
    exec (if tr then .tmvm w o else .mvm w o) s = .next (s.onTile w [0] (fun s => s.productStart w.tile.toNat o tr)) := by
  cases tr <;> rfl

/-- A product with a poison block in its input stores poison outputs and starts no pass (R47). -/
theorem productStart_poison {o : ProdOps} (hgsel : o.gsel.toNat ≤ 4) (hchain : o.arr.toNat + o.nch.toNat ≤ 15)
    (hin : Readable s k (s.ptr16 k o.inP) (272 * (o.nch.toNat + 1))) (hout : Allowed s k (s.ptr16 k o.outP) (outLen o.ofmt.toNat))
    (hpoison : ∃ b, b < 16 * (o.nch.toNat + 1) ∧ leNat (s.scr k (s.ptr16 k o.inP + 17 * b) 1) = 255) (tr : Bool) :
    s.productStart k o tr = s.productStore k o (List.replicate 512 .nan) := by
  rw [State.productStart, if_neg (by omega), recipeGuard_of_not_loupe (loupe_of_allowed hout), guarded_read_write hin hout,
    if_pos (inputBlocks_any_poison hpoison)]

/-- The state in which a poison product ends that stores `bs`: POISON is counted once and the tile moves on. -/
def State.poisonDone (s : State) (k : Nat) (o : ProdOps) (bs : List Byte) : State :=
  ((((s.numEvent k o.lslot 5 1).scrWrite k (s.ptr16 k o.outP) bs).setTile k
    { s.tile k with wait := .no, product := none }).modSeq k seqNext).progress (s.domOf k)

theorem productStore_nan (hdom : (s.tile k).dom ≠ none) (hkind : tileKind k ≠ 2) (o : ProdOps) :
    s.productStore k o (List.replicate 512 .nan) = s.poisonDone k o (poisonOutput o.ofmt.toNat) := by
  have hany : b2n ((List.replicate 512 Fv.nan).any isNan) = 1 := by
    rw [List.any_replicate]
    rfl
  have hquiet (a8 : Bool) (t : State) : t.encEvents k o.lslot ((encodeRun a8 (List.replicate 512 .nan)).map noPoison) = t := by
    rw [encodeRun_nan_noPoison, encEvents_noPoison]
  rw [productStore_eq (hquiet _), hany, outputBytes_nan o.ofmt.isLt, retire_of_member (by simpa using hdom) hkind,
    domOf_eq_of_dom_eq (s := s) (by simp), State.poisonDone]

section
variable (o : ProdOps) (bs : List Byte)

theorem poisonDone_events : Events s (s.poisonDone k o bs) k o.lslot [(5, 1)] := by
  have hcon : (s.poisonDone k o bs).con = (s.numEvent k o.lslot 5 1).con := by simp [State.poisonDone]
  have hdom (d : Nat) : (s.poisonDone k o bs).dom d = (s.numEvent k o.lslot 5 1).dom d := by rw [State.dom, hcon, State.dom]
  have hevents := events_numEvent s k o.lslot 5 Nat.one_ne_zero
  rwa [Events, ← hdom] at hevents

theorem poisonDone_scratch : (s.poisonDone k o bs).wafer.scratch = (s.scrWrite k (s.ptr16 k o.outP) bs).wafer.scratch := by
  simp [State.poisonDone, State.scrWrite]

theorem poisonDone_scratchBad :
    (s.poisonDone k o bs).wafer.scratchBad = (s.scrWrite k (s.ptr16 k o.outP) bs).wafer.scratchBad := by
  simp [State.poisonDone, State.scrWrite]

theorem poisonDone_stored : Stored s (s.poisonDone k o bs) k (s.ptr16 k o.outP) bs := by
  rw [Stored, poisonDone_scratch, poisonDone_scratchBad]
  exact stored_scrWrite s k _ bs

theorem poisonDone_tile :
    (s.poisonDone k o bs).tile k = { s.tile k with wait := .no, product := none, seq := seqNext (s.tile k).seq } := by
  simp [State.poisonDone]

theorem poisonDone_tile_other {j : Nat} (hj : j ≠ k) : (s.poisonDone k o bs).tile j = s.tile j := by
  simp [State.poisonDone, tile_modSeq_other _ _ hj, tile_setTile_other _ hj]

theorem poisonDone_retired (hdom : (s.tile k).dom ≠ none) (hkind : tileKind k ≠ 2) : Retired s (s.poisonDone k o bs) k :=
  retired_of_watch hdom hkind (by simp [State.poisonDone]) (by simp [State.poisonDone])

/-- No array and no other part of the module outside the tile, its scratch and its domain changes (R47). -/
theorem poisonDone_frame (t : State) (ht : t = s.poisonDone k o bs) :
    t = { s with
          wafer.tiles := t.wafer.tiles, wafer.scratch := t.wafer.scratch, wafer.scratchBad := t.wafer.scratchBad
          con.doms := t.con.doms, reg.vals := t.reg.vals, watch := t.watch } := by
  subst ht
  simp only [State.poisonDone, numEvent_of_ne_zero _ _ _ _ Nat.one_ne_zero, State.modSeq, State.setTile, State.scrWrite, State.setDom,
    State.progress]

end

/-- Each unit of a poison output is read back as stored: a poison block or a quiet NaN. -/
theorem poisonDone_unit (s : State) (k : Nat) (o : ProdOps) {f c : Nat} (hc : c < poisonUnits f) :
    (s.poisonDone k o (poisonOutput f)).scr k (s.ptr16 k o.outP + (poisonUnit f).length * c) (poisonUnit f).length =
      poisonUnit f := by
  have hfits : (poisonUnit f).length * c + (poisonUnit f).length ≤ (poisonOutput f).length := by
    rw [poisonOutput, List.length_flatten, List.map_replicate, List.sum_replicate_nat, ← Nat.mul_succ, Nat.mul_comm]
    exact Nat.mul_le_mul_right _ hc
  rw [State.scr, poisonDone_scratch, ← State.scr]
  rw [scr_scrWrite_slice s k _ hfits, poisonOutput, drop_take_flatten_replicate (poisonUnit f) hc]

end Sys2Proof.Machine

open Sys2Proof Sys2Proof.Machine

/-- Settles O19: a poison block sends the product straight to the store of 512 poison outputs (`productStart_poison`), which
ends in `State.poisonDone`. -/
theorem poisonInputMakesEveryOutputPoison : Obligations.PoisonInputMakesEveryOutputPoison := by
  intro s w o hready hgsel hchain k n inp out f hin hout hpoison tr
  have hdom : (s.tile k).dom ≠ none := dom_ne_none_of_runs hready.1
  have hkind : tileKind k ≠ 2 := by
    have h0 : tileKind k = 0 := by simpa using hready.2.1
    omega
  refine ⟨s.poisonDone k o (poisonOutput f), ?_, fun hf b hb => ?_, fun hf c hc => ?_, fun hf c hc => ?_,
    ⟨_, length_poisonOutput o.ofmt.isLt, poisonDone_stored o _⟩, poisonDone_events o _, poisonDone_tile o _,
    fun j hj => poisonDone_tile_other o _ hj, poisonDone_retired o _ hdom hkind, poisonDone_frame o _ _ rfl⟩
  · rw [exec_product, onTile_of_ready hready, productStart_poison hgsel hchain hin hout hpoison tr, productStore_nan hdom hkind]
  · have hunit := poisonDone_unit s k o (f := f) (c := b) (by simpa [poisonUnits, hf] using hb)
    have hblock : poisonUnit f = 0xFF :: List.replicate (16 * f + 16) 0 := poisonUnit_of_lt_two hf
    have hlen : (poisonUnit f).length = 16 * f + 17 := by simp [hblock]
    rwa [hlen, hblock] at hunit
  · have hunit := poisonDone_unit s k o (f := 2) hc
    rw [hf]
    exact congrArg leNat hunit
  · have hunit := poisonDone_unit s k o (f := 3) hc
    rw [hf]
    exact congrArg leNat hunit

end

section
/-! SUPPORT. Registers: what a field reads after it is written, which registers an update leaves, and how an access of a path reaches
its block or is turned away (R13, R311 to R314, R328 to R330). -/

namespace Sys2Proof.Machine

variable {s t : State} {l : List Nat}

/-! ### Fields of a word -/

/-- Replacing one digit of base `B` of a number below `A * B * C`, the digit of weight `A`, by `v` keeps the number below that bound
and makes that digit `v`. -/
theorem digit_replace {A B C W v : Nat} (hA : 0 < A) (hv : v < B) (hW : W < A * (B * C)) :
    (W - W / A % B * A + v * A) % (A * (B * C)) / A % B = v := by
  have hr : W % A < A := Nat.mod_lt _ hA
  have hq : W / A / B < C := Nat.div_lt_of_lt_mul (Nat.div_lt_of_lt_mul hW)
  have hWeq : W = A * (B * (W / A / B)) + W / A % B * A + W % A := by
    rw [Nat.mul_comm (W / A % B), ← Nat.mul_add, Nat.div_add_mod, Nat.div_add_mod]
  have hnew : W - W / A % B * A + v * A = A * (B * (W / A / B) + v) + W % A := by
    rw [Nat.mul_add, Nat.mul_comm v]
    omega
  have hfits : A * (B * (W / A / B) + v) + W % A < A * (B * C) :=
    calc A * (B * (W / A / B) + v) + W % A
      _ < A * (B * (W / A / B) + v + 1) := by
        rw [Nat.mul_succ]
        omega
      _ ≤ A * (B * (W / A / B + 1)) := Nat.mul_le_mul_left A (by rw [Nat.mul_succ]; omega)
      _ ≤ A * (B * C) := Nat.mul_le_mul_left A (Nat.mul_le_mul_left B hq)
  rw [hnew, Nat.mod_eq_of_lt hfits, Nat.mul_add_div hA, Nat.div_eq_of_lt hr, Nat.add_zero, Nat.mul_add_mod, Nat.mod_eq_of_lt hv]

/-- A field reads what was written to it. -/
theorem fld_setFld_same (w : Word) {hi lo v : Nat} (hlo : lo ≤ hi) (hhi : hi < 64) (hv : v < 2 ^ (hi + 1 - lo)) :
    fld (setFld w hi lo v) hi lo = v := by
  have hpow : 2 ^ 64 = 2 ^ lo * (2 ^ (hi + 1 - lo) * 2 ^ (63 - hi)) := by
    rw [← Nat.pow_add, ← Nat.pow_add]
    congr 1
    omega
  simp only [fld, setFld, bits, BitVec.toNat_ofNat, Nat.mod_eq_of_lt hv, hpow]
  exact digit_replace (Nat.two_pow_pos lo) hv (hpow ▸ w.isLt)

/-- A bit is the field of that one bit. -/
theorem bit_eq_fld (w : Word) (i : Nat) : bit w.toNat i = decide (fld w i i = 1) := by
  rw [bit, Nat.testBit_eq_decide_div_mod_eq, fld, bits, Nat.add_sub_cancel_left, Nat.pow_one]

/-- The low bits of a word are the word under their mask. -/
theorem ofNat_fld_zero (w : Word) {hi : Nat} (hhi : hi < 64) :
    BitVec.ofNat 64 (fld w hi 0) = w &&& BitVec.ofNat 64 (2 ^ (hi + 1) - 1) := by
  apply BitVec.eq_of_toNat_eq
  have hmask : 2 ^ (hi + 1) ≤ 2 ^ 64 := Nat.pow_le_pow_right (by decide) hhi
  have hpos : 0 < 2 ^ (hi + 1) := Nat.two_pow_pos _
  have hlow : fld w hi 0 < 2 ^ (hi + 1) := by simpa [fld, bits] using Nat.mod_lt w.toNat hpos
  rw [BitVec.toNat_and, BitVec.toNat_ofNat, BitVec.toNat_ofNat, Nat.mod_eq_of_lt (by omega), Nat.mod_eq_of_lt (by omega),
    Nat.and_two_pow_sub_one_eq_mod, fld, bits, Nat.pow_zero, Nat.div_one, Nat.sub_zero]

/-! ### Fields of a register -/

section
variable (s) (a : Nat)

theorem rfld_lt (hi lo : Nat) : s.rfld a hi lo < 2 ^ (hi + 1 - lo) := Nat.mod_lt _ (Nat.two_pow_pos _)

theorem rfld_setRfld_same {hi lo v : Nat} (hlo : lo ≤ hi) (hhi : hi < 64) (hv : v < 2 ^ (hi + 1 - lo)) :
    (s.setRfld a hi lo v).rfld a hi lo = v := by
  rw [State.rfld, State.setRfld, reg64_setReg_same]
  exact fld_setFld_same _ hlo hhi hv

theorem rbit_setRfld_same {i : Nat} (hi : i < 64) (b : Bool) : (s.setRfld a i i (b2n b)).rbit a i = b := by
  have hb : b2n b < 2 ^ (i + 1 - i) := by cases b <;> simp [b2n]
  have hfield := rfld_setRfld_same s a (Nat.le_refl i) hi hb
  rw [State.rfld] at hfield
  rw [State.rbit, bit_eq_fld, hfield]
  cases b <;> rfl

@[simp] theorem reg64_ok : s.ok.reg64 a = s.reg64 a := rfl
@[simp] theorem rbit_ok (i : Nat) : s.ok.rbit a i = s.rbit a i := rfl

/-- A counter counts one event (R13). -/
theorem counts_bump : Counts s (s.bump a) a 1 := by
  rw [Counts, State.bump, reg64_bumpBy_same, satAdd, BitVec.toNat_ofNat, Nat.mod_eq_of_lt (by omega)]

end

/-! ### Registers that an update leaves -/

theorem regsBut_of_reg_eq (h : t.reg = s.reg) (l : List Nat) : RegsBut s t l := fun x _ => by
  rw [State.reg64, h, State.reg64]

theorem RegsBut.of_reg_eq {u : State} (h : RegsBut s t l) (hu : u.reg = t.reg) : RegsBut s u l := fun x hx => by
  rw [← h x hx, State.reg64, hu, State.reg64]

theorem RegsBut.mono {l' : List Nat} (h : RegsBut s t l) (hl : l ⊆ l') : RegsBut s t l' := fun x hx => h x (fun hxl => hx (hl hxl))

theorem RegsBut.append {u : State} {l' : List Nat} (h : RegsBut s t l) (h' : RegsBut t u l') : RegsBut s u (l ++ l') := fun x hx => by
  rw [List.mem_append, not_or] at hx
  obtain ⟨hxl, hxl'⟩ := hx
  rw [h' x hxl', h x hxl]

theorem RegsBut.setReg (h : RegsBut s t l) {a : Nat} (ha : a ∈ l) (w : Word) : RegsBut s (t.setReg a w) l := fun x hx => by
  have hxa : x ≠ a := fun hxa => hx (hxa ▸ ha)
  rw [reg64_setReg_other t hxa, h x hx]

theorem RegsBut.setRfld (h : RegsBut s t l) {a : Nat} (ha : a ∈ l) (hi lo v : Nat) : RegsBut s (t.setRfld a hi lo v) l :=
  h.setReg ha _

theorem RegsBut.bump (h : RegsBut s t l) {a : Nat} (ha : a ∈ l) : RegsBut s (t.bump a) l := h.setReg ha _

theorem RegsBut.rbit (h : RegsBut s t l) {a : Nat} (ha : a ∉ l) (i : Nat) : t.rbit a i = s.rbit a i := by
  rw [State.rbit, h a ha, State.rbit]

theorem RegsBut.counts (h : RegsBut s t l) {u : State} {a n : Nat} (ha : a ∉ l) (hc : Counts u s a n) : Counts u t a n := by
  rwa [Counts, h a ha]

/-! ### Updates of registers and the answer alone -/

/-- Nothing but the applied values of registers and the answer to the last access has changed. -/
def RegsFrame (s t : State) : Prop := t = { s with reg.vals := t.reg.vals, resp := t.resp }

theorem RegsFrame.refl (s : State) : RegsFrame s s := rfl

theorem RegsFrame.setReg (h : RegsFrame s t) (a : Nat) (w : Word) : RegsFrame s (t.setReg a w) := by
  rw [RegsFrame] at h
  rw [h]
  rfl

theorem RegsFrame.answer (h : RegsFrame s t) (status : Nat) (data : List Byte) : RegsFrame s (t.answer status data) := by
  rw [RegsFrame] at h
  rw [h]
  rfl

/-! ### Accesses (R311 to R314, R328 to R330) -/

/-- The registers that turning an access away may change: the records and counts of the host's agents (R314, R330), and the fault
log's pointers and overflow counter (R383). -/
def turnedAwayRegs : List Nat :=
  [aHostAccErrCnt, aHostViolCnt, aHostErrInfo, aHostErrAddr, aLedgFlogPtr, aLedgFlogAck, aLedgFlogOvfCnt]

theorem flogAdd_regsBut (h : RegsBut s t turnedAwayRegs) (e : Entry) : RegsBut s (t.flogAdd e) turnedAwayRegs := by
  have hptr : aLedgFlogPtr ∈ turnedAwayRegs := by decide
  have hack : aLedgFlogAck ∈ turnedAwayRegs := by decide
  have hovf : aLedgFlogOvfCnt ∈ turnedAwayRegs := by decide
  unfold State.flogAdd
  extract_lets next _ _ logged moved
  have hlogged : RegsBut s logged turnedAwayRegs := h.of_reg_eq rfl
  have hmoved : RegsBut s moved turnedAwayRegs := hlogged.setRfld hptr _ _ _
  split
  · exact (hmoved.bump hovf).setRfld hack _ _ _
  · exact hmoved

/-- A VIOLATION entry is no repair: it is not traced, and enters the journal and the fault log (R379, R383). -/
theorem violEntry_eq_flogAdd (s : State) (cls id tag code addr : Nat) :
    ∃ led e, s.violEntry cls id tag code addr = State.flogAdd { s with keep.ledger := led } e := by
  have hnoRepair : ¬ (0x10 ≤ 0x21 ∧ 0x21 ≤ 0x1F) := by decide
  have hnoFault : ¬ (0x21 = 0x20) := by decide
  have hlogged : 0x10 ≤ 0x21 := by decide
  simp only [State.violEntry, State.journal, if_neg hnoRepair, if_neg hnoFault, if_pos hlogged, if_true]
  exact ⟨_, _, rfl⟩

theorem violEntry_regsBut (h : RegsBut s t turnedAwayRegs) (cls id tag code addr : Nat) :
    RegsBut s (t.violEntry cls id tag code addr) turnedAwayRegs := by
  obtain ⟨led, e, heq⟩ := violEntry_eq_flogAdd t cls id tag code addr
  have hled : RegsBut s { t with keep.ledger := led } turnedAwayRegs := h.of_reg_eq rfl
  rw [heq]
  exact flogAdd_regsBut hled e

@[simp] theorem resetsSettle_reg (s : State) : s.resetsSettle.reg = s.reg := by
  unfold State.resetsSettle
  extract_lets
  split <;> rfl

@[simp] theorem freezeMaster_reg (s : State) (cls id tag : Nat) : (s.freezeMaster cls id tag).reg = s.reg := by
  rw [← resetsSettle_reg s]
  unfold State.freezeMaster
  extract_lets
  split <;> rfl

section
variable (s : State) (path : Path) (kind : Nat) (write : Bool) (a : Nat)

theorem hostNote_regsBut {l : List Nat} (hinfo : aHostErrInfo ∈ l) (haddr : aHostErrAddr ∈ l) (agent : Nat) :
    RegsBut s (s.hostNote kind agent write a) l :=
  ((regsBut_of_reg_eq rfl l).setReg hinfo _).setReg haddr _

/-- A refusal changes no register but the host port's records and count. -/
theorem refuse_regsBut : RegsBut s (s.refuse path kind write a) [aHostAccErrCnt, aHostErrInfo, aHostErrAddr] := by
  cases path with
  | host =>
    have hnote := hostNote_regsBut s kind write a (l := [aHostAccErrCnt, aHostErrInfo, aHostErrAddr]) (by decide) (by decide) 0
    exact hnote.bump (by decide)
  | _ => exact regsBut_of_reg_eq rfl _

theorem refuse_resp : (s.refuse path kind write a).resp = { status := 1, data := [] } := by
  cases path <;> rfl

theorem hostViolate_regsBut (agent : Nat) : RegsBut s (s.hostViolate kind agent write a) turnedAwayRegs := by
  have hnote := hostNote_regsBut s kind write a (l := turnedAwayRegs) (by decide) (by decide) agent
  have hfrozen := hnote.of_reg_eq (freezeMaster_reg _ 2 agent (s.agentTag agent))
  have hcounted := hfrozen.bump (a := aHostViolCnt) (by decide)
  exact (violEntry_regsBut hcounted 2 agent (s.agentTag agent) 4 a).of_reg_eq (answer_reg _ 1 [])

end

theorem RegsFrame.refuse (h : RegsFrame s t) (path : Path) (kind : Nat) (write : Bool) (a : Nat) :
    RegsFrame s (t.refuse path kind write a) := by
  cases path with
  | host => exact (((h.setReg _ _).setReg _ _).setReg _ _).answer _ _
  | _ => exact h.answer _ _

/-- An access that reaches its block is what the block does with it. -/
theorem access_of_reaches {path : Path} {a : Nat} {write : Bool} (h : Reaches s path a write) (k : State → State) :
    s.access path a write k = k s := by
  obtain ⟨hserved, hhost⟩ := h
  cases path with
  | host =>
    obtain ⟨hfrozen, hmay⟩ := hhost rfl
    simp [State.access, State.accessOf, hserved, hfrozen, hmay]
  | _ => simp [State.access, State.accessOf, hserved]

/-- An access comes to its block, or is turned away with no register changed but those that record it. -/
theorem access_cases (s : State) (path : Path) (a : Nat) (write : Bool) (k : State → State) :
    s.access path a write k = k s ∨ RegsBut s (s.access path a write k) turnedAwayRegs := by
  have hsubset : [aHostAccErrCnt, aHostErrInfo, aHostErrAddr] ⊆ turnedAwayRegs := by decide
  unfold State.access State.accessOf
  split
  · exact .inr (regsBut_of_reg_eq rfl _)
  · cases s.reach path a write with
    | absent => exact .inr (regsBut_of_reg_eq rfl _)
    | dark =>
      right
      simp only [Bool.not_true, Bool.false_eq_true, if_false]
      split
      · exact (refuse_regsBut s path 2 true a).mono hsubset
      · exact regsBut_of_reg_eq rfl _
    | served =>
      simp only [Bool.not_true, Bool.false_eq_true, if_false]
      split
      · exact .inr (hostViolate_regsBut s 4 write a 0)
      · exact .inl rfl

end Sys2Proof.Machine
end

section
/-! SUPPORT. The loop command (R399): a close of the valve on a powered wafer is refused whole, every other write is taken. -/

namespace Sys2Proof.Machine

variable {s : State} {path : Path} {v : Word}

theorem exec_loopCmdWrite (path : Path) (v : Word) (s : State) :
    exec (.loopCmdWrite path v) s = .next (s.access path aThmLoopCmd true (fun s => s.loopCmdSet path v)) := rfl

/-- Whether the outputs run is read from KEEP.STATE alone among the registers. -/
theorem running_setReg {a : Nat} (ha : aKeepState ≠ a) (s : State) (w : Word) : (s.setReg a w).running = s.running := by
  have hreleased : (s.setReg a w).outputsReleased = s.outputsReleased := rfl
  have horder : (s.setReg a w).rfld aKeepState 4 0 = s.rfld aKeepState 4 0 := by
    rw [State.rfld, reg64_setReg_other s ha, State.rfld]
  have hrecovery : (s.setReg a w).inRecovery = s.inRecovery := by
    rw [State.inRecovery, State.rbit, reg64_setReg_other s ha, State.inRecovery, State.rbit]
  rw [State.running, horder, hreleased, hrecovery, setReg_keep, State.running]

theorem loopCmdSet_of_close (hclose : v.toNat.testBit 11 = true) (hon : s.waferOn = true) (path : Path) :
    s.loopCmdSet path v = (s.bump aThmValveRejectCnt).refuse path 2 true aThmLoopCmd := by
  simp only [State.loopCmdSet, bit, hclose, hon, Bool.and_self, if_true]

theorem loopCmdSet_of_taken (h : v.toNat.testBit 11 = false ∨ s.waferOn = false) (path : Path) :
    s.loopCmdSet path v =
      ((s.setReg aThmLoopCmd (v &&& 0xFFF)).setRfld aThmFlow 20 20 (b2n (!(v.toNat.testBit 11 && s.running)))).ok := by
  have hpass : (v.toNat.testBit 11 && s.waferOn) = false := Bool.and_eq_false_iff.mpr h
  have hword : BitVec.ofNat 64 (fld v 11 0) = v &&& 0xFFF := ofNat_fld_zero v (by decide)
  simp only [State.loopCmdSet, bit, hpass, Bool.false_eq_true, if_false, hword, running_setReg (by decide : aKeepState ≠ aThmLoopCmd)]

/-- The registers that the refusal of a close may change. -/
theorem loopCmdSet_regsBut_of_close (hclose : v.toNat.testBit 11 = true) (hon : s.waferOn = true) (path : Path) :
    RegsBut s (s.loopCmdSet path v) [aThmValveRejectCnt, aHostAccErrCnt, aHostErrInfo, aHostErrAddr] := by
  rw [loopCmdSet_of_close hclose hon]
  have hcounted : RegsBut s (s.bump aThmValveRejectCnt) [aThmValveRejectCnt] := (regsBut_of_reg_eq rfl _).bump (by decide)
  exact hcounted.append (refuse_regsBut _ path 2 true aThmLoopCmd)

/-- A write that is taken leaves the valve open unless it closes it while the outputs run. -/
theorem rbit_valve_of_taken (h : v.toNat.testBit 11 = false ∨ s.waferOn = false) (path : Path) :
    (s.loopCmdSet path v).rbit aThmFlow 20 = !(v.toNat.testBit 11 && s.running) := by
  rw [loopCmdSet_of_taken h]
  rw [rbit_ok, rbit_setRfld_same _ aThmFlow (by decide)]

/-- On a powered wafer the block of THM.LOOP_CMD never closes an open valve. -/
theorem rbit_valve_loopCmdSet (hon : s.waferOn = true) (hopen : s.rbit aThmFlow 20 = true) (path : Path) (v : Word) :
    (s.loopCmdSet path v).rbit aThmFlow 20 = true := by
  cases hclose : v.toNat.testBit 11 with
  | true => rw [(loopCmdSet_regsBut_of_close hclose hon path).rbit (by decide), hopen]
  | false => rw [rbit_valve_of_taken (.inl hclose), hclose, Bool.false_and, Bool.not_false]

end Sys2Proof.Machine

open Sys2Proof Sys2Proof.Machine

/-- Settles O48: the block refuses a close on a powered wafer (`loopCmdSet_of_close`) and takes every other write
(`loopCmdSet_of_taken`); an access that does not come to the block changes no register of the coolant loop (`access_cases`). -/
theorem theValveCannotCloseOnAPoweredWafer : Obligations.TheValveCannotCloseOnAPoweredWafer := by
  intro s path v
  refine ⟨fun hon hopen => ⟨_, exec_loopCmdWrite path v s, ?_⟩, fun hreach => ⟨fun hclose hon => ?_, fun htaken => ?_⟩⟩
  · rcases access_cases s path aThmLoopCmd true (fun s => s.loopCmdSet path v) with hblock | haway
    · rw [hblock, rbit_valve_loopCmdSet hon hopen]
    · rw [haway.rbit (by decide), hopen]
  · refine ⟨s.loopCmdSet path v, by rw [exec_loopCmdWrite, access_of_reaches hreach], ?_, ?_,
      loopCmdSet_regsBut_of_close hclose hon path, ?_⟩
    · rw [loopCmdSet_of_close hclose hon, refuse_resp]
    · rw [loopCmdSet_of_close hclose hon]
      exact (refuse_regsBut _ path 2 true aThmLoopCmd).counts (by decide) (counts_bump s aThmValveRejectCnt)
    · rw [loopCmdSet_of_close hclose hon]
      exact ((RegsFrame.refl s).setReg _ _).refuse path 2 true aThmLoopCmd
  · refine ⟨s.loopCmdSet path v, by rw [exec_loopCmdWrite, access_of_reaches hreach], ?_, rbit_valve_of_taken htaken path, ?_, ?_⟩
    · rw [loopCmdSet_of_taken htaken]
      rw [reg64_ok, State.setRfld, reg64_setReg_other _ (by decide), reg64_setReg_same]
    · rw [loopCmdSet_of_taken htaken]
      have hset : RegsBut s (s.setReg aThmLoopCmd (v &&& 0xFFF)) [aThmLoopCmd, aThmFlow] :=
        (regsBut_of_reg_eq rfl _).setReg (by decide) _
      exact (hset.setRfld (by decide) _ _ _).of_reg_eq (answer_reg _ 0 [])
    · rw [loopCmdSet_of_taken htaken]
      exact (((RegsFrame.refl s).setReg _ _).setReg _ _).answer 0 []

end

section
/-! SUPPORT. The pump demand (R398): what automatic mode asks for at each outlet reading, and the demand that follows from it. -/

namespace Sys2Proof.Machine

variable {s : State} {c v : Nat}

/-! ### Automatic mode -/

/-- An open quotient is the quotient rounded down or the next one, and only the count of free values may move. -/
theorem openDiv_cases (s : State) (n d : Nat) :
    ∃ c, s.openDiv n d = ({ s with freeCtr := c }, n / d) ∨ s.openDiv n d = ({ s with freeCtr := c }, n / d + 1) := by
  unfold State.openDiv
  split
  · exact ⟨s.freeCtr, .inl rfl⟩
  · refine ⟨s.freeCtr + 1, ?_⟩
    rcases Nat.mod_two_eq_zero_or_one (Config.fresh s.freeCtr).toNat with h | h
    · exact .inl (by rw [h]; rfl)
    · exact .inr (by rw [h]; rfl)

theorem autoDemand_of_le_lo (h : s.outletTemp ≤ s.rfld aThmPumpAuto 17 10 * 128) :
    s.autoDemand = (s, s.rfld aThmPumpAuto 9 0) := if_pos h

theorem autoDemand_of_hi_le (hlo : s.rfld aThmPumpAuto 17 10 * 128 < s.outletTemp)
    (hhi : s.rfld aThmPumpAuto 25 18 * 128 ≤ s.outletTemp) : s.autoDemand = (s, 1000) :=
  (if_neg (Int.not_le.mpr hlo)).trans (if_pos hhi)

/-- The part of the range above PUMP_MIN that automatic mode asks for at an outlet reading between OUT_LO and OUT_HI, rounded down. -/
def State.demandRise (s : State) : Nat :=
  let lo : Int := s.rfld aThmPumpAuto 17 10 * 128
  let hi : Int := s.rfld aThmPumpAuto 25 18 * 128
  (1000 - s.rfld aThmPumpAuto 9 0) * (s.outletTemp - lo).toNat / (hi - lo).toNat

theorem autoDemand_of_between (hlo : s.rfld aThmPumpAuto 17 10 * 128 < s.outletTemp)
    (hhi : s.outletTemp < s.rfld aThmPumpAuto 25 18 * 128) :
    ∃ c, s.autoDemand = ({ s with freeCtr := c }, s.rfld aThmPumpAuto 9 0 + s.demandRise) ∨
      s.autoDemand = ({ s with freeCtr := c }, s.rfld aThmPumpAuto 9 0 + s.demandRise + 1) := by
  have hspan : (s.rfld aThmPumpAuto 25 18 - s.rfld aThmPumpAuto 17 10) * 128 =
      ((s.rfld aThmPumpAuto 25 18 * 128 : Int) - s.rfld aThmPumpAuto 17 10 * 128).toNat := by omega
  obtain ⟨c, hdiv⟩ := openDiv_cases s
    ((1000 - s.rfld aThmPumpAuto 9 0) * (s.outletTemp - s.rfld aThmPumpAuto 17 10 * 128).toNat)
    ((s.rfld aThmPumpAuto 25 18 - s.rfld aThmPumpAuto 17 10) * 128)
  refine ⟨c, ?_⟩
  simp only [State.autoDemand, if_neg (Int.not_le.mpr hlo), if_neg (Int.not_le.mpr hhi)]
  rcases hdiv with hdiv | hdiv
  · left
    rw [hdiv, State.demandRise, hspan]
  · right
    rw [hdiv, State.demandRise, hspan, Nat.add_assoc]

/-- The linear part stays within the range from PUMP_MIN to 100 %. -/
theorem demandRise_le (hhi : s.outletTemp < s.rfld aThmPumpAuto 25 18 * 128) : s.demandRise ≤ 1000 - s.rfld aThmPumpAuto 9 0 := by
  refine Nat.div_le_of_le_mul ?_
  rw [Nat.mul_comm]
  exact Nat.mul_le_mul_right _ (by omega)

/-- Automatic mode moves nothing but the count of free values. -/
theorem autoDemand_frame (s : State) : ∃ c v, s.autoDemand = ({ s with freeCtr := c }, v) := by
  by_cases hlo : s.outletTemp ≤ s.rfld aThmPumpAuto 17 10 * 128
  · exact ⟨_, _, autoDemand_of_le_lo hlo⟩
  · by_cases hhi : s.rfld aThmPumpAuto 25 18 * 128 ≤ s.outletTemp
    · exact ⟨_, _, autoDemand_of_hi_le (Int.not_le.mp hlo) hhi⟩
    · obtain ⟨c, h | h⟩ := autoDemand_of_between (Int.not_le.mp hlo) (Int.not_le.mp hhi)
      · exact ⟨c, _, h⟩
      · exact ⟨c, _, h⟩

/-! ### The demand of either mode -/

/-- A warning of the junctions or the coolant, or low flow: the pump runs at 100 %. -/
def State.pumpFull (s : State) : Bool := s.rbit aThmStatus 0 || s.rbit aThmStatus 3 || s.rbit aThmStatus 4

/-- The demand that the mode asks for, before the floor and the warnings. -/
def State.modeDemand (s : State) : State × Nat :=
  if s.rbit aThmLoopCmd 0 then (s, min 1000 (s.rfld aThmLoopCmd 10 1)) else s.autoDemand

/-- The module with a pump demand set and its count of free values at `c`. -/
def State.pumpTo (s : State) (c v : Nat) : State := State.setRfld { s with freeCtr := c } aThmFlow 19 10 v

theorem pumpSet_of_running (hrun : s.running = true) (h : s.modeDemand = ({ s with freeCtr := c }, v)) :
    s.pumpSet = s.pumpTo c (if s.pumpFull then 1000 else if s.waferOn then max v (s.rfld aThmPumpAuto 9 0) else v) := by
  rw [State.modeDemand] at h
  simp only [State.pumpSet, hrun, Bool.not_true, Bool.false_eq_true, if_false, h]
  rfl

theorem pumpSet_of_full (hrun : s.running = true) (hfull : s.pumpFull = true) : ∃ c, s.pumpSet = s.pumpTo c 1000 := by
  have hmode : ∃ c v, s.modeDemand = ({ s with freeCtr := c }, v) := by
    unfold State.modeDemand
    split
    · exact ⟨_, _, rfl⟩
    · exact autoDemand_frame s
  obtain ⟨c, v, h⟩ := hmode
  exact ⟨c, by rw [pumpSet_of_running hrun h, hfull, if_pos rfl]⟩

theorem pumpSet_of_manual (hrun : s.running = true) (hfull : s.pumpFull = false) (hman : s.rbit aThmLoopCmd 0 = true)
    (hduty : s.rfld aThmLoopCmd 10 1 ≤ 1000) :
    s.pumpSet = s.pumpTo s.freeCtr (max (s.rfld aThmLoopCmd 10 1) (if s.waferOn then s.rfld aThmPumpAuto 9 0 else 0)) := by
  have hmode : s.modeDemand = (s, s.rfld aThmLoopCmd 10 1) := by rw [State.modeDemand, if_pos hman, Nat.min_eq_right hduty]
  rw [pumpSet_of_running hrun hmode, hfull, if_neg Bool.false_ne_true]
  congr 1
  split
  · rfl
  · rw [Nat.max_zero]

/-- A demand of automatic mode that is at least PUMP_MIN is set as it is. -/
theorem pumpSet_of_auto (hrun : s.running = true) (hfull : s.pumpFull = false) (hauto : s.rbit aThmLoopCmd 0 = false)
    (h : s.autoDemand = ({ s with freeCtr := c }, v)) (hfloor : s.rfld aThmPumpAuto 9 0 ≤ v) : s.pumpSet = s.pumpTo c v := by
  have hmode : s.modeDemand = ({ s with freeCtr := c }, v) := by rw [State.modeDemand, hauto, if_neg Bool.false_ne_true, h]
  rw [pumpSet_of_running hrun hmode, hfull, if_neg Bool.false_ne_true, Nat.max_eq_left hfloor, ite_self]

/-! ### The update -/

/-- The update of the pump demand has set it to `v` and touched nothing else but its timer and the count of free values. -/
def PumpUpdated (s : State) (v : Nat) : Prop :=
  ∃ t, exec .pumpDemandUpdate s = .next t ∧ t.rfld aThmFlow 19 10 = v ∧ RegsBut s t [aThmFlow] ∧
    t = { s with reg.vals := t.reg.vals, freeCtr := t.freeCtr, keep.lastAt := kvSet 2 s.clock s.keep.lastAt }

theorem exec_pumpDemandUpdate (s : State) : exec .pumpDemandUpdate s = s.paced 2 100000 (fun s => .next s.pumpSet) := rfl

theorem pumpDemandUpdate_of_not_due (hdue : s.due 2 100000 = false) : exec .pumpDemandUpdate s = .next s := by
  rw [exec_pumpDemandUpdate, State.paced, hdue, if_neg Bool.false_ne_true]

/-- An update that is due sets the demand that the state with its timer started asks for. -/
theorem pumpUpdated_of_pumpSet (hdue : s.due 2 100000 = true) (h : (s.ranNow 2).pumpSet = (s.ranNow 2).pumpTo c v)
    (hv : v < 1024) : PumpUpdated s v := by
  refine ⟨(s.ranNow 2).pumpTo c v, ?_, ?_, ?_, ?_⟩
  · rw [exec_pumpDemandUpdate, State.paced, hdue, if_pos rfl, h]
  · exact rfld_setRfld_same _ aThmFlow (by decide) (by decide) hv
  · exact (regsBut_of_reg_eq rfl _).setRfld (by decide) _ _ _
  · rfl

end Sys2Proof.Machine

open Sys2Proof Sys2Proof.Machine

/-- Settles O52: an update that is due sets the demand of its mode (`pumpSet_of_manual`, `pumpSet_of_auto`) or 100 % under a warning
(`pumpSet_of_full`); the linear value is an open quotient, whose rounding is one of two neighbours (`autoDemand_of_between`). -/
theorem thePumpFollowsTheHottestOutlet : Obligations.ThePumpFollowsTheHottestOutlet := by
  intro s full least lo hi out pump
  refine ⟨pumpDemandUpdate_of_not_due, fun hrun hdue => ⟨fun hfull => ?_, fun hcalm hman hduty => ?_, fun hcalm hauto hleast => ?_⟩⟩
  · have hfull' : s.pumpFull = true := by simpa [State.pumpFull, or_assoc] using hfull
    obtain ⟨c, hset⟩ := pumpSet_of_full (s := s.ranNow 2) hrun hfull'
    exact pumpUpdated_of_pumpSet hdue hset (by decide)
  · have hcalm' : s.pumpFull = false := by simpa [full, State.pumpFull, and_assoc] using hcalm
    have hleast : least < 1024 := rfld_lt s aThmPumpAuto 9 0
    refine pumpUpdated_of_pumpSet hdue (pumpSet_of_manual (s := s.ranNow 2) hrun hcalm' hman hduty) ?_
    exact Nat.max_lt.mpr ⟨by omega, by split <;> omega⟩
  · have hcalm' : s.pumpFull = false := by simpa [full, State.pumpFull, and_assoc] using hcalm
    have hset {c v : Nat} (h : (s.ranNow 2).autoDemand = ({ s.ranNow 2 with freeCtr := c }, v)) (hfloor : least ≤ v)
        (hv : v < 1024) : pump v :=
      pumpUpdated_of_pumpSet hdue (pumpSet_of_auto (s := s.ranNow 2) hrun hcalm' hauto h hfloor) hv
    refine ⟨fun hlo => ?_, fun hlo hhi => ?_, fun hlo hhi => ?_⟩
    · exact hset (autoDemand_of_le_lo (s := s.ranNow 2) hlo) (Nat.le_refl _) (by omega)
    · exact hset (autoDemand_of_hi_le (s := s.ranNow 2) hlo hhi) hleast (by decide)
    · have hrise : s.demandRise ≤ 1000 - least := demandRise_le hhi
      obtain ⟨c, hdown | hup⟩ := autoDemand_of_between (s := s.ranNow 2) hlo hhi
      · exact .inl (hset (v := least + s.demandRise) hdown (by omega) (by omega))
      · exact .inr (hset (v := least + s.demandRise + 1) hup (by omega) (by omega))

end
